-- ==== Sys2Proof/Word.lean ====
section
/-! DEFINITION. The word types of the module: bytes and the 64-bit words that registers hold (R1, R539). -/

namespace Sys2Proof

/-- One byte of any memory of the module. -/
abbrev Byte := BitVec 8

/-- The contents of one register; a 32-bit register keeps its bits [63:32] at 0 (R539). -/
abbrev Word := BitVec 64

end Sys2Proof
end

