-- ==== Sys2Proof/Syntax.lean ====
section
/-! DEFINITION. The commands of the block: one constructor per row of the opcode table, with the row's operands. A
command carried by a queue or a management path is named by its carrier and SEQ; its packet lies in memory or in the
path's buffer. An operand that is a measured value or the outcome of a physical event is what the sender observed. -/

namespace Sys2Proof

/-- The path on which a register access arrives (PATH of MOD_ACC_ERR, R548), with the hart for a host core. -/
inductive Path
  | host (hart : Nat) | pcx (port : Nat) | smbus | net | mailbox (port : Nat) | queue (q : Nat)
  deriving DecidableEq, Repr

/-- What carries a command packet: a submission queue, or a management path (R86 to R88, R419); mailbox numbers from 2 on stand for
commands that a reset of function 1 has left behind (R430). -/
inductive Carrier
  | queue (q : Nat) | smbus | net (session : Nat) | mailbox (port : Nat)
  deriving DecidableEq, Repr

/-- An engine instance (R23): class, half and index. -/
structure Engine where
  cls : Nat
  half : Nat
  idx : Nat
  deriving DecidableEq, Repr

/-- A thread group of a resident block: the LAUNCH's queue and SEQ, the flattened block index and the group. -/
structure Grp where
  q : Nat
  seq : Nat
  block : Nat
  group : Nat
  deriving DecidableEq, Repr

/-- A memory device: an Infield stack (0 to 5) or an Outfield package (0 to 11) of a half (R271). -/
structure MemDev where
  outfield : Bool
  half : Nat
  dev : Nat
  deriving DecidableEq, Repr

/-- A Yoke operation arriving from another module (R383); ctx, q and seq are the origin's marks of a WATCH, which its message
brings back (R370). -/
structure YokeFrame where
  rank : Nat
  node : Nat
  job : Nat
  txn : Nat
  op : Nat
  sem : Nat
  value : Nat
  compare : Nat
  tkind : Nat
  target : Nat
  bar : Nat
  ctx : Nat
  q : Nat
  seq : Nat
  deriving DecidableEq, Repr

/-- A collective message (R461, R464), sent by module `rank` as transaction seq: what the member of index src of a group sends,
of kind 0 data, 1 READY, 2 LOST (lost is then the index of the lost member) or 3 a mismatch found; poison lists the poisoned
elements. -/
structure CollMsg where
  rank : Nat
  node : Nat
  job : Nat
  seq : Nat
  group : Nat
  cseq : Nat
  op : Nat
  cepoch : Nat
  src : Nat
  kind : Nat
  lost : Nat
  poison : List Nat
  data : List Byte
  deriving DecidableEq, Repr

/-- An access that arrives from another module (R453 to R457): kind 0 write, 1 read, 2 atomic; the origin's logical rank and job, the
transaction's sequence number, the window, and its bytes as (offset, length) ranges. lastBits is how many bits of the last
byte of a write are written. -/
structure RemoteAccess where
  rank : Nat
  node : Nat
  job : Nat
  seq : Nat
  kind : Nat
  win : Nat
  ranges : List (Nat × Nat)
  data : List Byte
  lastBits : Nat
  poison : Bool
  aop : Nat
  fmt : Nat
  operand : Nat
  compare : Nat
  deriving DecidableEq, Repr

/-- The reply to a transaction (R457, R458): the answering rank, the sequence number, the outcome, the data of a read, and
whether the target repeats its first outcome or answers busy. -/
structure Reply where
  rank : Nat
  seq : Nat
  status : Nat
  detail : List Byte
  data : List Byte
  poison : Bool
  dup : Bool
  busy : Bool
  deriving DecidableEq, Repr

/-- A watch message in flight (R369 to R371). -/
structure YMsg where
  sem : Nat
  value : Nat
  wstatus : Nat
  tkind : Nat
  target : Nat
  compare : Nat
  ctx : Nat
  q : Nat
  seq : Nat
  deriving DecidableEq, Repr

/-- What a frame of the fabric carries (R443, R450): an access, a reply, a remote Yoke operation, a collective message, an
unreachable reply (to transaction seq of the receiver to a node), the message of a remote WATCH, or a management frame. -/
inductive Packet
  | access (a : RemoteAccess)
  | reply (r : Reply)
  | yoke (o : YokeFrame)
  | coll (m : CollMsg)
  | unreach (node seq : Nat)
  | watchMsg (m : YMsg)
  | mgmt (bytes : List Byte)
  deriving DecidableEq, Repr

/-- The lines filled from memory and written back for a 2 MiB group in a survey period, by half (R321). -/
structure Fill where
  group : Nat
  east : Nat
  west : Nat
  deriving DecidableEq, Repr

/-- How a slice test ended (R524, R527): RESULT, the signature and the expected one, failing elements, the first of them, and the time
from issue in microseconds. -/
structure SliceOutcome where
  result : Nat
  signature : Nat
  expected : Nat
  fails : Nat
  first : Nat
  micros : Nat
  deriving DecidableEq, Repr
/-- A UDP datagram on port 50510 (R87, R555): its sender's address, MAC address and port, and its bytes. -/
structure Datagram where
  v6 : Bool
  src : Nat
  mac : Nat
  sport : Nat
  bytes : List Byte
  deriving DecidableEq, Repr
/-- An ARP request or a neighbour solicitation (R451, R555): the port it reaches (0 to 8 an encapsulated port, 9 the management port),
its family, the address asked for and the sender's MAC address. -/
structure ArpReq where
  port : Nat
  v6 : Bool
  target : Nat
  mac : Nat
  deriving DecidableEq, Repr
/-- An inbound PCI Express request (R418, R420): the port, the requester and tag; in endpoint mode the function and BAR with the offset in
it, in root mode the bus address; the bytes written, or how many are read; poison; and an AtomicOp (0 FetchAdd, 1 Swap, 2 CAS). -/
structure InboundReq where
  port : Nat
  req : Nat
  tag : Nat
  fn : Nat
  bar : Nat
  addr : Nat
  size : Nat
  data : List Byte
  poison : Bool
  aop : Nat
  operand : Nat
  compare : Nat
  deriving DecidableEq, Repr
/-- A concord record as it arrives (R440). -/
structure Concord where
  bytes : List Byte
  deriving DecidableEq, Repr

/-- A frame as it arrives on a port (R443, R451): its link sequence number, whether its CRC holds, its traffic class, its
origin and destination nodes, its packet, and for an encapsulated one whether its address and length are right. -/
structure LinkFrame where
  seq : Nat
  crcOk : Bool
  addrOk : Bool
  cls : Nat
  src : Nat
  dst : Nat
  pkt : Packet
  deriving DecidableEq, Repr

/-- A two-way time exchange with a neighbour (R466): the port, the neighbour's fabric time now, and its hops to a root. -/
structure TimeXchg where
  port : Nat
  theirs : Nat
  hops : Nat
  deriving DecidableEq, Repr

/-- What the power sensors report in a tick (R477, R478): P in 0.1 W, the source of the measurement, and the phase group whose report
failed. -/
structure PowerMeas where
  power : Nat
  source : Nat
  group : Nat
  deriving DecidableEq, Repr
/-- The coolant sensors (R479, R492): inlet and outlet in °C. -/
structure ThermMeas where
  inlet : Nat
  outlet : Nat
  deriving DecidableEq, Repr
/-- What a scrub read met (R279, R280): a symbol position it corrected, or an error it could not correct. -/
structure ScrubRead where
  fix : Option Nat
  lost : Bool
  deriving DecidableEq, Repr
/-- The kinds of parts that fail, are spared or stop start-up (R509, R520). -/
inductive PartKind
  | hostCore | drillCore | furrowRow | furrowCol | harrow | mover | queueProc | bankGroup | way | device | gleaner | balkModule | phase
  | slice | yoke | surveyor | xlate | dispatch
  deriving DecidableEq, Repr

/-- A part: its kind, its half, its number among those in service, and its physical index (R509). -/
structure Part where
  kind : PartKind
  half : Nat
  inst : Nat
  phys : Nat
  deriving DecidableEq, Repr

/-- An error that the hardware detects by itself (R498, R499): parity of an engine's own storage (0 registers, feed or buffers, 1 plane, row
buffer or local memory, 2 L1 lines); a Seedbed word whose parity goes bad, or whose next reading does on its way out of the bank (R264); a memory unit that a read corrects at a symbol, or that can no
longer be corrected; a parity or link retry of an access path, the last of four when it fails; a semaphore corrected or lost; a system
cache line or directory entry corrected or lost; a translation cache or store, a unit of the exchange store, a copy of the plot map, a
queue processor's memory; a host core's L1 or L2 corrected, or a sector of its L2 lost; a Gleaner's buffer; or a part that meets the
condition under which it is put fallow. -/
inductive ErrorIn
  | engine (e : Engine) (store : Nat)
  | sbdWord (h off : Nat)
  | sbdRead (h off : Nat)
  | memCorrected (addr pos : Nat)
  | memLost (addr : Nat)
  | memRetry (d : MemDev) (path : Nat) (failed : Bool)
  | semCorrected (sem : Nat)
  | semLost (sem : Nat)
  | sycCorrected (h n addr way : Nat)
  | sycLost (h n addr way : Nat)
  | dirCorrected (h n : Nat)
  | dirLost (h n : Nat)
  | xltCache (h : Nat)
  | xltStore (h : Nat)
  | srvStore (i unit : Nat)
  | plotCopy (h : Nat)
  | qpSram (h n : Nat)
  | hostL1 (hart : Nat)
  | hostL2 (hart : Nat)
  | hostSector (hart sec : Nat)
  | gleaner (h n : Nat)
  | part (pt : Part)
  deriving DecidableEq, Repr
/-- What a host core asks of a home slice (R389 to R397): a load that gains a shared copy, a load or a store that gains an
exclusive one (R391, R393), the store of bytes into a copy held, the eviction or the cleaning or flushing of a copy, LR and
SC on a copy held exclusive (R396), an AMO of the home slice, a non-cacheable load or store, or an access outside every
range (R389). -/
inductive HostKind
  | load | own | store | evict | clean | flush | inval | zero | lr | sc | amo | ncLoad | ncStore
  deriving DecidableEq, Repr

/-- A host core's request (R391): the hart, the address, the size in bytes, the data of a store, and for an AMO its operation
(0 ADD, 1 MIN, 2 MAX, 3 AND, 4 OR, 5 XOR, 6 CMPXCHG, 7 SWAP, 8 MINU, 9 MAXU), operand and compare value. -/
structure HostReq where
  hart : Nat
  kind : HostKind
  addr : Nat
  size : Nat
  data : List Byte
  aop : Nat
  operand : Nat
  compare : Nat
  deriving DecidableEq, Repr

/-- A host core's request to a PCI Express window or ECAM range (R417): a load, or a store of bytes. -/
structure OutReq where
  hart : Nat
  addr : Nat
  size : Nat
  wr : Option (List Byte)
  deriving DecidableEq, Repr
/-- An error of the Balk link (R509, R510): a lane repaired, a frame replayed, a module that has failed, a unit that crossed
poisoned, or an error of the coherence class that cannot be corrected. -/
inductive BalkErr
  | lane | frame | linkModule | poison | coherence
  deriving DecidableEq, Repr
/-- A command of the block. -/
inductive Instr
  /-- QPR_DOORBELL (R36): A 64-bit doorbell write to a queue page is handled by queue state, SEQ and TAIL: ignored, counted as stale, refused as an overrun, or accepted. -/
  | qprDoorbell (p : Path) (q size : Nat) (v : Nat)
  /-- QPR_CQ_CONSUMED (R45): Software writes CQ_CONSUMED, which frees completion-ring slots so that fetching can resume. -/
  | qprCqConsumed (p : Path) (q size v : Nat)
  /-- QPR_EQ_CONSUMED (R48): Software writes EQ_CONSUMED, which frees event-ring slots; a held gap marker is written into the first slot freed. -/
  | qprEqConsumed (p : Path) (q size v : Nat)
  /-- COMMAND_FETCH (R37): The queue front end fetches a command, reserves its completion slot, checks the header and the SEQ window, and accepts, suppresses or rejects the command. -/
  | commandFetch (q : Nat)
  /-- COMMAND_ISSUE (R50): A command whose scoreboard, fence, CHAIN, PRE_WAIT, fault and slot conditions have all cleared issues to an engine instance. -/
  | commandIssue (k : Carrier) (seq : Nat)
  /-- COMMAND_RETIRE (R43): An engine finishes a command; its completion record is written, its scoreboard entries are released, and any chained, duplicate, drain or pre-empt completions that wait on it follow. -/
  | commandRetire (k : Carrier) (seq : Nat)
  /-- PRIORITY_RAISE (R53): A command that has been ready for 10 ms without issuing is raised to priority 3. -/
  | priorityRaise (q seq : Nat)
  /-- GEMM (R123): The Furrow computes a tiled, output-stationary matrix product and drains it into C or into an epilogue chain. -/
  | gemm (q seq : Nat)
  /-- GEMM_SPLIT (R151): The Furrow builds an F64 or F32 product from INT8 or BF16 passes in scan, split, pass and recombination phases. -/
  | gemmSplit (q seq : Nat)
  /-- ATTN (R167): The module computes scaled dot-product attention on the array path or on the decode path. -/
  | attn (q seq : Nat)
  /-- CHAIN (R193): A Harrow runs the configured stage chain over the command's iteration steps. -/
  | chain (q seq : Nat)
  /-- LAUNCH (R225): The Drill engine copies the argument block and starts placing the blocks of a kernel on cores. -/
  | launch (q seq : Nat)
  /-- BLOCK_START (R225): A waiting block of a launch is placed on a core once the core has room, and its registers and local memory are cleared. -/
  | blockStart (q seq block core : Nat)
  /-- DMA_COPY (R103): A DMA mover copies SRC to DST tile by tile, converting formats on the way. -/
  | dmaCopy (q seq : Nat)
  /-- DMA_FILL (R103): A DMA mover writes PATTERN into every element of DST without conversion. -/
  | dmaFill (q seq : Nat)
  /-- DMA_GATHER (R573): A DMA mover writes DST row r from SRC row IDX[r]. -/
  | dmaGather (q seq : Nat)
  /-- DMA_SCATTER (R573): A DMA mover writes SRC row r to DST row IDX[r]. -/
  | dmaScatter (q seq : Nat)
  /-- DMA_ATOMIC (R406): A DMA mover applies an atomic operation, or an element-wise atomic reduction, in the system cache that holds the target. -/
  | dmaAtomic (q seq : Nat)
  /-- SCORE (R295): The Gleaners score REGION rows against broadcast query rows. -/
  | score (q seq : Nat)
  /-- VALUE_ACC (R295): The Gleaners form weighted sums of REGION rows. -/
  | valueAcc (q seq : Nat)
  /-- GLEANER_GATHER (R298): The Gleaners gather REGION rows named by AUX into OUT. -/
  | gleanerGather (q seq : Nat)
  /-- GLEANER_SCATTER (R298): The Gleaners scatter IN rows into the REGION rows named by AUX. -/
  | gleanerScatter (q seq : Nat)
  /-- BLOCK_REDUCE (R296): The Gleaners reduce blocks of COUNT elements by sum, max or min. -/
  | blockReduce (q seq : Nat)
  /-- TOPK (R297): The Gleaners write the k greatest elements of each row, with their indices. -/
  | topk (q seq : Nat)
  /-- UPDATE (R299): The Gleaners apply the element-wise state update that KIND selects. -/
  | update (q seq : Nat)
  /-- GLEANER_FILL (R300): The Gleaners write IN's bit pattern into every element of REGION. -/
  | gleanerFill (q seq : Nat)
  /-- GLEANER_COPY (R300): The Gleaners copy REGION to OUT, converting formats. -/
  | gleanerCopy (q seq : Nat)
  /-- CHECKSUM (R300): The Gleaners write the CRC-32C of each REGION row. -/
  | checksum (q seq : Nat)
  /-- SCRUB (R300): The Gleaners read every unit of REGION through the symbol code and write corrections back. -/
  | scrub (q seq : Nat)
  /-- ADD (R365): The Yoke adds VALUE to a semaphore, saturating. -/
  | add (q seq : Nat)
  /-- SUB (R365): The Yoke subtracts VALUE from a semaphore, saturating at 0. -/
  | sub (q seq : Nat)
  /-- SET (R367): The Yoke sets a semaphore to VALUE. -/
  | setSem (q seq : Nat)
  /-- CSET (R367): The Yoke sets a semaphore to VALUE if it equals COMPARE. -/
  | cset (q seq : Nat)
  /-- WAIT (R368): The Yoke registers a watch with no message, which completes the command once the semaphore reaches VALUE. -/
  | wait (q seq : Nat)
  /-- WATCH (R370): The Yoke registers a watch that sends a message to a queue, Drill block, interrupt vector or module. -/
  | watch (q seq : Nat)
  /-- CLAIM (R367): The command's context becomes owner of a semaphore, with the value and flags given. -/
  | claim (q seq : Nat)
  /-- RELEASE (R375): Ownership of a semaphore ends, and every watch on it completes as owner lost. -/
  | release (q seq : Nat)
  /-- YOKE_MESSAGE_DELIVER (R372): A watch message arrives at its target queue, Drill block, interrupt vector or module. -/
  | yokeMessageDeliver (n : Nat)
  /-- BAR_DEFINE (R378): Sets the mask, flags and parent of a barrier object. -/
  | barDefine (q seq : Nat)
  /-- BAR_ENTER (R379): Enters a barrier slot, counted for the current generation, for the next one, or held. -/
  | barEnter (q seq : Nat)
  /-- BAR_RETIRE (R378): Frees a barrier object. -/
  | barRetire (q seq : Nat)
  /-- REMOTE_YOKE_OPERATION (R383): A Yoke operation arriving from another module is checked against FABRIC and the permissions, then executed. -/
  | remoteYokeOperation (o : YokeFrame)
  /-- ALLREDUCE (R462): The group reduces all members' SRC element-wise into every member's DST. -/
  | allreduce (q seq : Nat)
  /-- REDUCE_SCATTER (R462): The group reduces SRC, and member i receives chunk i of the result. -/
  | reduceScatter (q seq : Nat)
  /-- ALLGATHER (R462): The group gathers every member's SRC into each member's DST. -/
  | allgather (q seq : Nat)
  /-- BROADCAST (R462): ROOT's SRC is copied to every member's DST. -/
  | broadcast (q seq : Nat)
  /-- ALLTOALL (R462): The members exchange chunks so that member i receives chunk i of every member. -/
  | alltoall (q seq : Nat)
  /-- COLLECTIVE_MESSAGE (R464): A collective message or READY mark arrives at a member; a member holding every mark commits its staging area. -/
  | collectiveMessage (m : CollMsg)
  /-- WIN_OPEN (R454): Opens a window on a region for remote access by a range of ranks. -/
  | winOpen (q seq : Nat)
  /-- WIN_CLOSE (R454): Closes a window once every remote access already accepted to it has retired. -/
  | winClose (q seq : Nat)
  /-- REMOTE_ACCESS_ARRIVAL (R455): An incoming remote read, write or atomic is checked in order and applied at the target. -/
  | remoteAccessArrival (a : RemoteAccess)
  /-- TRANSACTION_REPLY (R457): The reply to a remote transaction reaches its origin and is recorded against the carrying command. -/
  | transactionReply (t : Reply)
  /-- UNREACHABLE_REPLY (R448): An unreachable reply reaches the origin, and the transaction completes as a lost peer. -/
  | unreachableReply (txn : Nat)
  /-- E2E_TIMEOUT (R459): A transaction with no reply within TIMEOUT_US is sent again, or fails after its last resend. -/
  | e2eTimeout (txn : Nat)
  /-- HINT (R323): Sets or clears the placement flags of the frames of a range. -/
  | hint (q seq : Nat)
  /-- PIN (R325): Pins the frames of a range to a region, up to the region's limit, reporting any shortfall. -/
  | pin (q seq : Nat)
  /-- UNPIN (R324): Removes the pins of the frames of a range. -/
  | unpin (q seq : Nat)
  /-- NOP (R73): A queue-control no-operation that retires at once. -/
  | nop (k : Carrier) (seq : Nat)
  /-- Q_ENABLE (R75): Enables a queue, fresh from its descriptors or resuming one in ERROR. -/
  | qEnable (k : Carrier) (seq : Nat)
  /-- Q_DISABLE (R57): Disables a queue in mode STOP or DRAIN. -/
  | qDisable (k : Carrier) (seq : Nat)
  /-- ABORT_SEQ (R55): Races the abort of one command against its retirement at the completion unit. -/
  | abortSeq (k : Carrier) (seq : Nat)
  /-- ABORT_QUEUE (R56): Aborts every accepted, unretired command of a queue, each racing on its own. -/
  | abortQueue (k : Carrier) (seq : Nat)
  /-- CTX_PREEMPT (R27): Stops issue from all of a context's queues, and completes when the commands in execution have retired. -/
  | ctxPreempt (k : Carrier) (seq : Nat)
  /-- CTX_RESUME (R27): Re-reads a pre-empted context's descriptor and restarts issue. -/
  | ctxResume (k : Carrier) (seq : Nat)
  /-- CTX_RESET (R28): Halts and aborts a context's commands, completes its watches as owner lost, closes its windows and disables its queues. -/
  | ctxReset (k : Carrier) (seq : Nat)
  /-- XLT_INVALIDATE (R359): Drops cached translations of a range and completes when the walks and commands that used them have ended. -/
  | xltInvalidate (k : Carrier) (seq : Nat)
  /-- IDENTIFY (R545): Returns the 256-byte identity reply. -/
  | identify (k : Carrier) (seq : Nat)
  /-- REG_READ (R544): Reads up to 64 register words by offset. -/
  | regRead (k : Carrier) (seq : Nat)
  /-- REG_WRITE (R544): Writes up to 64 register words by offset, in ascending order. -/
  | regWrite (k : Carrier) (seq : Nat)
  /-- TELEMETRY_READ (R479): Returns samples from a power, thermal or governor telemetry ring. -/
  | telemetryRead (k : Carrier) (seq : Nat)
  /-- LIMIT_SET (R491): Writes the governor's shadow registers for limit, ramp, floor and clock mode. -/
  | limitSet (k : Carrier) (seq : Nat)
  /-- SELFTEST_SLICE (R524): Moves the work of one slice aside and tests the slice under load. -/
  | selftestSlice (k : Carrier) (seq : Nat)
  /-- SLICE_TEST_END (R524): A slice test finishes; the slice returns to service or is put fallow, and the reply is written. -/
  | sliceTestEnd (o : SliceOutcome)
  /-- SELFTEST_FULL (R530): On a quiescent module, replies and then takes a module reset into the full start-up tests. -/
  | selftestFull (k : Carrier) (seq : Nat)
  /-- FW_STAGE (R533): Writes an image into a firmware slot and verifies it. -/
  | fwStage (k : Carrier) (seq : Nat)
  /-- FW_ACTIVATE (R513): Hands a firmware unit over to the image in the named slot. -/
  | fwActivate (k : Carrier) (seq : Nat)
  /-- FW_ACTIVATION_FAIL (R514): A unit that has not started on its new image within 1 s returns to its previous image. -/
  | fwActivationFail
  /-- RESET_FUNCTION (R505): Resets the host complex, an engine instance, an Aihal port or a PCI Express port, as SCOPE selects. -/
  | resetFunction (k : Carrier) (seq : Nat)
  /-- STILE_SET (R436): Orders the Stile to bypass, or returns it to automatic. -/
  | stileSet (k : Carrier) (seq : Nat)
  /-- EVENT_LOG_READ (R504): Returns records from the event log. -/
  | eventLogRead (k : Carrier) (seq : Nat)
  /-- IADD (R221): Drill integer add. -/
  | iadd (g : Grp)
  /-- ISUB (R221): Drill integer subtract. -/
  | isub (g : Grp)
  /-- IMUL (R221): Drill integer multiply, low half. -/
  | imul (g : Grp)
  /-- IMULHI (R221): Drill integer multiply, high half. -/
  | imulhi (g : Grp)
  /-- IDIV (R221): Drill integer divide. -/
  | idiv (g : Grp)
  /-- IREM (R221): Drill integer remainder. -/
  | irem (g : Grp)
  /-- AND (R221): Drill bitwise and. -/
  | iand (g : Grp)
  /-- OR (R221): Drill bitwise or. -/
  | ior (g : Grp)
  /-- XOR (R221): Drill bitwise xor. -/
  | ixor (g : Grp)
  /-- SHL (R221): Drill shift left. -/
  | shl (g : Grp)
  /-- SHR (R221): Drill shift right, logical or arithmetic. -/
  | shr (g : Grp)
  /-- IMIN (R221): Drill integer minimum. -/
  | imin (g : Grp)
  /-- IMAX (R221): Drill integer maximum. -/
  | imax (g : Grp)
  /-- ICMP (R221): Drill integer compare into a predicate. -/
  | icmp (g : Grp)
  /-- SEL (R221): Drill select by predicate. -/
  | sel (g : Grp)
  /-- FADD (R221): Drill F32 add. -/
  | fadd (g : Grp)
  /-- FSUB (R221): Drill F32 subtract. -/
  | fsub (g : Grp)
  /-- FMUL (R221): Drill F32 multiply. -/
  | fmul (g : Grp)
  /-- FFMA (R221): Drill F32 fused multiply-add. -/
  | ffma (g : Grp)
  /-- FMIN (R221): Drill F32 minimum. -/
  | fmin (g : Grp)
  /-- FMAX (R221): Drill F32 maximum. -/
  | fmax (g : Grp)
  /-- FCMP (R221): Drill F32 compare into a predicate. -/
  | fcmp (g : Grp)
  /-- DADD (R221): Drill F64 add. -/
  | dadd (g : Grp)
  /-- DSUB (R221): Drill F64 subtract. -/
  | dsub (g : Grp)
  /-- DMUL (R221): Drill F64 multiply. -/
  | dmul (g : Grp)
  /-- DFMA (R221): Drill F64 fused multiply-add. -/
  | dfma (g : Grp)
  /-- DMIN (R221): Drill F64 minimum. -/
  | dmin (g : Grp)
  /-- DMAX (R221): Drill F64 maximum. -/
  | dmax (g : Grp)
  /-- DCMP (R221): Drill F64 compare into a predicate. -/
  | dcmp (g : Grp)
  /-- SFU (R221): Drill special function with the bits of the Harrow function. -/
  | sfu (g : Grp)
  /-- CVT (R221): Drill conversion between register formats. -/
  | cvt (g : Grp)
  /-- MOV (R221): Drill register move. -/
  | mov (g : Grp)
  /-- MOVI (R221): Drill move of an immediate. -/
  | movi (g : Grp)
  /-- MOVHI (R221): Drill move of an immediate into the high half. -/
  | movhi (g : Grp)
  /-- S2R (R221): Drill read of a special register. -/
  | s2r (g : Grp)
  /-- LD (R234): Drill load from a memory space, with conversion. -/
  | ld (g : Grp)
  /-- ST (R234): Drill store to a memory space, with conversion. -/
  | st (g : Grp)
  /-- ATOM (R239): Drill atomic on VIRT memory, executed in the system cache. -/
  | atom (g : Grp)
  /-- BAR (R238): Drill block or cluster barrier. -/
  | barSync (g : Grp)
  /-- FENCE (R238): Drill block, cluster or device fence. -/
  | fence (g : Grp)
  /-- WAIT_MSG (R372): Suspends a thread group until a watch message reaches its block, or returns at once on a set latch. -/
  | waitMsg (g : Grp)
  /-- BRA (R221): Drill branch. -/
  | bra (g : Grp)
  /-- CALL (R221): Drill call. -/
  | call (g : Grp)
  /-- RET (R221): Drill return. -/
  | ret (g : Grp)
  /-- EXIT (R218): A Drill lane exits; a block whose lanes have all exited frees its core resources. -/
  | exit (g : Grp)
  /-- ILLEGAL_INSTRUCTION (R222): An active lane reaches an illegal instruction, and the launch ends with MALFORMED. -/
  | illegalInstruction (g : Grp)
  /-- MOD_CFG_COMMIT (R59): A write commits all shadow registers under a new epoch, or is refused. -/
  | modCfgCommit (p : Path) (v : Nat)
  /-- ENGINE_ADOPT_EPOCH (R60): An engine at a command boundary adopts the current configuration, and PENDING falls. -/
  | engineAdoptEpoch (e : Engine)
  /-- FAULT_RETRY (R352): A MOD_FAULT_RESP write with ACTION RETRY makes every waiter walk again and replay its access. -/
  | faultRetry (p : Path) (id : Nat)
  /-- FAULT_DECLINE (R353): A MOD_FAULT_RESP write with ACTION DECLINE ends every waiting command under its engine's rule. -/
  | faultDecline (p : Path) (id : Nat)
  /-- MOD_FR_CONSUMED (R351): Software writes FR_CONSUMED, which frees fault-ring slots for pending entries. -/
  | modFrConsumed (p : Path) (v : Nat)
  /-- FAULT_RING_WRITE (R351): A pending fault is written to the fault ring when a slot is free, with an optional interrupt. -/
  | faultRingWrite (id : Nat)
  /-- FAULT_TIMEOUT (R354): A command held on a fault beyond its context's fault timeout ends with TIMEOUT. -/
  | faultTimeout (k : Carrier) (seq : Nat)
  /-- QCTL_ENABLE (R549): MOD_QCTL_CMD OP 1 enables a queue, mode FRESH, through the register path. -/
  | qctlEnable (p : Path) (q : Nat)
  /-- QCTL_DISABLE_STOP (R549): MOD_QCTL_CMD OP 2 disables a queue in mode STOP. -/
  | qctlDisableStop (p : Path) (q : Nat)
  /-- QCTL_DISABLE_DRAIN (R549): MOD_QCTL_CMD OP 3 disables a queue in mode DRAIN. -/
  | qctlDisableDrain (p : Path) (q : Nat)
  /-- REGISTER_WRITE (R540): A write to a register with no row of its own updates the fields its access codes allow, or is ignored and logged, or is rejected. -/
  | registerWrite (p : Path) (off size v : Nat)
  /-- PCX_FLUSH (R426): A read of PCX_FLUSH completes only once earlier posted writes on the port are visible. -/
  | pcxFlush (p : Path) (port : Nat)
  /-- PCX_RETRAIN (R433): A write of PCX_CTL.RETRAIN retrains a PCI Express link without a reset. -/
  | pcxRetrain (p : Path) (port : Nat)
  /-- AIH_PORT_RETRAIN (R471): A write of AIH_PORT_CTL.RETRAIN retrains an Aihal port and leaves FAILED. -/
  | aihPortRetrain (p : Path) (port : Nat)
  /-- AIH_TIME_SET (R466): A write sets a time root's fabric time. -/
  | aihTimeSet (p : Path) (v : Nat)
  /-- WAKE_REQ (R490): A write of PWR_CTL.WAKE_REQ acts as a wake. -/
  | wakeReq (p : Path)
  /-- MGT_ALERT_CLEAR (R502): Writing 1 to MGT_ALERT.PENDING deasserts ALERT_N, except under severity 4. -/
  | mgtAlertClear (p : Path)
  /-- MGT_HOST_RELEASE (R536): A write releases a host complex held in reset by STRAP_HOST_HOLD. -/
  | mgtHostRelease (p : Path)
  /-- IMAGE_WINDOW_WRITE (R534): A 32-bit write to the image window stores into the selected firmware slot. -/
  | imageWindowWrite (p : Path) (w v : Nat)
  /-- OPTICS_FAULT_CLEAR (R496): Clearing a port's FAULT bit re-arms its load-switch retries, retrying at once if ON is set. -/
  | opticsFaultClear (p : Path) (port : Nat)
  /-- MAILBOX_SUBMIT (R419): Writing 1 to mailbox offset 0x1000 submits the management command held there. -/
  | mailboxSubmit (port : Nat)
  /-- SMBUS_REQUEST (R86): An SMBus Block Write with code 0xC0 delivers one management command. -/
  | smbusRequest (pec : Bool) (bytes : List Byte)
  /-- SMBUS_REPLY_READ (R86): An SMBus Block Read with code 0xC1 returns the next part of the reply. -/
  | smbusReplyRead
  /-- MGT_DATAGRAM (R87): A UDP datagram on port 50510 is checked and its management command is carried out, with one reply datagram. -/
  | mgtDatagram (d : Datagram)
  /-- ARP_REQUEST (R555): An ARP or neighbour solicitation for the module's own address is answered. -/
  | arpRequest (r : ArpReq)
  /-- PCX_INBOUND_WRITE (R421): An inbound posted write is matched to a window and applied, or fails and is reported to the window's context. -/
  | pcxInboundWrite (r : InboundReq)
  /-- PCX_INBOUND_READ (R422): An inbound read is carried out once earlier posted writes from the requester are visible. -/
  | pcxInboundRead (r : InboundReq)
  /-- PCX_INBOUND_ATOMIC (R420): An inbound AtomicOp is executed at the target's home slice. -/
  | pcxInboundAtomic (r : InboundReq)
  /-- PCX_MSI_RECEIVE (R424): A root port receives an MSI write and raises the host interrupt vector once earlier writes are visible. -/
  | pcxMsiReceive (port req addr data : Nat)
  /-- PCX_FLR_FUNCTION0 (R429): A function-level reset of function 0 resets the owned contexts, windows and MSI-X state. -/
  | pcxFlrFunction0 (port : Nat)
  /-- PCX_FLR_FUNCTION1 (R430): A function-level reset of function 1 clears the mailbox. -/
  | pcxFlrFunction1 (port : Nat)
  /-- PCX_ENDPOINT_RESET (R430): A hot reset, link down or PERST from the server resets both endpoint functions. -/
  | pcxEndpointReset (port : Nat)
  /-- PCX_LINK_DOWN (R433): A PCI Express link goes down other than by a port reset. -/
  | pcxLinkDown (port : Nat)
  /-- PCX_COMPLETION_TIMEOUT (R417): An outbound host-core request with no completion within 50 ms ends with an access fault. -/
  | pcxCompletionTimeout (port tag : Nat)
  /-- LINK_LOSS_OF_SIGNAL (R439): An Aihal port loses light or FEC lock and returns to TRAINING. -/
  | linkLossOfSignal (p : Nat)
  /-- LINK_FEC_LOCK (R439): An Aihal port gains FEC lock and alignment and enters CONCORD. -/
  | linkFecLock (p : Nat)
  /-- CONCORD_SEND (R440): Each end sends its concord record every 1 ms, and whenever a field of its own record changes. -/
  | concordSend (p : Nat)
  /-- CONCORD_RECEIVE (R441): A received concord record is compared, moving the link to UP or QUARANTINE. -/
  | concordReceive (p : Nat) (r : Concord)
  /-- FRAME_RECEIVE (R443): A link frame is checked and accepted, discarded or negatively acknowledged, then delivered or routed onward. -/
  | frameReceive (p : Nat) (f : LinkFrame)
  /-- ACK_RECEIVE (R443): A cumulative acknowledgement frees frames from the replay buffer. -/
  | ackReceive (p n : Nat)
  /-- NAK_RECEIVE (R443): A negative acknowledgement makes the sender replay from the named frame. -/
  | nakReceive (p n : Nat)
  /-- ACK_TIMER (R443): The receiver sends an acknowledgement at least every 64 frames or every 0.5 µs. -/
  | ackTimer (p : Nat)
  /-- REPLAY_TIMEOUT (R443): With no acknowledgement within 2 µs, the sender replays from the oldest unacknowledged frame. -/
  | replayTimeout (p : Nat)
  /-- LINK_RETRAIN (R444): After 16 consecutive replays with no frame acknowledged, the link retrains. -/
  | linkRetrain (p : Nat)
  /-- LINK_FAILED (R445): A link that fails three retrains within 1 s enters FAILED and drops its replay buffer. -/
  | linkFailed (p : Nat)
  /-- TIME_EXCHANGE (R466): A two-way time exchange with the neighbour nearest a root, every 100 µs, slews or steps fabric time. -/
  | timeExchange (x : TimeXchg)
  /-- TIME_UNSURE_TIMEOUT (R468): 10 ms without a successful exchange, or after a step, marks timestamps time-unsure. -/
  | timeUnsureTimeout
  /-- STILE_CHANGE (R437): The Stile completes its change between JOINED and THROUGH, dropping both ring links. -/
  | stileChange
  /-- BYPASS_REQ (R436): BYPASS_REQ_N asserted joins the Stile. -/
  | bypassReq
  /-- MODULE_WITHDRAWN (R437): The presence contact opens and the stored-energy cell drives the Stile to JOINED. -/
  | moduleWithdrawn
  /-- GOVERNOR_TICK (R487): Every 20 µs the governor measures P, adjusts grant and ballast, and admits waiting starts. -/
  | governorTick (m : PowerMeas)
  /-- JUNCTION_SENSE_TICK (R493): Junction sensors are read every 20 µs, and thermal caps are applied or released. -/
  | junctionSenseTick (east west : Nat)
  /-- THERMAL_TRIP (R494): A hardware comparator fires, rails 9 to 3 come down and THERMTRIP_N is asserted. -/
  | thermalTrip (sensor reading : Nat)
  /-- MEMORY_TEMP_POLL (R286): Memory temperature is polled every 1 ms, and refresh and throttles are set. -/
  | memoryTempPoll (d : MemDev) (temp : Nat)
  /-- TELEMETRY_SAMPLE (R479): A 1 ms power and thermal sample is written to the telemetry rings. -/
  | telemetrySample (t : ThermMeas)
  /-- ASLEEP (R490): No command or ballast for WAKE_IDLE ms puts the module asleep. -/
  | asleep
  /-- WAKE_N_FALL (R490): A falling edge of WAKE_N is a wake and starts the stagger. -/
  | wakeNFall
  /-- STAGGER_END (R490): The stagger delay ends and admission proceeds. -/
  | staggerEnd
  /-- GRID_HINT_RISE (R489): GRID_HINT high permits shedding and releases the floor. -/
  | gridHintRise
  /-- OPTICS_SWITCH_LIMIT (R495): An optics load switch reaches its current limit, turns off and latches a fault. -/
  | opticsSwitchLimit (port : Nat)
  /-- OPTICS_RETRY (R496): A latched switch retries after RETRY_MS, up to 3 times. -/
  | opticsRetry (port : Nat) (ok : Bool)
  /-- ENGINE_CLOCK_START (R476): A stopped or gated engine's clock or power has come up after its start time. -/
  | engineClockStart (e : Engine)
  /-- FURROW_IDLE_STOP (R136): A Furrow idle for IDLE_STOP microseconds stops its clock. -/
  | furrowIdleStop (h : Nat)
  /-- HARROW_IDLE_GATE (R210): A Harrow idle for IDLE_GATE microseconds is power-gated. -/
  | harrowIdleGate (h n : Nat)
  /-- DRILL_IDLE_GATE (R244): A Drill core idle for IDLE_GATE microseconds is power-gated. -/
  | drillIdleGate (h n : Nat)
  /-- GLEANER_IDLE_GATE (R313): A stack's Gleaners idle for IDLE_GATE microseconds are power-gated. -/
  | gleanerIdleGate (h n : Nat)
  /-- HOST_CORE_GATE_IDLE (R476): A host core in WFI for GATE_IDLE writes back its dirty lines and gates its caches. -/
  | hostCoreGateIdle (hart : Nat)
  /-- MEMORY_POWER_DOWN (R285): An access path idle for PD_IDLE enters power-down. -/
  | memoryPowerDown (d : MemDev) (path : Nat)
  /-- MEMORY_SELF_REFRESH (R285): A device idle for SR_IDLE enters self-refresh. -/
  | memorySelfRefresh (d : MemDev)
  /-- PATROL_SCRUB_READ (R280): The patrol reads a unit and handles it as corrected, uncorrectable or clean. -/
  | patrolScrubRead (d : MemDev) (slot unit : Nat) (r : ScrubRead)
  /-- STREAM_TIMEOUT (R405): A streaming-detector stream ends after 1 µs without a write. -/
  | streamTimeout (h slice stream : Nat)
  /-- SURVEY_PERIOD_END (R322): At the end of a survey period Surveyor plans migrations and halves every heat count. -/
  | surveyPeriodEnd (fills : List Fill)
  /-- MIGRATION_START (R331): A planned migration starts once every device it touches holds enough credit. -/
  | migrationStart (n : Nat)
  /-- MIGRATION_COPY_PASS (R328): A copy pass ends; the dirty units are recopied, the window opens, or the migration is abandoned. -/
  | migrationCopyPass (n dirtyA dirtyB : Nat)
  /-- MIGRATION_WINDOW (R329): The migration window holds accesses, moves the frames, updates the plot map and releases the held accesses. -/
  | migrationWindow (n ns held : Nat)
  /-- SEEDBED_GROUP_MOVE_END (R266): A bank group's move onto the spare ends, and the old group becomes fallow. -/
  | seedbedGroupMoveEnd (h : Nat)
  /-- RETRAINING_END (R522): The device leaves self-refresh, offload clears and parked lines are written back. -/
  | retrainingEnd (d : MemDev)
  /-- COHERENCE_TIMEOUT (R400): A snoop or recall with no answer within 20 µs brings the host complex down. -/
  | coherenceTimeout (hart : Nat)
  /-- HOST_COMPLEX_RESET_END (R402): After 1 ms in reset, the host cores start at HST_CPLX_BOOT. -/
  | hostComplexResetEnd
  /-- ERROR_REPORT (R499): A W1C error bit set in any block is reported to the lead controller and logged. -/
  | errorReport (e : ErrorIn)
  /-- SPARE_IN_SERVICE (R510): A spare takes the place of a failed part once the part has drained. -/
  | spareInService (pt : Part)
  /-- MC_WATCHDOG_EXPIRY (R508): A controller's watchdog expires and the controller resets. -/
  | mcWatchdogExpiry (h : Nat)
  /-- MC_RESTART_DONE (R508): A restarted controller comes up, as follower or as lead claiming the outputs. -/
  | mcRestartDone (h : Nat)
  /-- OUTPUTS_SAFE_DEFAULTS (R508): Outputs unclaimed for 2 s take their safe defaults. -/
  | outputsSafeDefaults
  /-- MC_BOOT_FALLBACK (R535): A controller image that fails to start within 1 s is replaced by the other verified slot. -/
  | mcBootFallback (h : Nat)
  /-- STANDBY_APPLIED (R474): Standby arrives, the hedgerow rail comes up and the controllers boot. -/
  | standbyApplied
  /-- STANDBY_LOST (R559): Standby is lost with rails up; the rails come down and a module reset follows. -/
  | standbyLost (mv : Nat)
  /-- MAIN_INPUT_FAULT (R559): 50 V leaves its limits for more than 100 µs in service, and the rails come down. -/
  | mainInputFault (mv : Nat)
  /-- PWR_EN_RISE (R559): A rising edge of PWR_EN starts the rails, or is refused. -/
  | pwrEnRise (mv : Nat)
  /-- RAIL_STEP_GOOD (R472): Every rail of a step has been within 3 % for 0.5 ms, and the next step starts. -/
  | railStepGood
  /-- SEQUENCE_FAULT (R472): A rail that is not good 5 ms after it starts brings the rails down. -/
  | sequenceFault (rail mv : Nat)
  /-- RAIL_FAULT (R473): A rail in service leaves ±5 % or a regulator reports over-current, and the rails come down. -/
  | railFault (rail mv : Nat)
  /-- MOD_RESET_ASSERT (R562): MOD_RESET_N low holds a module reset with the rails kept up. -/
  | modResetAssert
  /-- MOD_RESET_RELEASE (R516): MOD_RESET_N rising latches the straps and runs start-up from FUSES. -/
  | modResetRelease (straps : Nat)
  /-- FUSES_DONE (R517): Fuses and the non-volatile lists are applied, images are loaded and clocks lock. -/
  | fusesDone
  /-- LOGIC_BIST_DONE (R517): Logic self-test ends, and failed parts are put fallow. -/
  | logicBistDone (failed : List Part)
  /-- SRAM_BIST_DONE (R517): March test of SRAMs ends, and the Seedbed is cleared. -/
  | sramBistDone (failed : List Part)
  /-- DEVICE_TRAINED (R517): A memory device finishes training and starts its fill. -/
  | deviceTrained (d : MemDev)
  /-- DEVICE_FILLED (R517): A memory device finishes its zero fill. -/
  | deviceFilled (d : MemDev)
  /-- HOST_CORE_MEMORY_REQUEST (R395): A host-core load, store, AMO, cache-block operation or write-back of frame space is served at its home slice, with snoops, directory updates and fills. -/
  | hostCoreMemoryRequest (r : HostReq)
  /-- SEEDBED_WINDOW_ACCESS (R267): A host-core load or store to a Seedbed window is served at the physical offset, or faults. -/
  | seedbedWindowAccess (hart : Nat) (off size : Nat) (wr : Option Nat)
  /-- PCX_OUTBOUND_REQUEST (R417): A host-core load, store or ECAM configuration request is sent out on a PCI Express port. -/
  | pcxOutboundRequest (r : OutReq)
  /-- PCX_OUTBOUND_COMPLETION (R417): A completion for an outbound host-core request arrives, returning data or ending the request with an access fault on UR or CA. -/
  | pcxOutboundCompletion (port tag status : Nat) (data : List Byte)
  /-- PCX_CONFIG_REQUEST (R418): An inbound configuration request to an endpoint function is served, or answered with Request Retry Status before READY or during a reset. -/
  | pcxConfigRequest (port fn off : Nat) (wr : Option Nat)
  /-- PCX_LINK_UP (R431): A PCI Express link finishes training and comes up, which completes a pending port reset. -/
  | pcxLinkUp (port speed width : Nat)
  /-- PCX_ERROR_MESSAGE (R433): A root port receives an error message from below and sets AER_MSG. -/
  | pcxErrorMessage (port : Nat)
  /-- LINK_SIGNAL_DETECT (R439): Light arrives at an enabled Aihal port, and the link enters TRAINING. -/
  | linkSignalDetect (p : Nat)
  /-- BALK_LINK_ERROR (R509): A lane or frame error on the Balk link is replayed, lane-repaired or answered by mapping in a spare module; an unrecoverable coherence-class error brings the host complex down. -/
  | balkLinkError (h : Nat) (k : BalkErr)
  /-- GRID_HINT_FALL (R489): GRID_HINT goes low, and shedding is no longer permitted. -/
  | gridHintFall
  /-- WAKE_N_RISE (R562): WAKE_N is deasserted, and PWR_STATUS.WAKE returns to 0. -/
  | wakeNRise
  /-- BYPASS_REQ_RELEASE (R436): BYPASS_REQ_N is deasserted, and the Stile returns to THROUGH unless another condition of R436 holds. -/
  | bypassReqRelease
  /-- RAIL_STEP_DOWN (R473): Every rail of a step has fallen below 10 % of its set-point, and the next step down starts or the rails are off. -/
  | railStepDown
  /-- STANDBY_GOOD_FOR_10_MS (R559): Standby has been good for 10 ms; a PWR_EN already high at that moment is refused and logged. -/
  | standbyGoodFor10Ms (mv : Nat)
  /-- MANAGEMENT_CONTROLLER_BOOT (R517): A management controller finishes booting its unit 0 image after standby appears, and phase FUSES may start. -/
  | managementControllerBoot (h : Nat)
  /-- MANAGEMENT_CONTROLLER_RESET (R508): A management controller resets on a firmware fault or through JTAG, and the outputs are held. -/
  | managementControllerReset (h cause : Nat)
  /-- PORT_RESET_TIMEOUT (R431): 100 ms after a port reset, the RESET_FUNCTION completes with the link still not up. -/
  | portResetTimeout (aihal : Bool) (port : Nat)
  /-- DIRECTORY_SWEEP_END (R402): The sweep ends, and the lead controller resets the host complex and puts the failed core fallow. -/
  | directorySweepEnd
  /-- HEARTBEAT (R475): The lead sends a heartbeat to the follower every 100 µs. -/
  | heartbeat
  /-- TAKEOVER (R475): A follower that misses five heartbeats becomes lead and resumes the governor. -/
  | takeover
  /-- PWR_EN_FALL (R473): A falling edge of PWR_EN brings the rails down in reverse order. -/
  | pwrEnFall
  deriving DecidableEq, Repr

end Sys2Proof
end

