-- ==== Sys2Proof/Decode.lean ====
section
/-! DEFINITION. Reading a command from a word. The opcode table gives no row of this block any bits: a command is an access,
an event or an engine's work, and no word spells one. -/

namespace Sys2Proof

/-- The command that a word spells: none, for the table gives bits to no row. -/
def decodeTableWord (_nbits _w : Nat) : Option Instr := none

end Sys2Proof
end

