-- ==== Sys2Proof/Machine/Bits.lean ====
section
/-! DEFINITION. Bit fields, little-endian bytes (R1) and the integer helpers that every later file uses. -/

namespace Sys2Proof.Machine

open Sys2Proof

/-- Bits [lo + w - 1 : lo] of x, as a number. -/
def bits (x lo w : Nat) : Nat := x / 2 ^ lo % 2 ^ w

/-- Bit i of x. -/
def bitAt (x i : Nat) : Bool := bits x i 1 == 1

/-- A condition as a bit. -/
def b2n (b : Bool) : Nat := if b then 1 else 0

/-- x with bits [lo + w - 1 : lo] replaced by v. -/
def setBits (x lo w v : Nat) : Nat :=
  x % 2 ^ lo + 2 ^ lo * (v % 2 ^ w) + 2 ^ (lo + w) * (x / 2 ^ (lo + w))

/-- The number that little-endian bytes spell (R1). -/
def leNat : List Byte → Nat
  | [] => 0
  | b :: bs => b.toNat + 256 * leNat bs

/-- The n little-endian bytes of x (R1). -/
def leBytes : Nat → Nat → List Byte
  | 0, _ => []
  | n + 1, x => BitVec.ofNat 8 x :: leBytes n (x / 256)

/-- n bytes of l from offset o, padded with 0. -/
def sliceBytes (l : List Byte) (o n : Nat) : List Byte :=
  let t := (l.drop o).take n
  t ++ List.replicate (n - t.length) 0

/-- The n-byte little-endian number at offset o of l (R1). -/
def leAt (l : List Byte) (o n : Nat) : Nat := leNat (sliceBytes l o n)

/-- l with the bytes of v put at offset o; bytes that fall beyond l are dropped. -/
def putBytes (l : List Byte) (o : Nat) (v : List Byte) : List Byte :=
  (l.take o ++ v ++ l.drop (o + v.length)).take l.length

/-- l with the n-byte little-endian number x put at offset o. -/
def putLe (l : List Byte) (o n x : Nat) : List Byte := putBytes l o (leBytes n x)

/-- n bytes with the given (offset, width, value) fields, every other byte 0. -/
def fields (n : Nat) (fs : List (Nat × Nat × Nat)) : List Byte :=
  fs.foldl (fun l f => putLe l f.1 f.2.1 f.2.2) (List.replicate n 0)

/-- x read as a w-bit two's complement integer. -/
def sext (w x : Nat) : Int :=
  if 2 * (x % 2 ^ w) < 2 ^ w then ((x % 2 ^ w : Nat) : Int) else ((x % 2 ^ w : Nat) : Int) - ((2 ^ w : Nat) : Int)

/-- The w-bit two's complement code of i. -/
def wrapInt (w : Nat) (i : Int) : Nat := (i % ((2 ^ w : Nat) : Int)).toNat

/-- a div b, rounded up. -/
def ceilDiv (a b : Nat) : Nat := (a + b - 1) / b

/-- a div b, rounded to nearest with ties to even (R104). -/
def rneDiv (a b : Nat) : Nat :=
  if a % b * 2 > b || (a % b * 2 == b && a / b % 2 == 1) then a / b + 1 else a / b

/-- x + n, saturating at m. -/
def satAdd (x n m : Nat) : Nat := if x + n > m then m else x + n

/-- x + n in w bits, wrapping. -/
def wrapAdd (w x n : Nat) : Nat := (x + n) % 2 ^ w

/-- a - b in w bits, wrapping. -/
def wrapSub (w a b : Nat) : Nat := (a % 2 ^ w + 2 ^ w - b % 2 ^ w) % 2 ^ w

/-- Serial-number order on 32 bits (below R35): a is newer than b. -/
def seqNewer (a b : Nat) : Bool := wrapSub 32 a b ≥ 1 && wrapSub 32 a b < 2 ^ 31

/-- The i-th element of l, or d. -/
def nth {α : Type} (l : List α) (i : Nat) (d : α) : α := (l[i]?).getD d

/-- l with its i-th element replaced. -/
def setNth {α : Type} : List α → Nat → α → List α
  | [], _, _ => []
  | _ :: l, 0, x => x :: l
  | y :: l, i + 1, x => y :: setNth l i x

/-- Sorted insertion without repeats. -/
def insertNat (x : Nat) : List Nat → List Nat
  | [] => [x]
  | y :: l => if x < y then x :: y :: l else if x = y then y :: l else y :: insertNat x l

/-- The union of l with the numbers of m, sorted and without repeats. -/
def unionNat (l m : List Nat) : List Nat := m.foldl (fun acc x => insertNat x acc) l

/-- The numbers from a on, n of them. -/
def rangeFrom (a n : Nat) : List Nat := (List.range n).map (a + ·)

/-- Sum of a list. -/
def sumNat (l : List Nat) : Nat := l.foldl (· + ·) 0

/-- CRC-8 of the command header (R66): polynomial x^8 + x^2 + x + 1, initial value 0xFF. -/
def crc8Step (crc : Nat) : Nat :=
  if bitAt crc 7 then (crc * 2 % 256) ^^^ 0x07 else crc * 2 % 256

/-- HCHK over the given header bytes (R66). -/
def crc8 (l : List Byte) : Nat :=
  l.foldl (fun crc b =>
    let c := crc ^^^ b.toNat
    crc8Step (crc8Step (crc8Step (crc8Step (crc8Step (crc8Step (crc8Step (crc8Step c)))))))) 0xFF

/-- One bit step of the reflected CRC-32C (polynomial 0x1EDC6F41, R300). -/
def crc32cStep (crc : Nat) : Nat :=
  if crc % 2 = 1 then (crc / 2) ^^^ 0x82F63B78 else crc / 2

/-- CRC-32C of the bytes (R300): reflected, initial value and final inversion 0xFFFF_FFFF. -/
def crc32c (l : List Byte) : Nat :=
  (l.foldl (fun crc b =>
    let c := crc ^^^ b.toNat
    crc32cStep (crc32cStep (crc32cStep (crc32cStep (crc32cStep (crc32cStep (crc32cStep (crc32cStep c))))))))
    0xFFFFFFFF) ^^^ 0xFFFFFFFF

end Sys2Proof.Machine
end

