-- ==== Sys2Proof/Machine/Num.lean ====
section
/-! DEFINITION. The number formats of the module (R90 to R102, R104, R105): the value of a code, the code of a value,
and exact arithmetic on values. A value is exact; only `encodeRat` and `encodeVal` round. -/

namespace Sys2Proof.Machine

open Sys2Proof

/-- The format codes of FMT and SCALE (R71). -/
inductive Fmt
  | f64 | f32 | f16 | bf16 | e5m2 | e4m3 | e3m2 | e2m3 | e2m1 | s4 | int32 | int16 | int8 | int4 | e8m0 | ue4m3
  deriving DecidableEq, Repr

/-- The format of a 4-bit code (R71). -/
def fmtOf : Nat → Fmt
  | 0 => .f64 | 1 => .f32 | 2 => .f16 | 3 => .bf16 | 4 => .e5m2 | 5 => .e4m3 | 6 => .e3m2 | 7 => .e2m3
  | 8 => .e2m1 | 9 => .s4 | 10 => .int32 | 11 => .int16 | 12 => .int8 | 13 => .int4 | 14 => .e8m0 | _ => .ue4m3

/-- Element width in bits (R92, R98, R99). -/
def fmtBits : Fmt → Nat
  | .f64 => 64 | .f32 => 32 | .f16 => 16 | .bf16 => 16 | .e5m2 => 8 | .e4m3 => 8 | .e3m2 => 6 | .e2m3 => 6
  | .e2m1 => 4 | .s4 => 4 | .int32 => 32 | .int16 => 16 | .int8 => 8 | .int4 => 4 | .e8m0 => 8 | .ue4m3 => 8

/-- Exponent width, mantissa width and bias of a floating-point format (R92). -/
def fmtFloat : Fmt → Option (Nat × Nat × Nat)
  | .f64 => some (11, 52, 1023) | .f32 => some (8, 23, 127) | .f16 => some (5, 10, 15) | .bf16 => some (8, 7, 127)
  | .e5m2 => some (5, 2, 15) | .e4m3 => some (4, 3, 7) | .e3m2 => some (3, 2, 3) | .e2m3 => some (2, 3, 1)
  | .e2m1 => some (2, 1, 1) | .s4 => some (2, 1, 1) | .ue4m3 => some (4, 3, 7)
  | .int32 | .int16 | .int8 | .int4 | .e8m0 => none

/-- The formats whose overflow is an infinity (R105). -/
def fmtHasInf : Fmt → Bool
  | .f64 | .f32 | .f16 | .bf16 | .e5m2 => true
  | _ => false

/-- The integer element formats (R98). -/
def fmtIsInt : Fmt → Bool
  | .int32 | .int16 | .int8 | .int4 => true
  | _ => false

/-- The magnitude code of the largest finite value of a floating-point format (R92). -/
def fmtMaxCode : Fmt → Nat
  | .f64 => 0x7FEFFFFFFFFFFFFF | .f32 => 0x7F7FFFFF | .f16 => 0x7BFF | .bf16 => 0x7F7F | .e5m2 => 0x7B
  | .e4m3 => 0x7E | .ue4m3 => 0x7E | .e3m2 => 0x1F | .e2m3 => 0x1F | .e2m1 => 7 | .s4 => 7
  | .int32 | .int16 | .int8 | .int4 | .e8m0 => 0

/-- The canonical NaN code (R94), where the format has one. -/
def fmtNan : Fmt → Option Nat
  | .f64 => some 0x7FF8000000000000 | .f32 => some 0x7FC00000 | .f16 => some 0x7E00 | .bf16 => some 0x7FC0
  | .e5m2 => some 0x7E | .e4m3 => some 0x7F | .s4 => some 8 | .e8m0 => some 0xFF | .ue4m3 => some 0x7F
  | .e3m2 | .e2m3 | .e2m1 | .int32 | .int16 | .int8 | .int4 => none

/-- An exact value: NaN, an infinity, or (-1)^neg * m * 2^e; a zero keeps its sign. -/
inductive Val
  | nan
  | inf (neg : Bool)
  | fin (neg : Bool) (m : Nat) (e : Int)
  deriving DecidableEq, Repr

/-- +0. -/
def vZero : Val := .fin false 0 0

/-- The integer i as a value. -/
def vInt (i : Int) : Val := .fin (decide (i < 0)) i.natAbs 0

/-- 2 to a non-negative integer power, 1 below 0. -/
def pow2 (e : Int) : Nat := 2 ^ e.toNat

/-- floor(log2 (num / den)) of a positive ratio. -/
def log2Rat (num den : Nat) : Int :=
  let g : Int := (Nat.log2 num : Int) - (Nat.log2 den : Int)
  if num * pow2 (-g) ≥ den * pow2 g then g else g - 1

/-- The value of code c in format f (R92, R96, R98, R99). -/
def decodeFmt (f : Fmt) (c : Nat) : Val :=
  match f with
  | .e8m0 => if c % 256 = 0xFF then .nan else .fin false 1 ((c % 256 : Nat) - 127)
  | .int32 | .int16 | .int8 | .int4 => vInt (sext (fmtBits f) c)
  | .s4 => if c % 16 = 8 then .nan else decodeMag f (bitAt c 3) (c % 8)
  | .ue4m3 => if c % 256 ≥ 0x7F then .nan else decodeMag f false (c % 256)
  | _ => let w := fmtBits f; decodeMag f (bitAt c (w - 1)) (c % 2 ^ (w - 1))
where
  /-- The value of a sign and a magnitude code. -/
  decodeMag (f : Fmt) (neg : Bool) (mag : Nat) : Val :=
    match fmtFloat f with
    | none => .nan
    | some (_, mb, bias) =>
      if mag > fmtMaxCode f then
        if fmtHasInf f && mag == fmtMaxCode f + 1 then .inf neg else .nan
      else
        let ef := mag / 2 ^ mb
        let m := mag % 2 ^ mb
        if ef = 0 then .fin neg m (1 - (bias : Int) - mb) else .fin neg (2 ^ mb + m) ((ef : Int) - bias - mb)

/-- What a conversion writes: the code, whether it saturated (R105), whether a NaN became 0 and whether the source was NaN. -/
structure Conv where
  code : Nat
  sat : Bool := false
  nanZero : Bool := false
  nan : Bool := false
  deriving DecidableEq, Repr

/-- The magnitude code of the positive value num / den * 2^e on the grid of a floating-point format with unbounded
exponent range above (R104). -/
def roundMag (mb : Nat) (bias : Nat) (num den : Nat) (e : Int) : Nat :=
  if num = 0 then 0 else
  let emin : Int := 1 - (bias : Int)
  let ev := log2Rat num den + e
  let q := (if ev < emin then emin else ev) - mb
  let sh := e - q
  let n := rneDiv (num * pow2 sh) (den * pow2 (-sh))
  ((q - (emin - mb)).toNat) * 2 ^ mb + n

/-- The signed code of a magnitude. -/
def signCode (f : Fmt) (neg : Bool) (mag : Nat) : Nat := if neg then mag + 2 ^ (fmtBits f - 1) else mag

/-- num / den * 2^e with a sign, in format f: nearest, ties to even, out of range as R105 gives. With sat set, an
overflow saturates in every format (rne_sat of R102). -/
def encodeRat (f : Fmt) (neg : Bool) (num den : Nat) (e : Int) : Conv :=
  match fmtFloat f with
  | some (_, mb, bias) =>
    let mag := roundMag mb bias num den e
    if mag > fmtMaxCode f then
      if fmtHasInf f then ⟨signCode f neg (fmtMaxCode f + 1), false, false, false⟩
      else ⟨signCode f neg (fmtMaxCode f), true, false, false⟩
    else if f = .s4 ∧ mag = 0 then ⟨0, false, false, false⟩
    else ⟨signCode f neg mag, false, false, false⟩
  | none =>
    match f with
    | .e8m0 => ⟨((log2Rat (max num 1) den + e + 127).toNat) % 256, false, false, false⟩
    | _ =>
      let w := fmtBits f
      let n := rneDiv (num * pow2 e) (den * pow2 (-e))
      let lim := if neg then 2 ^ (w - 1) else 2 ^ (w - 1) - 1
      if n > lim then ⟨if neg then 2 ^ (w - 1) else lim, true, false, false⟩
      else ⟨if neg then (2 ^ w - n) % 2 ^ w else n, false, false, false⟩

/-- The code of a value in format f (R94, R104, R105). -/
def encodeVal (f : Fmt) : Val → Conv
  | .nan => match fmtNan f with
    | some c => ⟨c, false, false, true⟩
    | none => ⟨0, false, true, true⟩
  | .inf neg =>
    if fmtHasInf f then ⟨signCode f neg (fmtMaxCode f + 1), false, false, false⟩
    else if fmtIsInt f then ⟨if neg then 2 ^ (fmtBits f - 1) else 2 ^ (fmtBits f - 1) - 1, true, false, false⟩
    else ⟨signCode f neg (fmtMaxCode f), true, false, false⟩
  | .fin neg m e => encodeRat f neg m 1 e

/-- The value rounded to format f: what a computation in that format gives (R104, R109). -/
def vRound (f : Fmt) (v : Val) : Val := decodeFmt f (encodeVal f v).code

/-- A value is NaN. -/
def vIsNan : Val → Bool
  | .nan => true
  | _ => false

/-- A value is a zero of either sign. -/
def vIsZero : Val → Bool
  | .fin _ 0 _ => true
  | _ => false

/-- The sign of a value; NaN has none. -/
def vNeg? : Val → Bool
  | .nan => false
  | .inf n => n
  | .fin n _ _ => n

/-- The negation of a value. -/
def vNeg : Val → Val
  | .nan => .nan
  | .inf n => .inf (!n)
  | .fin n m e => .fin (!n) m e

/-- The magnitude of a value. -/
def vAbs : Val → Val
  | .nan => .nan
  | .inf _ => .inf false
  | .fin _ m e => .fin false m e

/-- The signed integer s * m * 2^(e - b) for b at or below e. -/
def vScaled (neg : Bool) (m : Nat) (e b : Int) : Int :=
  let k : Int := ((m * pow2 (e - b) : Nat) : Int)
  if neg then -k else k

/-- Exact sum, with IEEE 754's special values (R109): an exact zero is +0 unless both terms are negative zeros. -/
def vAdd : Val → Val → Val
  | .nan, _ => .nan
  | _, .nan => .nan
  | .inf a, .inf b => if a = b then .inf a else .nan
  | .inf a, .fin _ _ _ => .inf a
  | .fin _ _ _, .inf b => .inf b
  | .fin n1 m1 e1, .fin n2 m2 e2 =>
    let b := if e1 ≤ e2 then e1 else e2
    let s := vScaled n1 m1 e1 b + vScaled n2 m2 e2 b
    if s = 0 then .fin (n1 && n2) 0 0 else .fin (decide (s < 0)) s.natAbs b

/-- Exact difference. -/
def vSub (a b : Val) : Val := vAdd a (vNeg b)

/-- Exact product, with IEEE 754's special values (R109). -/
def vMul : Val → Val → Val
  | .nan, _ => .nan
  | _, .nan => .nan
  | .inf a, .inf b => .inf (a != b)
  | .inf a, .fin n m _ => if m = 0 then .nan else .inf (a != n)
  | .fin n m _, .inf b => if m = 0 then .nan else .inf (n != b)
  | .fin n1 m1 e1, .fin n2 m2 e2 => .fin (n1 != n2) (m1 * m2) (e1 + e2)

/-- a < b on finite and infinite values; NaN compares false. -/
def vLt : Val → Val → Bool
  | .nan, _ => false
  | _, .nan => false
  | .inf a, .inf b => a && !b
  | .inf a, .fin _ _ _ => a
  | .fin _ _ _, .inf b => !b
  | .fin n1 m1 e1, .fin n2 m2 e2 =>
    let b := if e1 ≤ e2 then e1 else e2
    decide (vScaled n1 m1 e1 b < vScaled n2 m2 e2 b)

/-- a = b as numbers; NaN compares false, and the zeros are equal. -/
def vEq (a b : Val) : Bool := !vIsNan a && !vIsNan b && !vLt a b && !vLt b a

/-- a / b rounded to format f, with IEEE 754's special values (R109). -/
def vDivTo (f : Fmt) : Val → Val → Val
  | .nan, _ => .nan
  | _, .nan => .nan
  | .inf _, .inf _ => .nan
  | .inf a, .fin n _ _ => .inf (a != n)
  | .fin n _ _, .inf b => .fin (n != b) 0 0
  | .fin n1 m1 e1, .fin n2 m2 e2 =>
    if m2 = 0 then (if m1 = 0 then .nan else .inf (n1 != n2))
    else decodeFmt f (encodeRat f (n1 != n2) m1 m2 (e1 - e2)).code

/-- The greater of two values: a NaN wins, and the first stands on a tie. -/
def vMaxNan (a b : Val) : Val :=
  if vIsNan a then a else if vIsNan b then b else if vLt a b then b else a

/-- A scaled element (R101): the exact product; a NaN scale gives NaN, and a UE4M3 scale of 0 gives a zero. -/
def scaleVal (sf : Fmt) (sc : Nat) (x : Val) : Val :=
  match decodeFmt sf sc with
  | .nan => .nan
  | .fin _ 0 _ => .fin (match x with | .fin n _ _ => n | .inf n => n | .nan => false) 0 0
  | v => vMul x v

/-- emax and maxfinite (as num * 2^e) of the element formats that carry scales (R102). -/
def scaleParams : Fmt → Int × Nat × Int
  | .e5m2 => (15, 7, 13) | .e4m3 => (8, 7, 6) | .e3m2 => (4, 7, 2) | .e2m3 => (2, 15, -1) | .e2m1 => (2, 3, 1)
  | .s4 => (2, 3, 1) | .int8 => (6, 127, 0) | .int4 => (2, 7, 0) | _ => (0, 1, 0)

/-- rne_sat (R102): v divided by a scale num2 * 2^e2, on the grid of f, saturating at maxfinite. -/
def rneSat (f : Fmt) (v : Val) (m2 : Nat) (e2 : Int) : Nat :=
  let p := scaleParams f
  let maxCode := (encodeRat f false p.2.1 1 p.2.2).code
  let cap := fun (neg : Bool) => if fmtIsInt f then (if neg then 2 ^ fmtBits f - maxCode else maxCode) else signCode f neg maxCode
  match v with
  | .nan => 0
  | .inf n => cap n
  | .fin n m e =>
    let sh := e - e2 - p.2.2
    if m * pow2 sh > m2 * p.2.1 * pow2 (-sh) then cap n else (encodeRat f n m m2 (e - e2)).code

/-- The scale code of a block whose largest magnitude is num * 2^e > 0 (R102). -/
def blockScale (sf f : Fmt) (m : Nat) (e : Int) : Nat :=
  let p := scaleParams f
  if sf = .e8m0 then
    let xe := log2Rat m 1 + e - p.1
    ((if xe < -127 then -127 else if xe > 127 then 127 else xe) + 127).toNat
  else (encodeRat .ue4m3 false m p.2.1 (e - p.2.2)).code

/-- The largest magnitude of a block (R102): infinity reads as the largest finite value of F64. -/
def amax (xs : List Val) : Val :=
  xs.foldl (fun a x =>
    let y := match x with
      | .inf _ => decodeFmt .f64 0x7FEFFFFFFFFFFFFF
      | v => vAbs v
    if vLt a y then y else a) vZero

/-- The scale code and element codes of one block (R102), and whether the block held a NaN. -/
def quantBlock (sf f : Fmt) (xs : List Val) : Nat × List Nat × Bool :=
  if xs.any vIsNan then ((fmtNan sf).getD 0, xs.map (fun _ => 0), true)
  else match amax xs with
    | .fin _ 0 _ =>
      if sf = .e8m0 then (0x7F, xs.map (fun x => rneSat f x 1 0), false) else (0, xs.map (fun _ => 0), false)
    | .fin _ m e =>
      let sc := blockScale sf f m e
      if sf = .ue4m3 ∧ sc = 0 then (0, xs.map (fun _ => 0), false)
      else match decodeFmt sf sc with
        | .fin _ sm se => (sc, xs.map (fun x => rneSat f x sm se), false)
        | _ => (sc, xs.map (fun _ => 0), false)
    | _ => (0, xs.map (fun _ => 0), false)

/-- The element formats that may carry a scale, and the blocks each scale format allows (R100). -/
def scaleAllowed (f sf : Fmt) (blockLog2 : Nat) : Bool :=
  (match f with
   | .e5m2 | .e4m3 | .e3m2 | .e2m3 | .e2m1 | .s4 | .int8 | .int4 => true
   | _ => false) &&
  (match sf with
   | .e8m0 => blockLog2 == 4 || blockLog2 == 5
   | .ue4m3 => blockLog2 == 3 || blockLog2 == 4
   | _ => false)

/-- The value read from a source element for a conversion into dst, with the strict reading of E2M1 (R107). -/
def readElem (f : Fmt) (strict : Bool) (dst : Fmt) (c : Nat) : Val :=
  if f = .e2m1 ∧ dst = .s4 ∧ c % 16 = 8 ∧ strict then .nan else decodeFmt f c

end Sys2Proof.Machine
end

