-- ==== Sys2Proof/Machine/StateQueue.lean ====
section
/-! DEFINITION. The parts of the state that chapters 2, 3, 4, 14 and 15 give: contexts, queues, commands in flight, run
lists, pending faults, semaphores, watches and barriers. -/

namespace Sys2Proof.Machine

open Sys2Proof

/-- Context states (R27, before). -/
inductive CtxState
  | free | active | preempted | resetting
  deriving DecidableEq, Repr

/-- Queue states (R35, R572). -/
inductive QState
  | disabled | enabled | draining | error | preempted
  deriving DecidableEq, Repr

/-- One 64 KiB device page of a run list (R342): the page number, the lowest byte of it that is needed, whether it is written
and the operand index that needs it (R81); then either the frame it maps with its W bit, or the walk's stop: KIND 1 not
present or 3 invalid (R350). `entry` is the frame-space address of the entry the walk ended at, `level` its level, `lo` its
low word. `declined` records a fault declined before the command reached the page (R353). -/
structure XPage where
  vp : Nat
  low : Nat := 0
  wr : Bool := false
  op : Nat := 0xFF
  ok : Bool := false
  frame : Nat := 0
  w : Bool := false
  kind : Nat := 0
  entry : Nat := 0
  level : Nat := 0
  lo : Nat := 0
  declined : Bool := false
  deriving DecidableEq, Repr

/-- A context descriptor as last read and checked (R25), with its segment entries (R249) and the fault timeout and window
count of its pointer window table's header (R356). -/
structure CtxDesc where
  ptRoot : Nat
  pwtBase : Nat
  eqBase : Nat
  eqLog2 : Nat
  priv : Bool
  prioCap : Nat
  sbdQuota : Nat
  trapRec : Nat
  segBase : List Nat
  segSize : List Nat
  faultTimeout : Nat
  nwin : Nat
  eqPages : List XPage
  deriving DecidableEq, Repr

/-- A failure reported to a context after its command retired (R52): its status and the detail row it would have had. -/
structure Failure where
  status : Nat
  detail : List Byte
  deriving DecidableEq, Repr

/-- A context (R25 to R29, R46 to R49, R52). -/
structure Ctx where
  st : CtxState := .free
  held : Option CtxDesc := none
  eqCount : Nat := 0
  eqConsumed : Nat := 0
  /-- The last record written is a gap marker whose DROPPED is not final: its DROPPED and its slot (R48, R49). -/
  gap : Option (Nat × Nat) := none
  /-- Drops held until software frees a slot, and the time of the first (R48, case 4). -/
  heldDrops : Nat := 0
  heldTime : Nat := 0
  /-- The error-pending flag with the earliest failure and the number recorded (R52). -/
  err : Option Failure := none
  errCount : Nat := 0
  deriving DecidableEq, Repr

/-- A command's outcome: STATUS and the 16 detail bytes (R79). -/
structure Res where
  status : Nat
  detail : List Byte
  deriving DecidableEq, Repr

/-- One of the last 64 SEQs a queue or path accepted (R40, R88), with its outcome once it has retired. -/
structure Seen where
  seq : Nat
  res : Option Res
  deriving DecidableEq, Repr

/-- A duplicate that waits for its first command to retire (R40). -/
structure Dup where
  seq : Nat
  cls : Nat
  half : Nat
  deriving DecidableEq, Repr

/-- A submission queue: the queue page's registers (R35), the descriptor as read at enable (R30), the ring translations
(R345), the duplicate window (R40), Surveyor's current half (R333) and the chain link to the next command (R51). -/
structure Queue where
  st : QState := .disabled
  head : Nat := 0
  tail : Nat := 0
  staleDb : Nat := 0
  lastDbSeq : Nat := 0
  lastAccepted : Nat := 0
  doneThrough : Nat := 0
  cqCount : Nat := 0
  cqConsumed : Nat := 0
  sqBase : Nat := 0
  cqBase : Nat := 0
  sqLog2 : Nat := 0
  cqLog2 : Nat := 0
  ctx : Nat := 0
  pinHalf : Nat := 0
  prioCap : Nat := 0
  waitLen : Nat := 0
  waitBase : Nat := 0
  sqPages : List XPage := []
  cqPages : List XPage := []
  wlPages : List XPage := []
  curHalf : Nat := 0
  window : List Seen := []
  dups : List Dup := []
  /-- Commands accepted since enable, which numbers them in acceptance order (R51). -/
  accepted : Nat := 0
  /-- The last accepted command had CHAIN set and retired without DONE: the next accepted one is aborted (R51). -/
  chainBroken : Bool := false
  deriving DecidableEq, Repr

/-- Who a datagram came from (R87, R555), for a reply still to be sent: the SEQ, whether the request repeats one in execution (R40), and
the sender's family, address, MAC address and port. -/
structure NetFrom where
  seq : Nat
  dup : Bool
  v6 : Bool
  addr : Nat
  mac : Nat
  port : Nat
  deriving DecidableEq, Repr

/-- A management path (R86 to R88, R419): its last SEQ and duplicate window; for SMBus and the mailbox whether a request executes, the
reply held (record and data) and how much has been read; for a session of the Ethernet path when it was last used and who awaits replies;
and the mailbox's request bytes. -/
structure PathSt where
  last : Option Nat := none
  window : List Seen := []
  busy : Bool := false
  reply : List Byte := []
  cursor : Nat := 0
  used : Nat := 0
  senders : List NetFrom := []
  buf : List Byte := []
  deriving DecidableEq, Repr

/-- Where a command stands: accepted and not issued; in execution (R42); registered and waiting outside execution (a WAIT
or BAR_ENTER, R368, R380); finished by its engine, its record not yet written. -/
inductive Phase
  | accepted | executing | registered | finished
  deriving DecidableEq, Repr

/-- What a queue-control or management command in execution still waits for. -/
inductive WaitFor
  | nothing
  | disable (q : Nat)                        -- R57
  | preempt (ctx : Nat)                      -- R27
  | invalidate (ctx lo hi : Nat) (ords : List Nat)  -- R359: the global ordinals of the commands waited for
  | portReset (port : Nat)                   -- RESET_FUNCTION of a PCI Express port (R431)
  | activation (unit : Nat)                  -- FW_ACTIVATE (R513)
  | aihalPort (port : Nat)                   -- RESET_FUNCTION of an Aihal port (R506)
  | hostReset                                -- RESET_FUNCTION of the host complex (R505)
  deriving DecidableEq, Repr

/-- A Seedbed extent registered in a scoreboard (R257): half, first unit, one past the last unit, write. -/
structure SbExt where
  half : Nat
  lo : Nat
  hi : Nat
  wr : Bool
  deriving DecidableEq, Repr

/-- The first NaN event of a command's run (R110 to R114). -/
structure NanEv where
  cause : Nat
  stage : Nat
  tileRow : Nat
  tileCol : Nat
  elemRow : Nat
  elemCol : Nat
  time : Nat
  deriving DecidableEq, Repr

/-- What a command's engine has noted so far: saturated elements, NaN stored as 0 (R106), a softmax or range note (R82: NOTE,
COUNT, FIRST, second count), the first NaN event, the first poisoned unit read (address and SOURCE), the first
uncorrectable one, the first index out of range, and the units done. -/
structure Notes where
  sat : Nat := 0
  nanZero : Nat := 0
  note : Option (Nat × Nat × Nat × Nat) := none
  nan : Option NanEv := none
  poison : Option (Nat × Nat) := none
  uncorr : Option (Nat × Nat) := none
  /-- The statuses that arose, in the order they arose (R85). -/
  order : List Nat := []
  deriving DecidableEq, Repr

/-- One lane: its value (exact F32 or an integer), a NaN's origin stage and cause (R211), and poison. -/
structure Lane where
  v : Val := vZero
  org : Nat := 0
  cause : Nat := 0
  poison : Bool := false
  deriving DecidableEq, Repr

/-- A vector register with its type and scale side: the scale codes, with the first NaN of a block whose scale is NaN. -/
structure VReg where
  lanes : List Lane := List.replicate 256 {}
  int : Bool := false
  side : List (Nat × Option Lane) := []
  deriving DecidableEq, Repr

/-- The state of a Harrow during a command (R191): vector and mask registers, the running values of ROW stages, and the row
buffer of a held reduction. -/
structure HState where
  v : List VReg := List.replicate 32 {}
  k : List (List Bool) := [[], [], []]
  run : List (Nat × Lane) := []
  buf : List VReg := []
  /-- The held row took in poison (R212). -/
  rowPoison : Bool := false
  deriving DecidableEq, Repr

/-- A command accepted and not retired. `ord` numbers the commands of its queue in acceptance order, `gord` those of the
whole module. -/
structure Cmd where
  car : Carrier
  seq : Nat
  ord : Nat
  gord : Nat
  bytes : List Byte
  ctx : Nat
  priv : Bool
  half : Nat
  /-- Uses both halves (R333, rule 2). -/
  both : Bool := false
  /-- Runs in tandem, decided at issue (R334). -/
  tandem : Bool := false
  inst : Nat := 0
  phase : Phase := .accepted
  issued : Bool := false
  pages : List XPage := []
  runs : Nat := 0
  /-- The PRE_WAIT watch has not fired. -/
  preWait : Bool := false
  /-- The command waits for a watch place (R368). -/
  needPlace : Bool := false
  /-- The semaphore and threshold of its wait-list entry, read once (R31). -/
  semN : Nat := 0
  semT : Nat := 0
  /-- It has entered the scoreboards (R257, R262), with these extents. -/
  sbIn : Bool := false
  sbExt : List SbExt := []
  /-- The pending fault the command is held or stalled on, and the time its first fault held it (R354). -/
  stall : Option Nat := none
  stallSince : Option Nat := none
  /-- Commit units done (R347). -/
  prog : Nat := 0
  /-- Runs made after parity errors (R65). -/
  reruns : Nat := 0
  /-- A Gleaner's buffer has failed parity while it worked for the command (R310). -/
  upset : Bool := false
  /-- It runs under the previous configuration (R62). -/
  usesPrev : Bool := false
  /-- Raised to priority 3 (R53). -/
  raised : Bool := false
  notes : Notes := {}
  /-- The Harrow state of the run, one entry for each half that runs it (R191, R213). -/
  har : List HState := []
  /-- Other engine instances it has claimed (R140, R183, R187). -/
  claims : List Engine := []
  /-- The admission power it was given (R486), in the governor's units. -/
  adm : Nat := 0
  wait : WaitFor := .nothing
  /-- Data that remote reads have brought, by tile, with its poison (R456). -/
  got : List (Nat × Bool × List Byte) := []
  /-- A reply repeated its first outcome (R457). -/
  dup : Bool := false
  /-- Remote transactions outstanding for it (R456). -/
  txns : List Nat := []
  /-- Reply data of a management command (R76). -/
  reply : List Byte := []
  res : Option Res := none
  deriving DecidableEq, Repr

/-- A pending fault (R349 to R355). -/
structure PFault where
  id : Nat
  ctx : Nat
  entry : Nat
  kind : Nat
  level : Nat
  va : Nat
  queue : Nat
  seq : Nat
  engine : Nat
  inst : Nat
  flags : Nat
  lo : Nat
  time : Nat
  written : Bool
  deriving DecidableEq, Repr

/-- A cached translation (R341): the context, the device page range it covers, the frame of its first page, and W. -/
structure Tlb where
  ctx : Nat
  vp : Nat
  n : Nat
  frame : Nat
  w : Bool
  deriving DecidableEq, Repr

/-- A cached pointer entry (R341): the context, the level, the part of the address above the range it covers, and the table
it names. -/
structure PtrC where
  ctx : Nat
  level : Nat
  top : Nat
  next : Nat
  deriving DecidableEq, Repr

/-- The fault unit: next FAULT_ID, pending faults in the order raised, cached translations, and whether an agent waits for
a place in the pending table (R351). -/
structure XltSt where
  nextId : Nat := 1
  pending : List PFault := []
  tlb : List Tlb := []
  ptrs : List PtrC := []
  tableFull : Bool := false
  deriving DecidableEq, Repr

/-- A semaphore with its flag byte (R363); `bad` marks a word with an uncorrectable error (R377). -/
structure Sem where
  value : Nat := 0
  owner : Nat := 0
  owned : Bool := false
  openWait : Bool := false
  openWrite : Bool := false
  fabric : Bool := false
  sat : Bool := false
  bad : Bool := false
  deriving DecidableEq, Repr

/-- Who registered a watch (R368, R370): the WAIT, WATCH or PRE_WAIT of a local command, or a remote WAIT or WATCH. -/
inductive WatchWho
  | preWait (k : Carrier) (seq : Nat)
  | wait (k : Carrier) (seq : Nat)
  | watch (q seq tkind target compare : Nat)
  | remoteWait (rank txn : Nat)
  | remoteWatch (rank txn tkind target compare q seq : Nat)
  deriving DecidableEq, Repr

/-- A registered watch: the semaphore (half and number), its threshold, who registered it and that one's context. -/
structure Watch where
  half : Nat
  sem : Nat
  n : Nat
  ctx : Nat
  who : WatchWho
  deriving DecidableEq, Repr

/-- Who entered a barrier slot (R379, R383). -/
inductive BarWho
  | cmd (k : Carrier) (seq : Nat)
  | remote (rank txn : Nat)
  | child (half bar gen : Nat)
  deriving DecidableEq, Repr

/-- An entry of a barrier: slot, who entered it, and the generation it counts for; none while it is held. -/
structure BarEntry where
  slot : Nat
  who : BarWho
  gen : Option Nat
  deriving DecidableEq, Repr

/-- A defined barrier object (R378 to R381). -/
structure Barrier where
  owner : Nat
  mask : Nat
  hold : Bool
  fabric : Bool
  parent : Option (Nat × Nat)
  gen : Nat
  entries : List BarEntry
  /-- HOLD: the parent generations entered and not completed, as the child generations that wait. -/
  waiting : List Nat
  deriving DecidableEq, Repr

/-- What a Yoke unit sends to another module (R370, R381, R382): the reply to a remote operation, the message of a remote
WATCH, a TKIND 4 ADD, or an entry into a parent barrier. -/
inductive YOut
  | reply (rank txn status : Nat) (detail : List Byte)
  | watchMsg (rank : Nat) (m : YMsg)
  | remoteAdd (rank sem : Nat) (m : YMsg)
  | enter (rank bar half obj gen : Nat)
  deriving DecidableEq, Repr

/-- The Yoke units of both halves: semaphores by half × 2^17 + number, watches in registration order, barriers by
half × 4,096 + number, and messages in flight. -/
structure YokeSt where
  sems : List (Nat × Sem) := []
  watches : List Watch := []
  bars : List (Nat × Option Barrier) := []
  msgs : List YMsg := []
  /-- Remote WAITs and WATCHes that wait for a watch place (R368). -/
  held : List YokeFrame := []
  outs : List YOut := []
  deriving DecidableEq, Repr

end Sys2Proof.Machine
end

