-- ==== Sys2Proof/Machine/Flags.lean ====
section
/-! DEFINITION. The fields and flag bits of a command's header (R64, R65), and the status codes and detail of a completion record (R79 to
R84). -/

namespace Sys2Proof.Machine

open Sys2Proof

/-! ### The header -/

/-- The command's OPCODE field (R64). -/
def Cmd.opcode (m : Cmd) : Nat := leAt m.bytes 0 2

/-- The engine class (R64). -/
def Cmd.cls (m : Cmd) : Nat := bits m.opcode 12 4

/-- The opcode within the class (R64). -/
def Cmd.op (m : Cmd) : Nat := bits m.opcode 0 12

/-- FLAGS (R65). -/
def Cmd.flags (m : Cmd) : Nat := leAt m.bytes 2 1

/-- LEN (R64). -/
def Cmd.len (m : Cmd) : Nat := leAt m.bytes 3 1

/-- EPOCH (R64). -/
def Cmd.epoch (m : Cmd) : Nat := leAt m.bytes 8 2

/-- PRE_WAIT (R64). -/
def Cmd.preWaitField (m : Cmd) : Nat := leAt m.bytes 12 2

/-- The n-byte parameter at offset o. -/
def Cmd.par (m : Cmd) (o n : Nat) : Nat := leAt m.bytes o n

/-- Flag bits of R65. -/
def Cmd.idempotent (m : Cmd) : Bool := bitAt m.flags 0
/-- FENCE_BEFORE. -/
def Cmd.fenceBefore (m : Cmd) : Bool := bitAt m.flags 1
/-- FENCE_AFTER. -/
def Cmd.fenceAfter (m : Cmd) : Bool := bitAt m.flags 2
/-- NOTIFY. -/
def Cmd.notify (m : Cmd) : Bool := bitAt m.flags 3
/-- TRAP_NAN. -/
def Cmd.trapNan (m : Cmd) : Bool := bitAt m.flags 4
/-- CHAIN. -/
def Cmd.chainFlag (m : Cmd) : Bool := bitAt m.flags 5
/-- PRIORITY. -/
def Cmd.priority (m : Cmd) : Nat := bits m.flags 6 2

/-! ### Completion records' parts -/

/-- A 16-byte detail with the given (offset, width, value) fields (R81). -/
def detail (fs : List (Nat × Nat × Nat)) : List Byte := fields 16 fs

/-- An outcome with the given detail fields. -/
def mkRes (status : Nat) (fs : List (Nat × Nat × Nat)) : Res := ⟨status, detail fs⟩

/-- Status codes (R84). -/
def sDone : Nat := 0
/-- DONE_NOTED. -/
def sNoted : Nat := 1
/-- ABORTED. -/
def sAborted : Nat := 2
/-- FAULT_UNMAPPED. -/
def sUnmapped : Nat := 3
/-- FAULT_ACCESS. -/
def sAccess : Nat := 4
/-- NUMERIC_TRAP. -/
def sTrap : Nat := 5
/-- DATA_UNCORRECTABLE. -/
def sUncorr : Nat := 6
/-- PEER_LOST. -/
def sPeerLost : Nat := 7
/-- OWNER_LOST. -/
def sOwnerLost : Nat := 8
/-- EPOCH_MISMATCH. -/
def sEpoch : Nat := 9
/-- TIMEOUT. -/
def sTimeout : Nat := 10
/-- MALFORMED. -/
def sMalformed : Nat := 11
/-- BUSY_REFUSED. -/
def sBusy : Nat := 12
/-- QUEUE_DISABLED. -/
def sQDisabled : Nat := 13
/-- DUPLICATE_SUPPRESSED. -/
def sDupSupp : Nat := 14
/-- POISONED_INPUT. -/
def sPoisoned : Nat := 15
/-- RETRY_EXHAUSTED. -/
def sRetryEx : Nat := 16

/-- FAULT_ACCESS with an address, REASON and operand index (R81). -/
def accessRes (addr reason opIdx : Nat) : Res := mkRes sAccess [(0, 8, addr), (8, 1, reason), (9, 1, opIdx)]

/-- MALFORMED. -/
def malformedRes : Res := mkRes sMalformed []

/-- DONE with no detail. -/
def doneRes : Res := mkRes sDone []

end Sys2Proof.Machine
end

