-- ==== Sys2Proof/Config.lean ====
section
/-! DEFINITION. What an implementation fixes and the values the manual leaves open.  Every constant here is opaque:
no proof can learn its value, so a statement that holds does so whatever it is. -/

namespace Sys2Proof

/-- A fresh open value: the n-th one the machine has drawn (`Chip.freeCtr` counts them).  Log entry 3. -/
opaque Config.free : Nat → Nat

/-- A value fused or strapped into the part and not given by the manual, named by the offset of the register that
shows it: identifiers, serial number, MAC addresses (access code HWI with no reset value).  Log entry 4. -/
opaque Config.fuse : Nat → Nat

/-- The value of the Drill special register MSGSTATE, whose layout the manual does not give (R372), for a latch and a LOST bit.
Log entry 3. -/
opaque Config.msgState : Bool → Bool → Nat

/-- The signature of a firmware image checks against the fused key (R531, R532): bytes 0 to 127 and the signature.  Log entry 3. -/
opaque Config.sigOk : List Byte → List Byte → Bool

/-- The configuration offset of the MSI-X capability of an endpoint function, which the manual does not give (R418).  Log entry 3. -/
opaque Config.msixCap : Nat

end Sys2Proof
end

