-- ==== Sys2Proof/Machine/KMap.lean ====
section
/-! DEFINITION. Sparse maps as plain data: a list of key and value pairs in one canonical form, its keys strictly
rising and no entry equal to what an unlisted key reads as. -/

namespace Sys2Proof.Machine

/-- What key k reads as: its entry, or the default d k. -/
def kget {β : Type} (d : Nat → β) : List (Nat × β) → Nat → β
  | [], k => d k
  | (a, b) :: m, k => if a = k then b else kget d m k

/-- Every entry of k removed. -/
def kerase {β : Type} (m : List (Nat × β)) (k : Nat) : List (Nat × β) := m.filter (fun e => e.1 != k)

/-- The entry (k, b) put in its place among rising keys. -/
def kinsert {β : Type} (k : Nat) (b : β) : List (Nat × β) → List (Nat × β)
  | [] => [(k, b)]
  | (a, c) :: m => if k < a then (k, b) :: (a, c) :: m else if a = k then (k, b) :: m else (a, c) :: kinsert k b m

/-- k now reads as b. Writing what an unlisted key reads as removes the entry. -/
def kset {β : Type} [DecidableEq β] (d : Nat → β) (m : List (Nat × β)) (k : Nat) (b : β) : List (Nat × β) :=
  if b = d k then kerase m k else kinsert k b m

/-- The canonical list that reads the same as m. -/
def kcanon {β : Type} [DecidableEq β] (d : Nat → β) (m : List (Nat × β)) : List (Nat × β) :=
  m.foldr (fun e acc => kset d acc e.1 e.2) []

/-- The canonical form: keys strictly rising, and no entry equal to the default. -/
def kwf {β : Type} [DecidableEq β] (d : Nat → β) : List (Nat × β) → Bool
  | [] => true
  | [(a, b)] => decide (b ≠ d a)
  | (a, b) :: (a', b') :: m => decide (b ≠ d a) && decide (a < a') && kwf d ((a', b') :: m)

end Sys2Proof.Machine
end

