-- ==== Sys2Proof/Machine/RegMap.lean ====
section
/-! DEFINITION. The register map (R537, R538, R547 and the register tables of every chapter): each block's registers with
their fields, access codes (R6) and reset values, a constant for each field, and the base of each block's instances. -/

namespace Sys2Proof.Machine

open Sys2Proof

/-- Register access codes (R6). -/
inductive Acc
  | ro | rw | w1c | wo | rwl | hwi
  deriving DecidableEq, Repr

/-- A reset value: a number of the tables, the instance, the half or the hart number, or a fused value. -/
inductive Rst
  | val (n : Nat) | inst | half | hart | fuse
  deriving DecidableEq, Repr

/-- One field of a register. -/
structure RegField where
  lo : Nat
  w : Nat
  acc : Acc
  rst : Rst
  deriving DecidableEq, Repr

/-- One register of a block: its offset, whether it is 64 bits wide, and its fields; other bits are reserved. -/
structure RegDef where
  off : Nat
  wide : Bool
  flds : List RegField
  deriving DecidableEq, Repr

/-- A field named by its register's offset in the block, its low bit and its width. -/
structure Fld where
  off : Nat
  lo : Nat
  w : Nat
  deriving DecidableEq, Repr

/-- The register blocks (R537, R538). -/
inductive Block

  | mod | pwr | mgt | start | net | half | fur | har | drl | dma | yok | srv | xlt | sbd | syc | inf | out | qpb | hst | cplx | blk | aihp | aih | pcx
  deriving DecidableEq, Repr


/-- Field of the mod block. -/
def MOD_ID_VENDOR : Fld := ⟨0x0, 0, 16⟩
/-- Field of the mod block. -/
def MOD_ID_DEVICE : Fld := ⟨0x0, 16, 16⟩
/-- Field of the mod block. -/
def MOD_REV_SI_REV : Fld := ⟨0x4, 0, 8⟩
/-- Field of the mod block. -/
def MOD_REV_MODULE_REV : Fld := ⟨0x4, 8, 8⟩
/-- Field of the mod block. -/
def MOD_SERIAL_SERIAL : Fld := ⟨0x8, 0, 64⟩
/-- Field of the mod block. -/
def MOD_CTL_LOCK : Fld := ⟨0x10, 0, 1⟩
/-- Field of the mod block. -/
def MOD_STATUS_READY : Fld := ⟨0x14, 0, 1⟩
/-- Field of the mod block. -/
def MOD_ACC_ERR_OFFSET : Fld := ⟨0x18, 0, 28⟩
/-- Field of the mod block. -/
def MOD_ACC_ERR_KIND : Fld := ⟨0x18, 28, 4⟩
/-- Field of the mod block. -/
def MOD_ACC_ERR_PATH : Fld := ⟨0x18, 32, 4⟩
/-- Field of the mod block. -/
def MOD_ACC_ERR_SPACE : Fld := ⟨0x18, 36, 1⟩
/-- Field of the mod block. -/
def MOD_ACC_ERR_VALID : Fld := ⟨0x18, 63, 1⟩
/-- Field of the mod block. -/
def MOD_ACC_COUNT_COUNT : Fld := ⟨0x20, 0, 64⟩
/-- Field of the mod block. -/
def MOD_CTX_TABLE_BASE_BASE : Fld := ⟨0x1000, 12, 36⟩
/-- Field of the mod block. -/
def MOD_QUE_TABLE_BASE_BASE : Fld := ⟨0x1008, 12, 36⟩
/-- Field of the mod block. -/
def MOD_INFLIGHT_COUNT : Fld := ⟨0x1010, 0, 11⟩
/-- Field of the mod block. -/
def MOD_QCTL_CMD_QUEUE : Fld := ⟨0x1018, 0, 20⟩
/-- Field of the mod block. -/
def MOD_QCTL_CMD_OP : Fld := ⟨0x1018, 20, 4⟩
/-- Field of the mod block. -/
def MOD_QCTL_RESULT_STATE : Fld := ⟨0x101C, 0, 2⟩
/-- Field of the mod block. -/
def MOD_QCTL_RESULT_STATUS : Fld := ⟨0x101C, 8, 8⟩
/-- Field of the mod block. -/
def MOD_CFG_EPOCH_CURRENT : Fld := ⟨0x2000, 0, 16⟩
/-- Field of the mod block. -/
def MOD_CFG_EPOCH_PREVIOUS : Fld := ⟨0x2000, 16, 16⟩
/-- Field of the mod block. -/
def MOD_CFG_COMMIT_EPOCH : Fld := ⟨0x2004, 0, 16⟩
/-- Field of the mod block. -/
def MOD_CFG_STATUS_MIXED : Fld := ⟨0x2008, 0, 1⟩
/-- Field of the mod block. -/
def MOD_CFG_STATUS_REFUSED : Fld := ⟨0x2008, 1, 1⟩
/-- Field of the mod block. -/
def MOD_CFG_STATUS_PENDING : Fld := ⟨0x2008, 16, 16⟩
/-- Field of the mod block. -/
def MOD_CFG_NOTIFY_SEM : Fld := ⟨0x200C, 0, 18⟩
/-- Field of the mod block. -/
def MOD_CFG_NOTIFY_ENABLE : Fld := ⟨0x200C, 31, 1⟩
/-- Field of the mod block. -/
def MOD_FMT_CTL_FORCE_STRICT : Fld := ⟨0x2100, 0, 1⟩
/-- Field of the mod block. -/
def MOD_FMT_CTL_FORCE_TRAP : Fld := ⟨0x2100, 1, 1⟩
/-- Field of the mod block. -/
def MOD_FMT_CTL_CUR_FORCE_STRICT : Fld := ⟨0x2104, 0, 1⟩
/-- Field of the mod block. -/
def MOD_FMT_CTL_CUR_FORCE_TRAP : Fld := ⟨0x2104, 1, 1⟩
/-- Field of the mod block. -/
def MOD_SRV_POLICY_BUDGET : Fld := ⟨0x2110, 0, 7⟩
/-- Field of the mod block. -/
def MOD_SRV_POLICY_ENABLE : Fld := ⟨0x2110, 7, 1⟩
/-- Field of the mod block. -/
def MOD_SRV_POLICY_PERIOD : Fld := ⟨0x2110, 8, 8⟩
/-- Field of the mod block. -/
def MOD_SRV_POLICY_HYST : Fld := ⟨0x2110, 16, 4⟩
/-- Field of the mod block. -/
def MOD_SRV_POLICY_CROSS : Fld := ⟨0x2110, 20, 7⟩
/-- Field of the mod block. -/
def MOD_SRV_POLICY_CUR_BUDGET : Fld := ⟨0x2114, 0, 7⟩
/-- Field of the mod block. -/
def MOD_SRV_POLICY_CUR_ENABLE : Fld := ⟨0x2114, 7, 1⟩
/-- Field of the mod block. -/
def MOD_SRV_POLICY_CUR_PERIOD : Fld := ⟨0x2114, 8, 8⟩
/-- Field of the mod block. -/
def MOD_SRV_POLICY_CUR_HYST : Fld := ⟨0x2114, 16, 4⟩
/-- Field of the mod block. -/
def MOD_SRV_POLICY_CUR_CROSS : Fld := ⟨0x2114, 20, 7⟩
/-- Field of the mod block. -/
def MOD_FR_BASE_BASE : Fld := ⟨0x3000, 12, 36⟩
/-- Field of the mod block. -/
def MOD_FR_CFG_LOG2 : Fld := ⟨0x3008, 0, 5⟩
/-- Field of the mod block. -/
def MOD_FR_CFG_VECTOR : Fld := ⟨0x3008, 16, 15⟩
/-- Field of the mod block. -/
def MOD_FR_CFG_IRQ_EN : Fld := ⟨0x3008, 31, 1⟩
/-- Field of the mod block. -/
def MOD_FR_COUNT_COUNT : Fld := ⟨0x300C, 0, 32⟩
/-- Field of the mod block. -/
def MOD_FR_CONSUMED_CONSUMED : Fld := ⟨0x3010, 0, 32⟩
/-- Field of the mod block. -/
def MOD_FAULT_RESP_FAULT_ID : Fld := ⟨0x3018, 0, 32⟩
/-- Field of the mod block. -/
def MOD_FAULT_RESP_ACTION : Fld := ⟨0x3018, 32, 2⟩
/-- Field of the mod block. -/
def MOD_FAULT_STATUS_PENDING : Fld := ⟨0x3020, 0, 13⟩
/-- Field of the mod block. -/
def MOD_FAULT_STATUS_RING_WAIT : Fld := ⟨0x3020, 16, 1⟩
/-- Field of the mod block. -/
def MOD_FAULT_STATUS_TABLE_FULL : Fld := ⟨0x3020, 17, 1⟩
/-- Field of the mod block. -/
def MOD_XLT_CTL_DEF_TIMEOUT : Fld := ⟨0x3024, 0, 16⟩
/-- Field of the mod block. -/
def MOD_XLT_ERR_RESP_UNKNOWN : Fld := ⟨0x3028, 0, 1⟩
/-- Field of the mod block. -/
def MOD_XLT_ERR_RESP_BAD : Fld := ⟨0x3028, 1, 1⟩
/-- Field of the mod block. -/
def MOD_XLT_ERR_RING_FAULT : Fld := ⟨0x3028, 2, 1⟩

/-- Registers of the mod block. -/
def modRegs0 : List RegDef := [
  ⟨0x0, false, [⟨0, 16, .hwi, .fuse⟩, ⟨16, 16, .hwi, .val 19201⟩]⟩,
  ⟨0x4, false, [⟨0, 8, .hwi, .fuse⟩, ⟨8, 8, .hwi, .fuse⟩]⟩,
  ⟨0x8, true, [⟨0, 64, .hwi, .fuse⟩]⟩,
  ⟨0x10, false, [⟨0, 1, .rw, .val 0⟩]⟩,
  ⟨0x14, false, [⟨0, 1, .ro, .val 0⟩]⟩,
  ⟨0x18, true, [⟨0, 28, .ro, .val 0⟩, ⟨28, 4, .ro, .val 0⟩, ⟨32, 4, .ro, .val 0⟩, ⟨36, 1, .ro, .val 0⟩, ⟨63, 1, .w1c, .val 0⟩]⟩,
  ⟨0x20, true, [⟨0, 64, .ro, .val 0⟩]⟩,
  ⟨0x1000, true, [⟨12, 36, .rwl, .val 0⟩]⟩,
  ⟨0x1008, true, [⟨12, 36, .rwl, .val 0⟩]⟩,
  ⟨0x1010, false, [⟨0, 11, .ro, .val 0⟩]⟩,
  ⟨0x1018, false, [⟨0, 20, .wo, .val 0⟩, ⟨20, 4, .wo, .val 0⟩]⟩,
  ⟨0x101C, false, [⟨0, 2, .ro, .val 0⟩, ⟨8, 8, .ro, .val 0⟩]⟩]

/-- Registers of the mod block. -/
def modRegs1 : List RegDef := [
  ⟨0x2000, false, [⟨0, 16, .ro, .val 1⟩, ⟨16, 16, .ro, .val 0⟩]⟩,
  ⟨0x2004, false, [⟨0, 16, .wo, .val 0⟩]⟩,
  ⟨0x2008, false, [⟨0, 1, .ro, .val 0⟩, ⟨1, 1, .w1c, .val 0⟩, ⟨16, 16, .ro, .val 0⟩]⟩,
  ⟨0x200C, false, [⟨0, 18, .rw, .val 0⟩, ⟨31, 1, .rw, .val 0⟩]⟩,
  ⟨0x2100, false, [⟨0, 1, .rw, .val 0⟩, ⟨1, 1, .rw, .val 0⟩]⟩,
  ⟨0x2104, false, [⟨0, 1, .ro, .val 0⟩, ⟨1, 1, .ro, .val 0⟩]⟩,
  ⟨0x2110, false, [⟨0, 7, .rw, .val 30⟩, ⟨7, 1, .rw, .val 1⟩, ⟨8, 8, .rw, .val 10⟩, ⟨16, 4, .rw, .val 2⟩, ⟨20, 7, .rw, .val 75⟩]⟩,
  ⟨0x2114, false, [⟨0, 7, .ro, .val 30⟩, ⟨7, 1, .ro, .val 1⟩, ⟨8, 8, .ro, .val 10⟩, ⟨16, 4, .ro, .val 2⟩, ⟨20, 7, .ro, .val 75⟩]⟩,
  ⟨0x3000, true, [⟨12, 36, .rwl, .val 0⟩]⟩,
  ⟨0x3008, false, [⟨0, 5, .rwl, .val 4⟩, ⟨16, 15, .rw, .val 0⟩, ⟨31, 1, .rw, .val 0⟩]⟩,
  ⟨0x300C, false, [⟨0, 32, .ro, .val 0⟩]⟩,
  ⟨0x3010, false, [⟨0, 32, .rw, .val 0⟩]⟩]

/-- Registers of the mod block. -/
def modRegs2 : List RegDef := [
  ⟨0x3018, true, [⟨0, 32, .wo, .val 0⟩, ⟨32, 2, .wo, .val 0⟩]⟩,
  ⟨0x3020, false, [⟨0, 13, .ro, .val 0⟩, ⟨16, 1, .ro, .val 0⟩, ⟨17, 1, .ro, .val 0⟩]⟩,
  ⟨0x3024, false, [⟨0, 16, .rw, .val 1000⟩]⟩,
  ⟨0x3028, false, [⟨0, 1, .w1c, .val 0⟩, ⟨1, 1, .w1c, .val 0⟩, ⟨2, 1, .w1c, .val 0⟩]⟩]


/-- Field of the pwr block. -/
def PWR_STATUS_FIXED_FREQ : Fld := ⟨0x0, 0, 1⟩
/-- Field of the pwr block. -/
def PWR_STATUS_SOURCE : Fld := ⟨0x0, 1, 2⟩
/-- Field of the pwr block. -/
def PWR_STATUS_FLOOR_HELD : Fld := ⟨0x0, 3, 1⟩
/-- Field of the pwr block. -/
def PWR_STATUS_WAIT : Fld := ⟨0x0, 4, 1⟩
/-- Field of the pwr block. -/
def PWR_STATUS_ASLEEP : Fld := ⟨0x0, 5, 1⟩
/-- Field of the pwr block. -/
def PWR_STATUS_STAGGER : Fld := ⟨0x0, 6, 1⟩
/-- Field of the pwr block. -/
def PWR_STATUS_THERMAL_CAP : Fld := ⟨0x0, 7, 1⟩
/-- Field of the pwr block. -/
def PWR_STATUS_GRID_HINT : Fld := ⟨0x0, 8, 1⟩
/-- Field of the pwr block. -/
def PWR_STATUS_WAKE : Fld := ⟨0x0, 9, 1⟩
/-- Field of the pwr block. -/
def PWR_CTL_LOCK : Fld := ⟨0x4, 0, 1⟩
/-- Field of the pwr block. -/
def PWR_CTL_WAKE_REQ : Fld := ⟨0x4, 1, 1⟩
/-- Field of the pwr block. -/
def PWR_ERR_RAMP_BREACH : Fld := ⟨0x8, 0, 1⟩
/-- Field of the pwr block. -/
def PWR_ERR_SENSOR_FALLBACK : Fld := ⟨0x8, 1, 1⟩
/-- Field of the pwr block. -/
def PWR_ERR_RAIL_FAULT : Fld := ⟨0x8, 2, 1⟩
/-- Field of the pwr block. -/
def PWR_ERR_THERMAL_TRIP : Fld := ⟨0x8, 3, 1⟩
/-- Field of the pwr block. -/
def PWR_ERR_TAKEOVER : Fld := ⟨0x8, 4, 1⟩
/-- Field of the pwr block. -/
def PWR_ERR_OPTICS_LATCHED : Fld := ⟨0x8, 5, 1⟩
/-- Field of the pwr block. -/
def PWR_ERR_BALLAST_SHORT : Fld := ⟨0x8, 6, 1⟩
/-- Field of the pwr block. -/
def PWR_LIMIT_LIMIT : Fld := ⟨0x10, 0, 12⟩
/-- Field of the pwr block. -/
def PWR_LIMIT_FIXED_FREQ : Fld := ⟨0x10, 31, 1⟩
/-- Field of the pwr block. -/
def PWR_GRID_RAMP : Fld := ⟨0x14, 0, 8⟩
/-- Field of the pwr block. -/
def PWR_GRID_FLOOR_PCT : Fld := ⟨0x14, 8, 7⟩
/-- Field of the pwr block. -/
def PWR_GRID_FLOOR_EN : Fld := ⟨0x14, 15, 1⟩
/-- Field of the pwr block. -/
def PWR_GRID_WAKE_IDLE : Fld := ⟨0x14, 16, 8⟩
/-- Field of the pwr block. -/
def PWR_STAGGER_STEP_US : Fld := ⟨0x18, 0, 16⟩
/-- Field of the pwr block. -/
def PWR_STAGGER_SLOTS_LOG2 : Fld := ⟨0x18, 16, 4⟩
/-- Field of the pwr block. -/
def PWR_STAGGER_MULT_MULT : Fld := ⟨0x1C, 0, 32⟩
/-- Field of the pwr block. -/
def PWR_NOW_POWER : Fld := ⟨0x20, 0, 16⟩
/-- Field of the pwr block. -/
def PWR_NOW_BALLAST : Fld := ⟨0x20, 16, 16⟩
/-- Field of the pwr block. -/
def PWR_GRANT_GRANT : Fld := ⟨0x24, 0, 16⟩
/-- Field of the pwr block. -/
def PWR_GRANT_WAITING : Fld := ⟨0x24, 16, 16⟩
/-- Field of the pwr block. -/
def PWR_TEMP_TJ_EAST : Fld := ⟨0x28, 0, 8⟩
/-- Field of the pwr block. -/
def PWR_TEMP_TJ_WEST : Fld := ⟨0x28, 8, 8⟩
/-- Field of the pwr block. -/
def PWR_TEMP_CAP_EAST : Fld := ⟨0x28, 16, 8⟩
/-- Field of the pwr block. -/
def PWR_TEMP_CAP_WEST : Fld := ⟨0x28, 24, 8⟩
/-- Field of the pwr block. -/
def PWR_STAGGER_NOW_DELAY_US : Fld := ⟨0x2C, 0, 28⟩
/-- Field of the pwr block. -/
def PWR_OPTICS_CTL_ON : Fld := ⟨0x30, 0, 9⟩
/-- Field of the pwr block. -/
def PWR_OPTICS_CTL_RETRY_MS : Fld := ⟨0x30, 16, 16⟩
/-- Field of the pwr block. -/
def PWR_OPTICS_STATUS_POWERED : Fld := ⟨0x34, 0, 9⟩
/-- Field of the pwr block. -/
def PWR_OPTICS_STATUS_FAULT : Fld := ⟨0x34, 9, 9⟩
/-- Field of the pwr block. -/
def PWR_MGR_LEAD : Fld := ⟨0x38, 0, 1⟩
/-- Field of the pwr block. -/
def PWR_MGR_FOLLOWER_OK : Fld := ⟨0x38, 1, 1⟩
/-- Field of the pwr block. -/
def PWR_MGR_TAKEOVERS : Fld := ⟨0x38, 16, 16⟩
/-- Field of the pwr block. -/
def PWR_ENERGY : Fld := ⟨0x40, 0, 64⟩
/-- Field of the pwr block. -/
def PWR_BALLAST_ENERGY : Fld := ⟨0x48, 0, 64⟩
/-- Field of the pwr block. -/
def PWR_WAIT_US : Fld := ⟨0x50, 0, 64⟩
/-- Field of the pwr block. -/
def PWR_THROTTLE_US : Fld := ⟨0x58, 0, 64⟩
/-- Field of the pwr block. -/
def PWR_BREACHES : Fld := ⟨0x60, 0, 64⟩
/-- Field of the pwr block. -/
def PWR_LIMIT_CUR_LIMIT : Fld := ⟨0x110, 0, 12⟩
/-- Field of the pwr block. -/
def PWR_LIMIT_CUR_FIXED_FREQ : Fld := ⟨0x110, 31, 1⟩
/-- Field of the pwr block. -/
def PWR_GRID_CUR_RAMP : Fld := ⟨0x114, 0, 8⟩
/-- Field of the pwr block. -/
def PWR_GRID_CUR_FLOOR_PCT : Fld := ⟨0x114, 8, 7⟩
/-- Field of the pwr block. -/
def PWR_GRID_CUR_FLOOR_EN : Fld := ⟨0x114, 15, 1⟩
/-- Field of the pwr block. -/
def PWR_GRID_CUR_WAKE_IDLE : Fld := ⟨0x114, 16, 8⟩
/-- Field of the pwr block. -/
def PWR_STAGGER_CUR_STEP_US : Fld := ⟨0x118, 0, 16⟩
/-- Field of the pwr block. -/
def PWR_STAGGER_CUR_SLOTS_LOG2 : Fld := ⟨0x118, 16, 4⟩
/-- Field of the pwr block. -/
def PWR_STAGGER_MULT_CUR_MULT : Fld := ⟨0x11C, 0, 32⟩

/-- Registers of the pwr block. -/
def pwrRegs0 : List RegDef := [
  ⟨0x0, false, [⟨0, 1, .ro, .val 1⟩, ⟨1, 2, .ro, .val 0⟩, ⟨3, 1, .ro, .val 0⟩, ⟨4, 1, .ro, .val 0⟩, ⟨5, 1, .ro, .val 1⟩, ⟨6, 1, .ro, .val 0⟩, ⟨7, 1, .ro, .val 0⟩, ⟨8, 1, .ro, .val 0⟩, ⟨9, 1, .ro, .val 0⟩]⟩,
  ⟨0x4, false, [⟨0, 1, .rw, .val 0⟩, ⟨1, 1, .wo, .val 0⟩]⟩,
  ⟨0x8, false, [⟨0, 1, .w1c, .val 0⟩, ⟨1, 1, .w1c, .val 0⟩, ⟨2, 1, .w1c, .val 0⟩, ⟨3, 1, .w1c, .val 0⟩, ⟨4, 1, .w1c, .val 0⟩, ⟨5, 1, .w1c, .val 0⟩, ⟨6, 1, .w1c, .val 0⟩]⟩,
  ⟨0x10, false, [⟨0, 12, .rw, .val 2400⟩, ⟨31, 1, .rw, .val 1⟩]⟩,
  ⟨0x14, false, [⟨0, 8, .rw, .val 20⟩, ⟨8, 7, .rw, .val 60⟩, ⟨15, 1, .rw, .val 0⟩, ⟨16, 8, .rw, .val 10⟩]⟩,
  ⟨0x18, false, [⟨0, 16, .rw, .val 250⟩, ⟨16, 4, .rw, .val 10⟩]⟩,
  ⟨0x1C, false, [⟨0, 32, .rw, .val 40503⟩]⟩,
  ⟨0x20, false, [⟨0, 16, .ro, .val 0⟩, ⟨16, 16, .ro, .val 0⟩]⟩,
  ⟨0x24, false, [⟨0, 16, .ro, .val 0⟩, ⟨16, 16, .ro, .val 0⟩]⟩,
  ⟨0x28, false, [⟨0, 8, .ro, .val 0⟩, ⟨8, 8, .ro, .val 0⟩, ⟨16, 8, .ro, .val 100⟩, ⟨24, 8, .ro, .val 100⟩]⟩,
  ⟨0x2C, false, [⟨0, 28, .ro, .val 0⟩]⟩,
  ⟨0x30, false, [⟨0, 9, .rw, .val 511⟩, ⟨16, 16, .rw, .val 100⟩]⟩]

/-- Registers of the pwr block. -/
def pwrRegs1 : List RegDef := [
  ⟨0x34, false, [⟨0, 9, .ro, .val 0⟩, ⟨9, 9, .w1c, .val 0⟩]⟩,
  ⟨0x38, false, [⟨0, 1, .ro, .val 0⟩, ⟨1, 1, .ro, .val 0⟩, ⟨16, 16, .ro, .val 0⟩]⟩,
  ⟨0x40, true, [⟨0, 64, .ro, .val 0⟩]⟩,
  ⟨0x48, true, [⟨0, 64, .ro, .val 0⟩]⟩,
  ⟨0x50, true, [⟨0, 64, .ro, .val 0⟩]⟩,
  ⟨0x58, true, [⟨0, 64, .ro, .val 0⟩]⟩,
  ⟨0x60, true, [⟨0, 64, .ro, .val 0⟩]⟩,
  ⟨0x110, false, [⟨0, 12, .ro, .val 2400⟩, ⟨31, 1, .ro, .val 1⟩]⟩,
  ⟨0x114, false, [⟨0, 8, .ro, .val 20⟩, ⟨8, 7, .ro, .val 60⟩, ⟨15, 1, .ro, .val 0⟩, ⟨16, 8, .ro, .val 10⟩]⟩,
  ⟨0x118, false, [⟨0, 16, .ro, .val 250⟩, ⟨16, 4, .ro, .val 10⟩]⟩,
  ⟨0x11C, false, [⟨0, 32, .ro, .val 40503⟩]⟩]


/-- Field of the mgt block. -/
def MGT_STATUS_OUTPUTS : Fld := ⟨0x0, 0, 2⟩
/-- Field of the mgt block. -/
def MGT_STATUS_ALERT : Fld := ⟨0x0, 2, 1⟩
/-- Field of the mgt block. -/
def MGT_STATUS_NV_OK : Fld := ⟨0x0, 3, 1⟩
/-- Field of the mgt block. -/
def MGT_CTL_LOCK : Fld := ⟨0x4, 0, 1⟩
/-- Field of the mgt block. -/
def MGT_CTL_ALERT_SEV : Fld := ⟨0x4, 1, 3⟩
/-- Field of the mgt block. -/
def MGT_ALERT_PENDING : Fld := ⟨0x8, 0, 1⟩
/-- Field of the mgt block. -/
def MGT_LOG_NEXT_NEXT : Fld := ⟨0xC, 0, 32⟩
/-- Field of the mgt block. -/
def MGT_FW_MC_RUN : Fld := ⟨0x10, 0, 1⟩
/-- Field of the mgt block. -/
def MGT_FW_MC_A_OK : Fld := ⟨0x10, 1, 1⟩
/-- Field of the mgt block. -/
def MGT_FW_MC_B_OK : Fld := ⟨0x10, 2, 1⟩
/-- Field of the mgt block. -/
def MGT_FW_QP_RUN : Fld := ⟨0x10, 4, 1⟩
/-- Field of the mgt block. -/
def MGT_FW_QP_A_OK : Fld := ⟨0x10, 5, 1⟩
/-- Field of the mgt block. -/
def MGT_FW_QP_B_OK : Fld := ⟨0x10, 6, 1⟩
/-- Field of the mgt block. -/
def MGT_FW_AIH_RUN : Fld := ⟨0x10, 8, 1⟩
/-- Field of the mgt block. -/
def MGT_FW_AIH_A_OK : Fld := ⟨0x10, 9, 1⟩
/-- Field of the mgt block. -/
def MGT_FW_AIH_B_OK : Fld := ⟨0x10, 10, 1⟩
/-- Field of the mgt block. -/
def MGT_FW_ACTIVE : Fld := ⟨0x10, 16, 1⟩
/-- Field of the mgt block. -/
def MGT_FW_ACTIVE_UNIT : Fld := ⟨0x10, 17, 2⟩
/-- Field of the mgt block. -/
def MGT_CAP0_HOST : Fld := ⟨0x14, 0, 7⟩
/-- Field of the mgt block. -/
def MGT_CAP0_DRILL : Fld := ⟨0x14, 8, 8⟩
/-- Field of the mgt block. -/
def MGT_CAP0_HARROW : Fld := ⟨0x14, 16, 6⟩
/-- Field of the mgt block. -/
def MGT_CAP0_DMA : Fld := ⟨0x14, 24, 6⟩
/-- Field of the mgt block. -/
def MGT_CAP1_QPR : Fld := ⟨0x18, 0, 6⟩
/-- Field of the mgt block. -/
def MGT_CAP1_FURROW : Fld := ⟨0x18, 8, 2⟩
/-- Field of the mgt block. -/
def MGT_CAP1_BALK : Fld := ⟨0x18, 10, 5⟩
/-- Field of the mgt block. -/
def MGT_CAP1_PHASE_CAP : Fld := ⟨0x18, 15, 1⟩
/-- Field of the mgt block. -/
def MGT_WDOG_TIMEOUT_MS : Fld := ⟨0x1C, 0, 16⟩
/-- Field of the mgt block. -/
def MGT_EVENTS : Fld := ⟨0x20, 0, 64⟩
/-- Field of the mgt block. -/
def MGT_MC_RESETS : Fld := ⟨0x28, 0, 64⟩
/-- Field of the mgt block. -/
def MGT_ENGINE_RESETS : Fld := ⟨0x30, 0, 64⟩

/-- Registers of the mgt block. -/
def mgtRegs0 : List RegDef := [
  ⟨0x0, false, [⟨0, 2, .ro, .val 0⟩, ⟨2, 1, .ro, .val 0⟩, ⟨3, 1, .ro, .val 1⟩]⟩,
  ⟨0x4, false, [⟨0, 1, .rw, .val 0⟩, ⟨1, 3, .rwl, .val 3⟩]⟩,
  ⟨0x8, false, [⟨0, 1, .w1c, .val 0⟩]⟩,
  ⟨0xC, false, [⟨0, 32, .ro, .val 0⟩]⟩,
  ⟨0x10, false, [⟨0, 1, .ro, .val 0⟩, ⟨1, 1, .ro, .val 1⟩, ⟨2, 1, .ro, .val 0⟩, ⟨4, 1, .ro, .val 0⟩, ⟨5, 1, .ro, .val 1⟩, ⟨6, 1, .ro, .val 0⟩, ⟨8, 1, .ro, .val 0⟩, ⟨9, 1, .ro, .val 1⟩, ⟨10, 1, .ro, .val 0⟩, ⟨16, 1, .ro, .val 0⟩, ⟨17, 2, .ro, .val 0⟩]⟩,
  ⟨0x14, false, [⟨0, 7, .ro, .val 72⟩, ⟨8, 8, .ro, .val 128⟩, ⟨16, 6, .ro, .val 32⟩, ⟨24, 6, .ro, .val 32⟩]⟩,
  ⟨0x18, false, [⟨0, 6, .ro, .val 32⟩, ⟨8, 2, .ro, .val 2⟩, ⟨10, 5, .ro, .val 20⟩, ⟨15, 1, .ro, .val 0⟩]⟩,
  ⟨0x1C, false, [⟨0, 16, .rwl, .val 50⟩]⟩,
  ⟨0x20, true, [⟨0, 64, .ro, .val 0⟩]⟩,
  ⟨0x28, true, [⟨0, 64, .ro, .val 0⟩]⟩,
  ⟨0x30, true, [⟨0, 64, .ro, .val 0⟩]⟩]


/-- Field of the start block. -/
def MGT_START_PHASE : Fld := ⟨0x0, 0, 4⟩
/-- Field of the start block. -/
def MGT_START_FULL : Fld := ⟨0x0, 4, 1⟩
/-- Field of the start block. -/
def MGT_START_STOPPED : Fld := ⟨0x0, 5, 1⟩
/-- Field of the start block. -/
def MGT_START_STOP_PHASE : Fld := ⟨0x0, 8, 4⟩
/-- Field of the start block. -/
def MGT_START_MS_MS : Fld := ⟨0x4, 0, 32⟩
/-- Field of the start block. -/
def MGT_HOST_RELEASE_RELEASE : Fld := ⟨0x8, 0, 1⟩
/-- Field of the start block. -/
def MGT_STRAP_PCX0_ROLE : Fld := ⟨0xC, 0, 1⟩
/-- Field of the start block. -/
def MGT_STRAP_PCX1_ROLE : Fld := ⟨0xC, 1, 1⟩
/-- Field of the start block. -/
def MGT_STRAP_SMB_ADDR : Fld := ⟨0xC, 2, 3⟩
/-- Field of the start block. -/
def MGT_STRAP_HOST_HOLD : Fld := ⟨0xC, 5, 1⟩
/-- Field of the start block. -/
def MGT_STRAP_FULL_TEST : Fld := ⟨0xC, 6, 1⟩
/-- Field of the start block. -/
def MGT_STRAP_FW_ALT : Fld := ⟨0xC, 7, 1⟩
/-- Field of the start block. -/
def MGT_ST_STATUS_ACTIVE : Fld := ⟨0x10, 0, 1⟩
/-- Field of the start block. -/
def MGT_ST_STATUS_WAITING : Fld := ⟨0x10, 1, 1⟩
/-- Field of the start block. -/
def MGT_ST_STATUS_KIND : Fld := ⟨0x10, 2, 4⟩
/-- Field of the start block. -/
def MGT_ST_STATUS_HALF : Fld := ⟨0x10, 6, 1⟩
/-- Field of the start block. -/
def MGT_ST_STATUS_INDEX : Fld := ⟨0x10, 8, 16⟩
/-- Field of the start block. -/
def MGT_FW_WIN_CTL_UNIT : Fld := ⟨0x14, 0, 2⟩
/-- Field of the start block. -/
def MGT_FW_WIN_CTL_IMAGE : Fld := ⟨0x14, 2, 1⟩
/-- Field of the start block. -/
def MGT_FW_WIN_CTL_BASE : Fld := ⟨0x14, 8, 24⟩
/-- Field of the start block. -/
def MGT_ST_LAST0_REPLY : Fld := ⟨0x18, 0, 32⟩
/-- Field of the start block. -/
def MGT_ST_LAST1_REPLY : Fld := ⟨0x1C, 0, 32⟩
/-- Field of the start block. -/
def MGT_ST_LAST2_REPLY : Fld := ⟨0x20, 0, 32⟩
/-- Field of the start block. -/
def MGT_ST_LAST3_REPLY : Fld := ⟨0x24, 0, 32⟩
/-- Field of the start block. -/
def MGT_ST_LAST4_REPLY : Fld := ⟨0x28, 0, 32⟩
/-- Field of the start block. -/
def MGT_ST_LAST5_REPLY : Fld := ⟨0x2C, 0, 32⟩
/-- Field of the start block. -/
def MGT_ST_LAST6_REPLY : Fld := ⟨0x30, 0, 32⟩
/-- Field of the start block. -/
def MGT_ST_LAST7_REPLY : Fld := ⟨0x34, 0, 32⟩
/-- Field of the start block. -/
def MGT_ST_LAST8_REPLY : Fld := ⟨0x38, 0, 32⟩
/-- Field of the start block. -/
def MGT_ST_LAST9_REPLY : Fld := ⟨0x3C, 0, 32⟩
/-- Field of the start block. -/
def MGT_ST_PASS : Fld := ⟨0x40, 0, 64⟩
/-- Field of the start block. -/
def MGT_ST_FAIL : Fld := ⟨0x48, 0, 64⟩
/-- Field of the start block. -/
def MGT_ST_NOTRUN : Fld := ⟨0x50, 0, 64⟩

/-- Registers of the start block. -/
def startRegs0 : List RegDef := [
  ⟨0x0, false, [⟨0, 4, .ro, .val 0⟩, ⟨4, 1, .ro, .val 0⟩, ⟨5, 1, .ro, .val 0⟩, ⟨8, 4, .ro, .val 0⟩]⟩,
  ⟨0x4, false, [⟨0, 32, .ro, .val 0⟩]⟩,
  ⟨0x8, false, [⟨0, 1, .wo, .val 0⟩]⟩,
  ⟨0xC, false, [⟨0, 1, .hwi, .val 0⟩, ⟨1, 1, .hwi, .val 0⟩, ⟨2, 3, .hwi, .val 0⟩, ⟨5, 1, .hwi, .val 0⟩, ⟨6, 1, .hwi, .val 0⟩, ⟨7, 1, .hwi, .val 0⟩]⟩,
  ⟨0x10, false, [⟨0, 1, .ro, .val 0⟩, ⟨1, 1, .ro, .val 0⟩, ⟨2, 4, .ro, .val 0⟩, ⟨6, 1, .ro, .val 0⟩, ⟨8, 16, .ro, .val 0⟩]⟩,
  ⟨0x14, false, [⟨0, 2, .rw, .val 0⟩, ⟨2, 1, .rw, .val 0⟩, ⟨8, 24, .rw, .val 0⟩]⟩,
  ⟨0x18, false, [⟨0, 32, .ro, .val 0⟩]⟩,
  ⟨0x1C, false, [⟨0, 32, .ro, .val 0⟩]⟩,
  ⟨0x20, false, [⟨0, 32, .ro, .val 0⟩]⟩,
  ⟨0x24, false, [⟨0, 32, .ro, .val 0⟩]⟩,
  ⟨0x28, false, [⟨0, 32, .ro, .val 0⟩]⟩,
  ⟨0x2C, false, [⟨0, 32, .ro, .val 0⟩]⟩]

/-- Registers of the start block. -/
def startRegs1 : List RegDef := [
  ⟨0x30, false, [⟨0, 32, .ro, .val 0⟩]⟩,
  ⟨0x34, false, [⟨0, 32, .ro, .val 0⟩]⟩,
  ⟨0x38, false, [⟨0, 32, .ro, .val 0⟩]⟩,
  ⟨0x3C, false, [⟨0, 32, .ro, .val 0⟩]⟩,
  ⟨0x40, true, [⟨0, 64, .ro, .val 0⟩]⟩,
  ⟨0x48, true, [⟨0, 64, .ro, .val 0⟩]⟩,
  ⟨0x50, true, [⟨0, 64, .ro, .val 0⟩]⟩]


/-- Field of the net block. -/
def MGT_NET_CTL_ENABLE : Fld := ⟨0x0, 0, 1⟩
/-- Field of the net block. -/
def MGT_NET_CTL_IPV6 : Fld := ⟨0x0, 1, 1⟩
/-- Field of the net block. -/
def MGT_NET_MAC : Fld := ⟨0x8, 0, 48⟩
/-- Field of the net block. -/
def MGT_NET_IP4 : Fld := ⟨0x10, 0, 32⟩
/-- Field of the net block. -/
def MGT_NET_IP6_0 : Fld := ⟨0x20, 0, 32⟩
/-- Field of the net block. -/
def MGT_NET_IP6_1 : Fld := ⟨0x24, 0, 32⟩
/-- Field of the net block. -/
def MGT_NET_IP6_2 : Fld := ⟨0x28, 0, 32⟩
/-- Field of the net block. -/
def MGT_NET_IP6_3 : Fld := ⟨0x2C, 0, 32⟩
/-- Field of the net block. -/
def MGT_NET_ACCEPTED : Fld := ⟨0x30, 0, 64⟩
/-- Field of the net block. -/
def MGT_NET_DISCARDED : Fld := ⟨0x38, 0, 64⟩

/-- Registers of the net block. -/
def netRegs0 : List RegDef := [
  ⟨0x0, false, [⟨0, 1, .rwl, .val 0⟩, ⟨1, 1, .rwl, .val 0⟩]⟩,
  ⟨0x8, true, [⟨0, 48, .hwi, .fuse⟩]⟩,
  ⟨0x10, false, [⟨0, 32, .rwl, .val 0⟩]⟩,
  ⟨0x20, false, [⟨0, 32, .rwl, .val 0⟩]⟩,
  ⟨0x24, false, [⟨0, 32, .rwl, .val 0⟩]⟩,
  ⟨0x28, false, [⟨0, 32, .rwl, .val 0⟩]⟩,
  ⟨0x2C, false, [⟨0, 32, .rwl, .val 0⟩]⟩,
  ⟨0x30, true, [⟨0, 64, .ro, .val 0⟩]⟩,
  ⟨0x38, true, [⟨0, 64, .ro, .val 0⟩]⟩,
  ⟨0x100, false, [⟨0, 32, .rwl, .val 0⟩]⟩,
  ⟨0x104, false, [⟨0, 32, .rwl, .val 0⟩]⟩,
  ⟨0x108, false, [⟨0, 32, .rwl, .val 0⟩]⟩]

/-- Registers of the net block. -/
def netRegs1 : List RegDef := [
  ⟨0x10C, false, [⟨0, 32, .rwl, .val 0⟩]⟩,
  ⟨0x110, false, [⟨0, 8, .rwl, .val 0⟩, ⟨8, 1, .rwl, .val 0⟩, ⟨9, 1, .rwl, .val 0⟩]⟩]


/-- Field of the half block. -/
def MOD_HALF_STATUS_HALF : Fld := ⟨0x0, 0, 1⟩
/-- Field of the half block. -/
def MOD_HALF_STATUS_READY : Fld := ⟨0x0, 1, 1⟩
/-- Field of the half block. -/
def MOD_HALF_STATUS_FURROW : Fld := ⟨0x0, 2, 1⟩
/-- Field of the half block. -/
def MOD_HALF_STATUS_HARROWS : Fld := ⟨0x0, 3, 5⟩
/-- Field of the half block. -/
def MOD_HALF_STATUS_DRILL : Fld := ⟨0x0, 8, 7⟩
/-- Field of the half block. -/
def MOD_HALF_STATUS_DMA : Fld := ⟨0x0, 15, 5⟩
/-- Field of the half block. -/
def MOD_HALF_STATUS_QPR : Fld := ⟨0x0, 20, 5⟩
/-- Field of the half block. -/
def MOD_HALF_STATUS_HOST : Fld := ⟨0x0, 25, 6⟩
/-- Field of the half block. -/
def MOD_HALF_TEMP_TJ : Fld := ⟨0x4, 0, 8⟩
/-- Field of the half block. -/
def MOD_HALF_TEMP_STACK : Fld := ⟨0x4, 8, 8⟩
/-- Field of the half block. -/
def MOD_HALF_TEMP_PACKAGE : Fld := ⟨0x4, 16, 8⟩
/-- Field of the half block. -/
def MOD_HALF_CYCLES_CYCLES : Fld := ⟨0x8, 0, 64⟩

/-- Registers of the half block. -/
def halfRegs0 : List RegDef := [
  ⟨0x0, false, [⟨0, 1, .hwi, .half⟩, ⟨1, 1, .ro, .val 0⟩, ⟨2, 1, .ro, .val 1⟩, ⟨3, 5, .ro, .val 16⟩, ⟨8, 7, .ro, .val 64⟩, ⟨15, 5, .ro, .val 16⟩, ⟨20, 5, .ro, .val 16⟩, ⟨25, 6, .ro, .val 36⟩]⟩,
  ⟨0x4, false, [⟨0, 8, .ro, .val 0⟩, ⟨8, 8, .ro, .val 0⟩, ⟨16, 8, .ro, .val 0⟩]⟩,
  ⟨0x8, true, [⟨0, 64, .ro, .val 0⟩]⟩]


/-- Field of the fur block. -/
def FUR_STATUS_STATE : Fld := ⟨0x0, 0, 3⟩
/-- Field of the fur block. -/
def FUR_STATUS_TANDEM : Fld := ⟨0x0, 3, 1⟩
/-- Field of the fur block. -/
def FUR_STATUS_CLK_LOCKED : Fld := ⟨0x0, 4, 1⟩
/-- Field of the fur block. -/
def FUR_STATUS_EPI : Fld := ⟨0x0, 5, 1⟩
/-- Field of the fur block. -/
def FUR_CTL_IDLE_STOP : Fld := ⟨0x4, 0, 16⟩
/-- Field of the fur block. -/
def FUR_MAP_ROWS_SPARED : Fld := ⟨0x8, 0, 3⟩
/-- Field of the fur block. -/
def FUR_MAP_COLS_SPARED : Fld := ⟨0x8, 8, 5⟩
/-- Field of the fur block. -/
def FUR_MAP_BAND_TEST : Fld := ⟨0x8, 16, 1⟩
/-- Field of the fur block. -/
def FUR_ERR_FEED_PARITY : Fld := ⟨0xC, 0, 1⟩
/-- Field of the fur block. -/
def FUR_ERR_PLANE_PARITY : Fld := ⟨0xC, 1, 1⟩
/-- Field of the fur block. -/
def FUR_ERR_RERUN : Fld := ⟨0xC, 2, 1⟩
/-- Field of the fur block. -/
def FUR_TILES : Fld := ⟨0x10, 0, 64⟩
/-- Field of the fur block. -/
def FUR_CYC_COMPUTE : Fld := ⟨0x18, 0, 64⟩
/-- Field of the fur block. -/
def FUR_CYC_STALL_BANK : Fld := ⟨0x20, 0, 64⟩
/-- Field of the fur block. -/
def FUR_CYC_STALL_PLANE : Fld := ⟨0x28, 0, 64⟩
/-- Field of the fur block. -/
def FUR_CYC_STALL_EXT : Fld := ⟨0x30, 0, 64⟩

/-- Registers of the fur block. -/
def furRegs0 : List RegDef := [
  ⟨0x0, false, [⟨0, 3, .ro, .val 0⟩, ⟨3, 1, .ro, .val 0⟩, ⟨4, 1, .ro, .val 0⟩, ⟨5, 1, .ro, .val 0⟩]⟩,
  ⟨0x4, false, [⟨0, 16, .rw, .val 50⟩]⟩,
  ⟨0x8, false, [⟨0, 3, .ro, .val 0⟩, ⟨8, 5, .ro, .val 0⟩, ⟨16, 1, .ro, .val 0⟩]⟩,
  ⟨0xC, false, [⟨0, 1, .w1c, .val 0⟩, ⟨1, 1, .w1c, .val 0⟩, ⟨2, 1, .w1c, .val 0⟩]⟩,
  ⟨0x10, true, [⟨0, 64, .ro, .val 0⟩]⟩,
  ⟨0x18, true, [⟨0, 64, .ro, .val 0⟩]⟩,
  ⟨0x20, true, [⟨0, 64, .ro, .val 0⟩]⟩,
  ⟨0x28, true, [⟨0, 64, .ro, .val 0⟩]⟩,
  ⟨0x30, true, [⟨0, 64, .ro, .val 0⟩]⟩]


/-- Field of the har block. -/
def HAR_STATUS_STATE : Fld := ⟨0x0, 0, 3⟩
/-- Field of the har block. -/
def HAR_STATUS_PHASE2 : Fld := ⟨0x0, 3, 1⟩
/-- Field of the har block. -/
def HAR_CTL_IDLE_GATE : Fld := ⟨0x4, 0, 16⟩
/-- Field of the har block. -/
def HAR_ERR_REG_PARITY : Fld := ⟨0x8, 0, 1⟩
/-- Field of the har block. -/
def HAR_ERR_ROWBUF_PARITY : Fld := ⟨0x8, 1, 1⟩
/-- Field of the har block. -/
def HAR_ERR_RERUN : Fld := ⟨0x8, 2, 1⟩
/-- Field of the har block. -/
def HAR_STEPS : Fld := ⟨0x10, 0, 64⟩
/-- Field of the har block. -/
def HAR_CYC_BUSY : Fld := ⟨0x18, 0, 64⟩
/-- Field of the har block. -/
def HAR_CYC_STALL_IN : Fld := ⟨0x20, 0, 64⟩
/-- Field of the har block. -/
def HAR_CYC_STALL_OUT : Fld := ⟨0x28, 0, 64⟩
/-- Field of the har block. -/
def HAR_CYC_STALL_EXT : Fld := ⟨0x30, 0, 64⟩

/-- Registers of the har block. -/
def harRegs0 : List RegDef := [
  ⟨0x0, false, [⟨0, 3, .ro, .val 0⟩, ⟨3, 1, .ro, .val 0⟩]⟩,
  ⟨0x4, false, [⟨0, 16, .rw, .val 20⟩]⟩,
  ⟨0x8, false, [⟨0, 1, .w1c, .val 0⟩, ⟨1, 1, .w1c, .val 0⟩, ⟨2, 1, .w1c, .val 0⟩]⟩,
  ⟨0x10, true, [⟨0, 64, .ro, .val 0⟩]⟩,
  ⟨0x18, true, [⟨0, 64, .ro, .val 0⟩]⟩,
  ⟨0x20, true, [⟨0, 64, .ro, .val 0⟩]⟩,
  ⟨0x28, true, [⟨0, 64, .ro, .val 0⟩]⟩,
  ⟨0x30, true, [⟨0, 64, .ro, .val 0⟩]⟩]


/-- Field of the drl block. -/
def DRL_STATUS_STATE : Fld := ⟨0x0, 0, 2⟩
/-- Field of the drl block. -/
def DRL_STATUS_BLOCKS : Fld := ⟨0x0, 8, 6⟩
/-- Field of the drl block. -/
def DRL_STATUS_GROUPS : Fld := ⟨0x0, 16, 7⟩
/-- Field of the drl block. -/
def DRL_STATUS_PHYS : Fld := ⟨0x0, 24, 7⟩
/-- Field of the drl block. -/
def DRL_CTL_IDLE_GATE : Fld := ⟨0x4, 0, 16⟩
/-- Field of the drl block. -/
def DRL_ERR_REG_PARITY : Fld := ⟨0x8, 0, 1⟩
/-- Field of the drl block. -/
def DRL_ERR_LOCAL_PARITY : Fld := ⟨0x8, 1, 1⟩
/-- Field of the drl block. -/
def DRL_ERR_L1_PARITY : Fld := ⟨0x8, 2, 1⟩
/-- Field of the drl block. -/
def DRL_ERR_LOCAL_RANGE : Fld := ⟨0x8, 3, 1⟩
/-- Field of the drl block. -/
def DRL_ERR_RERUN : Fld := ⟨0x8, 4, 1⟩
/-- Field of the drl block. -/
def DRL_SEQ_SEQ : Fld := ⟨0xC, 0, 32⟩
/-- Field of the drl block. -/
def DRL_INSTR : Fld := ⟨0x10, 0, 64⟩
/-- Field of the drl block. -/
def DRL_CYC_ACTIVE : Fld := ⟨0x18, 0, 64⟩
/-- Field of the drl block. -/
def DRL_CYC_STALL_BANK : Fld := ⟨0x20, 0, 64⟩
/-- Field of the drl block. -/
def DRL_CYC_STALL_MEM : Fld := ⟨0x28, 0, 64⟩
/-- Field of the drl block. -/
def DRL_REQUESTS : Fld := ⟨0x30, 0, 64⟩
/-- Field of the drl block. -/
def DRL_L1_MISS : Fld := ⟨0x38, 0, 64⟩
/-- Field of the drl block. -/
def DRL_CYC_STALL_EXT : Fld := ⟨0x40, 0, 64⟩

/-- Registers of the drl block. -/
def drlRegs0 : List RegDef := [
  ⟨0x0, false, [⟨0, 2, .ro, .val 0⟩, ⟨8, 6, .ro, .val 0⟩, ⟨16, 7, .ro, .val 0⟩, ⟨24, 7, .hwi, .inst⟩]⟩,
  ⟨0x4, false, [⟨0, 16, .rw, .val 20⟩]⟩,
  ⟨0x8, false, [⟨0, 1, .w1c, .val 0⟩, ⟨1, 1, .w1c, .val 0⟩, ⟨2, 1, .w1c, .val 0⟩, ⟨3, 1, .w1c, .val 0⟩, ⟨4, 1, .w1c, .val 0⟩]⟩,
  ⟨0xC, false, [⟨0, 32, .ro, .val 0⟩]⟩,
  ⟨0x10, true, [⟨0, 64, .ro, .val 0⟩]⟩,
  ⟨0x18, true, [⟨0, 64, .ro, .val 0⟩]⟩,
  ⟨0x20, true, [⟨0, 64, .ro, .val 0⟩]⟩,
  ⟨0x28, true, [⟨0, 64, .ro, .val 0⟩]⟩,
  ⟨0x30, true, [⟨0, 64, .ro, .val 0⟩]⟩,
  ⟨0x38, true, [⟨0, 64, .ro, .val 0⟩]⟩,
  ⟨0x40, true, [⟨0, 64, .ro, .val 0⟩]⟩]


/-- Field of the dma block. -/
def DMA_STATUS_STATE : Fld := ⟨0x0, 0, 2⟩
/-- Field of the dma block. -/
def DMA_STATUS_MIGRATING : Fld := ⟨0x0, 2, 1⟩
/-- Field of the dma block. -/
def DMA_ERR_BUF_PARITY : Fld := ⟨0x4, 0, 1⟩
/-- Field of the dma block. -/
def DMA_ERR_RERUN : Fld := ⟨0x4, 1, 1⟩
/-- Field of the dma block. -/
def DMA_ERR_REMOTE_FAIL : Fld := ⟨0x4, 2, 1⟩
/-- Field of the dma block. -/
def DMA_ERR_INDEX_RANGE : Fld := ⟨0x4, 3, 1⟩
/-- Field of the dma block. -/
def DMA_RD_BYTES : Fld := ⟨0x8, 0, 64⟩
/-- Field of the dma block. -/
def DMA_WR_BYTES : Fld := ⟨0x10, 0, 64⟩
/-- Field of the dma block. -/
def DMA_TILES : Fld := ⟨0x18, 0, 64⟩
/-- Field of the dma block. -/
def DMA_MIG_UNITS : Fld := ⟨0x20, 0, 64⟩
/-- Field of the dma block. -/
def DMA_CYC_STALL_EXT : Fld := ⟨0x28, 0, 64⟩
/-- Field of the dma block. -/
def DMA_REMOTE_TX : Fld := ⟨0x30, 0, 64⟩

/-- Registers of the dma block. -/
def dmaRegs0 : List RegDef := [
  ⟨0x0, false, [⟨0, 2, .ro, .val 0⟩, ⟨2, 1, .ro, .val 0⟩]⟩,
  ⟨0x4, false, [⟨0, 1, .w1c, .val 0⟩, ⟨1, 1, .w1c, .val 0⟩, ⟨2, 1, .w1c, .val 0⟩, ⟨3, 1, .w1c, .val 0⟩]⟩,
  ⟨0x8, true, [⟨0, 64, .ro, .val 0⟩]⟩,
  ⟨0x10, true, [⟨0, 64, .ro, .val 0⟩]⟩,
  ⟨0x18, true, [⟨0, 64, .ro, .val 0⟩]⟩,
  ⟨0x20, true, [⟨0, 64, .ro, .val 0⟩]⟩,
  ⟨0x28, true, [⟨0, 64, .ro, .val 0⟩]⟩,
  ⟨0x30, true, [⟨0, 64, .ro, .val 0⟩]⟩]


/-- Field of the yok block. -/
def YOK_STATUS_WATCH_FREE : Fld := ⟨0x0, 0, 17⟩
/-- Field of the yok block. -/
def YOK_STATUS_WATCH_WAIT : Fld := ⟨0x0, 17, 1⟩
/-- Field of the yok block. -/
def YOK_BAR_STATUS_BAR_FREE : Fld := ⟨0x4, 0, 13⟩
/-- Field of the yok block. -/
def YOK_BAR_STATUS_HELD : Fld := ⟨0x4, 13, 1⟩
/-- Field of the yok block. -/
def YOK_CTL_LOCK : Fld := ⟨0x8, 0, 1⟩
/-- Field of the yok block. -/
def YOK_CTL_VEC_OPEN_BASE : Fld := ⟨0x8, 16, 15⟩
/-- Field of the yok block. -/
def YOK_ERR_CORRECTED : Fld := ⟨0xC, 0, 1⟩
/-- Field of the yok block. -/
def YOK_ERR_UNCORR : Fld := ⟨0xC, 1, 1⟩
/-- Field of the yok block. -/
def YOK_ERR_SATURATED : Fld := ⟨0xC, 2, 1⟩
/-- Field of the yok block. -/
def YOK_ERR_MSG_UNDELIVERED : Fld := ⟨0xC, 3, 1⟩
/-- Field of the yok block. -/
def YOK_ERR_WATCH_FULL : Fld := ⟨0xC, 4, 1⟩
/-- Field of the yok block. -/
def YOK_ERR_SEM_SEM : Fld := ⟨0x10, 0, 17⟩
/-- Field of the yok block. -/
def YOK_ERR_SEM_VALID : Fld := ⟨0x10, 31, 1⟩
/-- Field of the yok block. -/
def YOK_SEM_SELECT_SEM : Fld := ⟨0x14, 0, 17⟩
/-- Field of the yok block. -/
def YOK_SEM_READ_VALUE : Fld := ⟨0x18, 0, 48⟩
/-- Field of the yok block. -/
def YOK_SEM_READ_OWNER : Fld := ⟨0x18, 48, 16⟩
/-- Field of the yok block. -/
def YOK_SEM_FLAGS_FLAGS : Fld := ⟨0x20, 0, 8⟩
/-- Field of the yok block. -/
def YOK_SEM_FLAGS_WATCHES : Fld := ⟨0x20, 16, 16⟩
/-- Field of the yok block. -/
def YOK_OPS : Fld := ⟨0x28, 0, 64⟩
/-- Field of the yok block. -/
def YOK_FIRED : Fld := ⟨0x30, 0, 64⟩
/-- Field of the yok block. -/
def YOK_REMOTE_IN : Fld := ⟨0x38, 0, 64⟩
/-- Field of the yok block. -/
def YOK_REMOTE_OUT : Fld := ⟨0x40, 0, 64⟩
/-- Field of the yok block. -/
def YOK_BAR_DONE : Fld := ⟨0x48, 0, 64⟩
/-- Field of the yok block. -/
def YOK_LOST : Fld := ⟨0x50, 0, 64⟩

/-- Registers of the yok block. -/
def yokRegs0 : List RegDef := [
  ⟨0x0, false, [⟨0, 17, .ro, .val 65536⟩, ⟨17, 1, .ro, .val 0⟩]⟩,
  ⟨0x4, false, [⟨0, 13, .ro, .val 4096⟩, ⟨13, 1, .ro, .val 0⟩]⟩,
  ⟨0x8, false, [⟨0, 1, .rw, .val 0⟩, ⟨16, 15, .rwl, .val 16384⟩]⟩,
  ⟨0xC, false, [⟨0, 1, .w1c, .val 0⟩, ⟨1, 1, .w1c, .val 0⟩, ⟨2, 1, .w1c, .val 0⟩, ⟨3, 1, .w1c, .val 0⟩, ⟨4, 1, .w1c, .val 0⟩]⟩,
  ⟨0x10, false, [⟨0, 17, .ro, .val 0⟩, ⟨31, 1, .w1c, .val 0⟩]⟩,
  ⟨0x14, false, [⟨0, 17, .rw, .val 0⟩]⟩,
  ⟨0x18, true, [⟨0, 48, .ro, .val 0⟩, ⟨48, 16, .ro, .val 0⟩]⟩,
  ⟨0x20, false, [⟨0, 8, .ro, .val 0⟩, ⟨16, 16, .ro, .val 0⟩]⟩,
  ⟨0x28, true, [⟨0, 64, .ro, .val 0⟩]⟩,
  ⟨0x30, true, [⟨0, 64, .ro, .val 0⟩]⟩,
  ⟨0x38, true, [⟨0, 64, .ro, .val 0⟩]⟩,
  ⟨0x40, true, [⟨0, 64, .ro, .val 0⟩]⟩]

/-- Registers of the yok block. -/
def yokRegs1 : List RegDef := [
  ⟨0x48, true, [⟨0, 64, .ro, .val 0⟩]⟩,
  ⟨0x50, true, [⟨0, 64, .ro, .val 0⟩]⟩]


/-- Field of the srv block. -/
def SRV_STATUS_ACTIVE : Fld := ⟨0x0, 0, 4⟩
/-- Field of the srv block. -/
def SRV_STATUS_WINDOW : Fld := ⟨0x0, 4, 1⟩
/-- Field of the srv block. -/
def SRV_STATUS_CREDIT_LOW : Fld := ⟨0x0, 5, 1⟩
/-- Field of the srv block. -/
def SRV_CTL_HOLD : Fld := ⟨0x4, 0, 1⟩
/-- Field of the srv block. -/
def SRV_ERR_ABANDONED : Fld := ⟨0x8, 0, 1⟩
/-- Field of the srv block. -/
def SRV_ERR_STORE_ERR : Fld := ⟨0x8, 1, 1⟩
/-- Field of the srv block. -/
def SRV_ERR_MAP_COPY : Fld := ⟨0x8, 2, 1⟩
/-- Field of the srv block. -/
def SRV_ERR_PIN_BROKEN : Fld := ⟨0x8, 3, 1⟩
/-- Field of the srv block. -/
def SRV_LOOKUP_FRAME_FRAME : Fld := ⟨0xC, 0, 32⟩
/-- Field of the srv block. -/
def SRV_LOOKUP_VALID : Fld := ⟨0x10, 0, 1⟩
/-- Field of the srv block. -/
def SRV_LOOKUP_REGION : Fld := ⟨0x10, 1, 2⟩
/-- Field of the srv block. -/
def SRV_LOOKUP_DEVICE : Fld := ⟨0x10, 3, 5⟩
/-- Field of the srv block. -/
def SRV_LOOKUP_SLOT : Fld := ⟨0x10, 8, 22⟩
/-- Field of the srv block. -/
def SRV_LOOKUP_PINNED : Fld := ⟨0x10, 30, 1⟩
/-- Field of the srv block. -/
def SRV_LOOKUP_KEEP_COLD : Fld := ⟨0x10, 31, 1⟩
/-- Field of the srv block. -/
def SRV_LOOKUP_PREFER : Fld := ⟨0x10, 32, 2⟩
/-- Field of the srv block. -/
def SRV_LOOKUP_INTERLEAVE : Fld := ⟨0x10, 34, 1⟩
/-- Field of the srv block. -/
def SRV_LOOKUP_ILV_INDEX : Fld := ⟨0x10, 35, 5⟩
/-- Field of the srv block. -/
def SRV_LOOKUP_MIGRATING : Fld := ⟨0x10, 40, 1⟩
/-- Field of the srv block. -/
def SRV_LOOKUP_HEAT : Fld := ⟨0x10, 48, 16⟩
/-- Field of the srv block. -/
def SRV_EXCHANGES : Fld := ⟨0x18, 0, 64⟩
/-- Field of the srv block. -/
def SRV_MOVES : Fld := ⟨0x20, 0, 64⟩
/-- Field of the srv block. -/
def SRV_ABANDONED : Fld := ⟨0x28, 0, 64⟩
/-- Field of the srv block. -/
def SRV_UNITS : Fld := ⟨0x30, 0, 64⟩
/-- Field of the srv block. -/
def SRV_WINDOW_NS : Fld := ⟨0x38, 0, 64⟩
/-- Field of the srv block. -/
def SRV_HELD : Fld := ⟨0x40, 0, 64⟩
/-- Field of the srv block. -/
def SRV_WINDOW_MAX_NS : Fld := ⟨0x48, 0, 12⟩

/-- Registers of the srv block. -/
def srvRegs0 : List RegDef := [
  ⟨0x0, false, [⟨0, 4, .ro, .val 0⟩, ⟨4, 1, .ro, .val 0⟩, ⟨5, 1, .ro, .val 0⟩]⟩,
  ⟨0x4, false, [⟨0, 1, .rw, .val 0⟩]⟩,
  ⟨0x8, false, [⟨0, 1, .w1c, .val 0⟩, ⟨1, 1, .w1c, .val 0⟩, ⟨2, 1, .w1c, .val 0⟩, ⟨3, 1, .w1c, .val 0⟩]⟩,
  ⟨0xC, false, [⟨0, 32, .rw, .val 0⟩]⟩,
  ⟨0x10, true, [⟨0, 1, .ro, .val 0⟩, ⟨1, 2, .ro, .val 0⟩, ⟨3, 5, .ro, .val 0⟩, ⟨8, 22, .ro, .val 0⟩, ⟨30, 1, .ro, .val 0⟩, ⟨31, 1, .ro, .val 0⟩, ⟨32, 2, .ro, .val 0⟩, ⟨34, 1, .ro, .val 0⟩, ⟨35, 5, .ro, .val 0⟩, ⟨40, 1, .ro, .val 0⟩, ⟨48, 16, .ro, .val 0⟩]⟩,
  ⟨0x18, true, [⟨0, 64, .ro, .val 0⟩]⟩,
  ⟨0x20, true, [⟨0, 64, .ro, .val 0⟩]⟩,
  ⟨0x28, true, [⟨0, 64, .ro, .val 0⟩]⟩,
  ⟨0x30, true, [⟨0, 64, .ro, .val 0⟩]⟩,
  ⟨0x38, true, [⟨0, 64, .ro, .val 0⟩]⟩,
  ⟨0x40, true, [⟨0, 64, .ro, .val 0⟩]⟩,
  ⟨0x48, false, [⟨0, 12, .ro, .val 0⟩]⟩]


/-- Field of the xlt block. -/
def XLT_STATUS_STORE_FREE : Fld := ⟨0x0, 0, 23⟩
/-- Field of the xlt block. -/
def XLT_STATUS_STORE_WAIT : Fld := ⟨0x0, 23, 1⟩
/-- Field of the xlt block. -/
def XLT_ERR_CACHE_PARITY : Fld := ⟨0x4, 0, 1⟩
/-- Field of the xlt block. -/
def XLT_ERR_STORE_ERR : Fld := ⟨0x4, 1, 1⟩
/-- Field of the xlt block. -/
def XLT_WALKS : Fld := ⟨0x8, 0, 64⟩
/-- Field of the xlt block. -/
def XLT_LOOKASIDE_HITS : Fld := ⟨0x10, 0, 64⟩
/-- Field of the xlt block. -/
def XLT_FAULTS : Fld := ⟨0x18, 0, 64⟩
/-- Field of the xlt block. -/
def XLT_REPLAYS : Fld := ⟨0x20, 0, 64⟩
/-- Field of the xlt block. -/
def XLT_DECLINED : Fld := ⟨0x28, 0, 64⟩
/-- Field of the xlt block. -/
def XLT_RUNS : Fld := ⟨0x30, 0, 64⟩

/-- Registers of the xlt block. -/
def xltRegs0 : List RegDef := [
  ⟨0x0, false, [⟨0, 23, .ro, .val 4194304⟩, ⟨23, 1, .ro, .val 0⟩]⟩,
  ⟨0x4, false, [⟨0, 1, .w1c, .val 0⟩, ⟨1, 1, .w1c, .val 0⟩]⟩,
  ⟨0x8, true, [⟨0, 64, .ro, .val 0⟩]⟩,
  ⟨0x10, true, [⟨0, 64, .ro, .val 0⟩]⟩,
  ⟨0x18, true, [⟨0, 64, .ro, .val 0⟩]⟩,
  ⟨0x20, true, [⟨0, 64, .ro, .val 0⟩]⟩,
  ⟨0x28, true, [⟨0, 64, .ro, .val 0⟩]⟩,
  ⟨0x30, true, [⟨0, 64, .ro, .val 0⟩]⟩]


/-- Field of the sbd block. -/
def SBD_STATUS_INIT_DONE : Fld := ⟨0x0, 0, 1⟩
/-- Field of the sbd block. -/
def SBD_STATUS_MOVE_ACTIVE : Fld := ⟨0x0, 1, 1⟩
/-- Field of the sbd block. -/
def SBD_CTL_LOCK : Fld := ⟨0x4, 0, 1⟩
/-- Field of the sbd block. -/
def SBD_SEG_TABLE_BASE_BASE : Fld := ⟨0x8, 12, 36⟩
/-- Field of the sbd block. -/
def SBD_MAP_SPARED_GROUP : Fld := ⟨0x10, 0, 4⟩
/-- Field of the sbd block. -/
def SBD_MAP_SPARE_IN_USE : Fld := ⟨0x10, 4, 1⟩
/-- Field of the sbd block. -/
def SBD_MAP_TEST : Fld := ⟨0x10, 5, 1⟩
/-- Field of the sbd block. -/
def SBD_ERR_STORED : Fld := ⟨0x14, 0, 1⟩
/-- Field of the sbd block. -/
def SBD_ERR_MERGE : Fld := ⟨0x14, 1, 1⟩
/-- Field of the sbd block. -/
def SBD_ERR_POISON_SET : Fld := ⟨0x14, 2, 1⟩
/-- Field of the sbd block. -/
def SBD_ERR_SB_FULL : Fld := ⟨0x14, 3, 1⟩
/-- Field of the sbd block. -/
def SBD_ERR_HOST_FAULT : Fld := ⟨0x14, 4, 1⟩
/-- Field of the sbd block. -/
def SBD_ERR_ADDR_OFFSET : Fld := ⟨0x18, 0, 28⟩
/-- Field of the sbd block. -/
def SBD_ERR_ADDR_VALID : Fld := ⟨0x18, 63, 1⟩
/-- Field of the sbd block. -/
def SBD_SB_STATUS_FREE : Fld := ⟨0x20, 0, 13⟩
/-- Field of the sbd block. -/
def SBD_RD_UNITS : Fld := ⟨0x28, 0, 64⟩
/-- Field of the sbd block. -/
def SBD_WR_UNITS : Fld := ⟨0x30, 0, 64⟩
/-- Field of the sbd block. -/
def SBD_CYC_CONFLICT : Fld := ⟨0x38, 0, 64⟩
/-- Field of the sbd block. -/
def SBD_SB_HELD : Fld := ⟨0x40, 0, 64⟩
/-- Field of the sbd block. -/
def SBD_PARITY_STORED : Fld := ⟨0x48, 0, 64⟩
/-- Field of the sbd block. -/
def SBD_NET_UNITS : Fld := ⟨0x50, 0, 64⟩
/-- Field of the sbd block. -/
def SBD_BALK_UNITS : Fld := ⟨0x58, 0, 64⟩

/-- Registers of the sbd block. -/
def sbdRegs0 : List RegDef := [
  ⟨0x0, false, [⟨0, 1, .ro, .val 0⟩, ⟨1, 1, .ro, .val 0⟩]⟩,
  ⟨0x4, false, [⟨0, 1, .rw, .val 0⟩]⟩,
  ⟨0x8, true, [⟨12, 36, .rwl, .val 0⟩]⟩,
  ⟨0x10, false, [⟨0, 4, .ro, .val 0⟩, ⟨4, 1, .ro, .val 0⟩, ⟨5, 1, .ro, .val 0⟩]⟩,
  ⟨0x14, false, [⟨0, 1, .w1c, .val 0⟩, ⟨1, 1, .w1c, .val 0⟩, ⟨2, 1, .w1c, .val 0⟩, ⟨3, 1, .w1c, .val 0⟩, ⟨4, 1, .w1c, .val 0⟩]⟩,
  ⟨0x18, true, [⟨0, 28, .ro, .val 0⟩, ⟨63, 1, .w1c, .val 0⟩]⟩,
  ⟨0x20, false, [⟨0, 13, .ro, .val 4096⟩]⟩,
  ⟨0x28, true, [⟨0, 64, .ro, .val 0⟩]⟩,
  ⟨0x30, true, [⟨0, 64, .ro, .val 0⟩]⟩,
  ⟨0x38, true, [⟨0, 64, .ro, .val 0⟩]⟩,
  ⟨0x40, true, [⟨0, 64, .ro, .val 0⟩]⟩,
  ⟨0x48, true, [⟨0, 64, .ro, .val 0⟩]⟩]

/-- Registers of the sbd block. -/
def sbdRegs1 : List RegDef := [
  ⟨0x50, true, [⟨0, 64, .ro, .val 0⟩]⟩,
  ⟨0x58, true, [⟨0, 64, .ro, .val 0⟩]⟩]


/-- Field of the syc block. -/
def SYC_STATUS_OFFLOAD : Fld := ⟨0x0, 0, 1⟩
/-- Field of the syc block. -/
def SYC_STATUS_PARKED : Fld := ⟨0x0, 1, 1⟩
/-- Field of the syc block. -/
def SYC_STATUS_FALLOW_WAYS : Fld := ⟨0x0, 4, 4⟩
/-- Field of the syc block. -/
def SYC_CTL_STREAM_EN : Fld := ⟨0x4, 0, 1⟩
/-- Field of the syc block. -/
def SYC_CTL_STREAM_THRESH : Fld := ⟨0x4, 4, 8⟩
/-- Field of the syc block. -/
def SYC_CTL_PARK_MAX : Fld := ⟨0x4, 16, 4⟩
/-- Field of the syc block. -/
def SYC_WAYS_FALLOW : Fld := ⟨0x8, 0, 16⟩
/-- Field of the syc block. -/
def SYC_ERR_CORRECTED : Fld := ⟨0xC, 0, 1⟩
/-- Field of the syc block. -/
def SYC_ERR_UNCORR : Fld := ⟨0xC, 1, 1⟩
/-- Field of the syc block. -/
def SYC_ERR_WAY_FALLOW : Fld := ⟨0xC, 2, 1⟩
/-- Field of the syc block. -/
def SYC_ERR_DIR_CORR : Fld := ⟨0xC, 3, 1⟩
/-- Field of the syc block. -/
def SYC_ERR_DIR_UNCORR : Fld := ⟨0xC, 4, 1⟩
/-- Field of the syc block. -/
def SYC_ERR_PARK_FULL : Fld := ⟨0xC, 5, 1⟩
/-- Field of the syc block. -/
def SYC_ERR_ADDR_ADDR : Fld := ⟨0x10, 8, 40⟩
/-- Field of the syc block. -/
def SYC_ERR_ADDR_WAY : Fld := ⟨0x10, 48, 4⟩
/-- Field of the syc block. -/
def SYC_ERR_ADDR_VALID : Fld := ⟨0x10, 63, 1⟩
/-- Field of the syc block. -/
def SYC_HITS : Fld := ⟨0x18, 0, 64⟩
/-- Field of the syc block. -/
def SYC_MISSES : Fld := ⟨0x20, 0, 64⟩
/-- Field of the syc block. -/
def SYC_WRITEBACKS : Fld := ⟨0x28, 0, 64⟩
/-- Field of the syc block. -/
def SYC_ATOMICS : Fld := ⟨0x30, 0, 64⟩
/-- Field of the syc block. -/
def SYC_STREAM_LINES : Fld := ⟨0x38, 0, 64⟩
/-- Field of the syc block. -/
def SYC_SNOOPS : Fld := ⟨0x40, 0, 64⟩
/-- Field of the syc block. -/
def SYC_RECALLS : Fld := ⟨0x48, 0, 64⟩
/-- Field of the syc block. -/
def SYC_OFFERED : Fld := ⟨0x50, 0, 64⟩
/-- Field of the syc block. -/
def SYC_DECLINED : Fld := ⟨0x58, 0, 64⟩
/-- Field of the syc block. -/
def SYC_CORRECTED : Fld := ⟨0x60, 0, 64⟩

/-- Registers of the syc block. -/
def sycRegs0 : List RegDef := [
  ⟨0x0, false, [⟨0, 1, .ro, .val 0⟩, ⟨1, 1, .ro, .val 0⟩, ⟨4, 4, .ro, .val 0⟩]⟩,
  ⟨0x4, false, [⟨0, 1, .rw, .val 1⟩, ⟨4, 8, .rw, .val 16⟩, ⟨16, 4, .rw, .val 8⟩]⟩,
  ⟨0x8, false, [⟨0, 16, .ro, .val 0⟩]⟩,
  ⟨0xC, false, [⟨0, 1, .w1c, .val 0⟩, ⟨1, 1, .w1c, .val 0⟩, ⟨2, 1, .w1c, .val 0⟩, ⟨3, 1, .w1c, .val 0⟩, ⟨4, 1, .w1c, .val 0⟩, ⟨5, 1, .w1c, .val 0⟩]⟩,
  ⟨0x10, true, [⟨8, 40, .ro, .val 0⟩, ⟨48, 4, .ro, .val 0⟩, ⟨63, 1, .w1c, .val 0⟩]⟩,
  ⟨0x18, true, [⟨0, 64, .ro, .val 0⟩]⟩,
  ⟨0x20, true, [⟨0, 64, .ro, .val 0⟩]⟩,
  ⟨0x28, true, [⟨0, 64, .ro, .val 0⟩]⟩,
  ⟨0x30, true, [⟨0, 64, .ro, .val 0⟩]⟩,
  ⟨0x38, true, [⟨0, 64, .ro, .val 0⟩]⟩,
  ⟨0x40, true, [⟨0, 64, .ro, .val 0⟩]⟩,
  ⟨0x48, true, [⟨0, 64, .ro, .val 0⟩]⟩]

/-- Registers of the syc block. -/
def sycRegs1 : List RegDef := [
  ⟨0x50, true, [⟨0, 64, .ro, .val 0⟩]⟩,
  ⟨0x58, true, [⟨0, 64, .ro, .val 0⟩]⟩,
  ⟨0x60, true, [⟨0, 64, .ro, .val 0⟩]⟩]


/-- Field of the inf block. -/
def INF_STATUS_STATE : Fld := ⟨0x0, 0, 3⟩
/-- Field of the inf block. -/
def INF_STATUS_TEMP : Fld := ⟨0x0, 8, 8⟩
/-- Field of the inf block. -/
def INF_STATUS_REFRESH_2X : Fld := ⟨0x0, 16, 1⟩
/-- Field of the inf block. -/
def INF_STATUS_THROTTLE : Fld := ⟨0x0, 17, 2⟩
/-- Field of the inf block. -/
def INF_STATUS_MARKS : Fld := ⟨0x0, 19, 7⟩
/-- Field of the inf block. -/
def INF_CTL_SCRUB_HOURS : Fld := ⟨0x4, 0, 8⟩
/-- Field of the inf block. -/
def INF_CTL_PD_IDLE : Fld := ⟨0x4, 8, 8⟩
/-- Field of the inf block. -/
def INF_CTL_SR_IDLE : Fld := ⟨0x4, 16, 8⟩
/-- Field of the inf block. -/
def INF_ERR_CORRECTED : Fld := ⟨0x8, 0, 1⟩
/-- Field of the inf block. -/
def INF_ERR_UNCORRECTABLE : Fld := ⟨0x8, 1, 1⟩
/-- Field of the inf block. -/
def INF_ERR_MARK_SET : Fld := ⟨0x8, 2, 1⟩
/-- Field of the inf block. -/
def INF_ERR_SLOT_RETIRED : Fld := ⟨0x8, 3, 1⟩
/-- Field of the inf block. -/
def INF_ERR_SPARE_LOW : Fld := ⟨0x8, 4, 1⟩
/-- Field of the inf block. -/
def INF_ERR_LINK_RETRY : Fld := ⟨0x8, 5, 1⟩
/-- Field of the inf block. -/
def INF_ERR_PATH_FAILED : Fld := ⟨0x8, 6, 1⟩
/-- Field of the inf block. -/
def INF_ERR_ADDR_ADDR : Fld := ⟨0x10, 0, 42⟩
/-- Field of the inf block. -/
def INF_ERR_ADDR_POSITION : Fld := ⟨0x10, 48, 7⟩
/-- Field of the inf block. -/
def INF_ERR_ADDR_VALID : Fld := ⟨0x10, 63, 1⟩
/-- Field of the inf block. -/
def INF_SPARE_FREE : Fld := ⟨0x18, 0, 13⟩
/-- Field of the inf block. -/
def INF_SPARE_FALLOW : Fld := ⟨0x18, 16, 16⟩
/-- Field of the inf block. -/
def INF_RD_UNITS : Fld := ⟨0x20, 0, 64⟩
/-- Field of the inf block. -/
def INF_WR_UNITS : Fld := ⟨0x28, 0, 64⟩
/-- Field of the inf block. -/
def INF_CORRECTED : Fld := ⟨0x30, 0, 64⟩
/-- Field of the inf block. -/
def INF_UNCORR : Fld := ⟨0x38, 0, 64⟩
/-- Field of the inf block. -/
def INF_SCRUB_UNITS : Fld := ⟨0x40, 0, 64⟩
/-- Field of the inf block. -/
def INF_CYC_THROTTLE : Fld := ⟨0x48, 0, 64⟩
/-- Field of the inf block. -/
def INF_GLN_STATUS_STATE : Fld := ⟨0x8000, 0, 2⟩
/-- Field of the inf block. -/
def INF_GLN_STATUS_IN_SERVICE : Fld := ⟨0x8000, 16, 9⟩
/-- Field of the inf block. -/
def INF_GLN_CTL_IDLE_GATE : Fld := ⟨0x8004, 0, 16⟩
/-- Field of the inf block. -/
def INF_GLN_ERR_BUF_PARITY : Fld := ⟨0x8008, 0, 1⟩
/-- Field of the inf block. -/
def INF_GLN_ERR_INDEX_RANGE : Fld := ⟨0x8008, 1, 1⟩
/-- Field of the inf block. -/
def INF_GLN_ERR_RERUN : Fld := ⟨0x8008, 2, 1⟩
/-- Field of the inf block. -/
def INF_GLN_ERR_POISON_OUT : Fld := ⟨0x8008, 3, 1⟩
/-- Field of the inf block. -/
def INF_GLN_ERR_FALLOW : Fld := ⟨0x8008, 4, 1⟩
/-- Field of the inf block. -/
def INF_GLN_RD_UNITS : Fld := ⟨0x8010, 0, 64⟩
/-- Field of the inf block. -/
def INF_GLN_WR_UNITS : Fld := ⟨0x8018, 0, 64⟩
/-- Field of the inf block. -/
def INF_GLN_CARRIED : Fld := ⟨0x8020, 0, 64⟩
/-- Field of the inf block. -/
def INF_GLN_PARTS : Fld := ⟨0x8028, 0, 64⟩
/-- Field of the inf block. -/
def INF_GLN_CYC_BUSY : Fld := ⟨0x8030, 0, 64⟩
/-- Field of the inf block. -/
def INF_GLN_CYC_YIELD : Fld := ⟨0x8038, 0, 64⟩
/-- Field of the inf block. -/
def INF_GDS_STATUS_CMDS : Fld := ⟨0x9000, 0, 4⟩
/-- Field of the inf block. -/
def INF_GDS_STATUS_ATTN : Fld := ⟨0x9000, 4, 1⟩
/-- Field of the inf block. -/
def INF_GDS_FALLBACK_UNITS : Fld := ⟨0x9008, 0, 64⟩
/-- Field of the inf block. -/
def INF_GDS_CLEAN_FRAMES : Fld := ⟨0x9010, 0, 64⟩
/-- Field of the inf block. -/
def INF_GDS_CLEAN_LINES : Fld := ⟨0x9018, 0, 64⟩

/-- Registers of the inf block. -/
def infRegs0 : List RegDef := [
  ⟨0x0, false, [⟨0, 3, .ro, .val 0⟩, ⟨8, 8, .ro, .val 0⟩, ⟨16, 1, .ro, .val 0⟩, ⟨17, 2, .ro, .val 0⟩, ⟨19, 7, .ro, .val 0⟩]⟩,
  ⟨0x4, false, [⟨0, 8, .rw, .val 12⟩, ⟨8, 8, .rw, .val 2⟩, ⟨16, 8, .rw, .val 10⟩]⟩,
  ⟨0x8, false, [⟨0, 1, .w1c, .val 0⟩, ⟨1, 1, .w1c, .val 0⟩, ⟨2, 1, .w1c, .val 0⟩, ⟨3, 1, .w1c, .val 0⟩, ⟨4, 1, .w1c, .val 0⟩, ⟨5, 1, .w1c, .val 0⟩, ⟨6, 1, .w1c, .val 0⟩]⟩,
  ⟨0x10, true, [⟨0, 42, .ro, .val 0⟩, ⟨48, 7, .ro, .val 0⟩, ⟨63, 1, .w1c, .val 0⟩]⟩,
  ⟨0x18, false, [⟨0, 13, .ro, .val 4096⟩, ⟨16, 16, .ro, .val 0⟩]⟩,
  ⟨0x20, true, [⟨0, 64, .ro, .val 0⟩]⟩,
  ⟨0x28, true, [⟨0, 64, .ro, .val 0⟩]⟩,
  ⟨0x30, true, [⟨0, 64, .ro, .val 0⟩]⟩,
  ⟨0x38, true, [⟨0, 64, .ro, .val 0⟩]⟩,
  ⟨0x40, true, [⟨0, 64, .ro, .val 0⟩]⟩,
  ⟨0x48, true, [⟨0, 64, .ro, .val 0⟩]⟩,
  ⟨0x8000, false, [⟨0, 2, .ro, .val 0⟩, ⟨16, 9, .ro, .val 256⟩]⟩]

/-- Registers of the inf block. -/
def infRegs1 : List RegDef := [
  ⟨0x8004, false, [⟨0, 16, .rw, .val 20⟩]⟩,
  ⟨0x8008, false, [⟨0, 1, .w1c, .val 0⟩, ⟨1, 1, .w1c, .val 0⟩, ⟨2, 1, .w1c, .val 0⟩, ⟨3, 1, .w1c, .val 0⟩, ⟨4, 1, .w1c, .val 0⟩]⟩,
  ⟨0x8010, true, [⟨0, 64, .ro, .val 0⟩]⟩,
  ⟨0x8018, true, [⟨0, 64, .ro, .val 0⟩]⟩,
  ⟨0x8020, true, [⟨0, 64, .ro, .val 0⟩]⟩,
  ⟨0x8028, true, [⟨0, 64, .ro, .val 0⟩]⟩,
  ⟨0x8030, true, [⟨0, 64, .ro, .val 0⟩]⟩,
  ⟨0x8038, true, [⟨0, 64, .ro, .val 0⟩]⟩,
  ⟨0x9000, false, [⟨0, 4, .ro, .val 0⟩, ⟨4, 1, .ro, .val 0⟩]⟩,
  ⟨0x9008, true, [⟨0, 64, .ro, .val 0⟩]⟩,
  ⟨0x9010, true, [⟨0, 64, .ro, .val 0⟩]⟩,
  ⟨0x9018, true, [⟨0, 64, .ro, .val 0⟩]⟩]


/-- Field of the out block. -/
def OUT_STATUS_STATE : Fld := ⟨0x0, 0, 3⟩
/-- Field of the out block. -/
def OUT_STATUS_TEMP : Fld := ⟨0x0, 8, 8⟩
/-- Field of the out block. -/
def OUT_STATUS_REFRESH_2X : Fld := ⟨0x0, 16, 1⟩
/-- Field of the out block. -/
def OUT_STATUS_THROTTLE : Fld := ⟨0x0, 17, 2⟩
/-- Field of the out block. -/
def OUT_STATUS_MARKED : Fld := ⟨0x0, 19, 1⟩
/-- Field of the out block. -/
def OUT_STATUS_MARK_POS : Fld := ⟨0x0, 20, 7⟩
/-- Field of the out block. -/
def OUT_CTL_SCRUB_HOURS : Fld := ⟨0x4, 0, 8⟩
/-- Field of the out block. -/
def OUT_CTL_PD_IDLE : Fld := ⟨0x4, 8, 8⟩
/-- Field of the out block. -/
def OUT_CTL_SR_IDLE : Fld := ⟨0x4, 16, 8⟩
/-- Field of the out block. -/
def OUT_ERR_CORRECTED : Fld := ⟨0x8, 0, 1⟩
/-- Field of the out block. -/
def OUT_ERR_UNCORRECTABLE : Fld := ⟨0x8, 1, 1⟩
/-- Field of the out block. -/
def OUT_ERR_MARK_SET : Fld := ⟨0x8, 2, 1⟩
/-- Field of the out block. -/
def OUT_ERR_SLOT_RETIRED : Fld := ⟨0x8, 3, 1⟩
/-- Field of the out block. -/
def OUT_ERR_SPARE_LOW : Fld := ⟨0x8, 4, 1⟩
/-- Field of the out block. -/
def OUT_ERR_LINK_RETRY : Fld := ⟨0x8, 5, 1⟩
/-- Field of the out block. -/
def OUT_ERR_PATH_FAILED : Fld := ⟨0x8, 6, 1⟩
/-- Field of the out block. -/
def OUT_ERR_ADDR_ADDR : Fld := ⟨0x10, 0, 42⟩
/-- Field of the out block. -/
def OUT_ERR_ADDR_POSITION : Fld := ⟨0x10, 48, 7⟩
/-- Field of the out block. -/
def OUT_ERR_ADDR_VALID : Fld := ⟨0x10, 63, 1⟩
/-- Field of the out block. -/
def OUT_SPARE_FREE : Fld := ⟨0x18, 0, 14⟩
/-- Field of the out block. -/
def OUT_SPARE_FALLOW : Fld := ⟨0x18, 16, 16⟩
/-- Field of the out block. -/
def OUT_RD_UNITS : Fld := ⟨0x20, 0, 64⟩
/-- Field of the out block. -/
def OUT_WR_UNITS : Fld := ⟨0x28, 0, 64⟩
/-- Field of the out block. -/
def OUT_CORRECTED : Fld := ⟨0x30, 0, 64⟩
/-- Field of the out block. -/
def OUT_UNCORR : Fld := ⟨0x38, 0, 64⟩
/-- Field of the out block. -/
def OUT_SCRUB_UNITS : Fld := ⟨0x40, 0, 64⟩
/-- Field of the out block. -/
def OUT_CYC_THROTTLE : Fld := ⟨0x48, 0, 64⟩

/-- Registers of the out block. -/
def outRegs0 : List RegDef := [
  ⟨0x0, false, [⟨0, 3, .ro, .val 0⟩, ⟨8, 8, .ro, .val 0⟩, ⟨16, 1, .ro, .val 0⟩, ⟨17, 2, .ro, .val 0⟩, ⟨19, 1, .ro, .val 0⟩, ⟨20, 7, .ro, .val 0⟩]⟩,
  ⟨0x4, false, [⟨0, 8, .rw, .val 12⟩, ⟨8, 8, .rw, .val 2⟩, ⟨16, 8, .rw, .val 10⟩]⟩,
  ⟨0x8, false, [⟨0, 1, .w1c, .val 0⟩, ⟨1, 1, .w1c, .val 0⟩, ⟨2, 1, .w1c, .val 0⟩, ⟨3, 1, .w1c, .val 0⟩, ⟨4, 1, .w1c, .val 0⟩, ⟨5, 1, .w1c, .val 0⟩, ⟨6, 1, .w1c, .val 0⟩]⟩,
  ⟨0x10, true, [⟨0, 42, .ro, .val 0⟩, ⟨48, 7, .ro, .val 0⟩, ⟨63, 1, .w1c, .val 0⟩]⟩,
  ⟨0x18, false, [⟨0, 14, .ro, .val 8192⟩, ⟨16, 16, .ro, .val 0⟩]⟩,
  ⟨0x20, true, [⟨0, 64, .ro, .val 0⟩]⟩,
  ⟨0x28, true, [⟨0, 64, .ro, .val 0⟩]⟩,
  ⟨0x30, true, [⟨0, 64, .ro, .val 0⟩]⟩,
  ⟨0x38, true, [⟨0, 64, .ro, .val 0⟩]⟩,
  ⟨0x40, true, [⟨0, 64, .ro, .val 0⟩]⟩,
  ⟨0x48, true, [⟨0, 64, .ro, .val 0⟩]⟩]


/-- Field of the qpb block. -/
def QPR_INSERVICE_IN_SERVICE : Fld := ⟨0x0, 0, 16⟩
/-- Field of the qpb block. -/
def QPR_INSERVICE_LOADING : Fld := ⟨0x0, 16, 1⟩
/-- Field of the qpb block. -/
def QPR_BUSY_BUSY : Fld := ⟨0x4, 0, 16⟩
/-- Field of the qpb block. -/
def QPR_ERR_SRAM_PARITY : Fld := ⟨0x8, 0, 1⟩
/-- Field of the qpb block. -/
def QPR_ERR_RESET : Fld := ⟨0x8, 1, 1⟩
/-- Field of the qpb block. -/
def QPR_ERR_OVERRUN : Fld := ⟨0x8, 2, 1⟩
/-- Field of the qpb block. -/
def QPR_ERR_MALFORMED_HDR : Fld := ⟨0x8, 3, 1⟩
/-- Field of the qpb block. -/
def QPR_ACCEPTED : Fld := ⟨0x10, 0, 64⟩
/-- Field of the qpb block. -/
def QPR_INTERPRETED : Fld := ⟨0x18, 0, 64⟩
/-- Field of the qpb block. -/
def QPR_DUPLICATES : Fld := ⟨0x20, 0, 64⟩
/-- Field of the qpb block. -/
def QPR_MALFORMED : Fld := ⟨0x28, 0, 64⟩
/-- Field of the qpb block. -/
def QPR_DOORBELLS : Fld := ⟨0x30, 0, 64⟩

/-- Registers of the qpb block. -/
def qpbRegs0 : List RegDef := [
  ⟨0x0, false, [⟨0, 16, .ro, .val 65535⟩, ⟨16, 1, .ro, .val 0⟩]⟩,
  ⟨0x4, false, [⟨0, 16, .ro, .val 0⟩]⟩,
  ⟨0x8, false, [⟨0, 1, .w1c, .val 0⟩, ⟨1, 1, .w1c, .val 0⟩, ⟨2, 1, .w1c, .val 0⟩, ⟨3, 1, .w1c, .val 0⟩]⟩,
  ⟨0x10, true, [⟨0, 64, .ro, .val 0⟩]⟩,
  ⟨0x18, true, [⟨0, 64, .ro, .val 0⟩]⟩,
  ⟨0x20, true, [⟨0, 64, .ro, .val 0⟩]⟩,
  ⟨0x28, true, [⟨0, 64, .ro, .val 0⟩]⟩,
  ⟨0x30, true, [⟨0, 64, .ro, .val 0⟩]⟩]


/-- Field of the hst block. -/
def HST_STATUS_STATE : Fld := ⟨0x0, 0, 3⟩
/-- Field of the hst block. -/
def HST_STATUS_HART : Fld := ⟨0x0, 8, 7⟩
/-- Field of the hst block. -/
def HST_STATUS_PHYS : Fld := ⟨0x0, 16, 6⟩
/-- Field of the hst block. -/
def HST_CTL_PF_DISABLE : Fld := ⟨0x4, 0, 1⟩
/-- Field of the hst block. -/
def HST_CTL_GATE_IDLE : Fld := ⟨0x4, 16, 16⟩
/-- Field of the hst block. -/
def HST_ERR_L1_CORR : Fld := ⟨0x8, 0, 1⟩
/-- Field of the hst block. -/
def HST_ERR_L2_CORR : Fld := ⟨0x8, 1, 1⟩
/-- Field of the hst block. -/
def HST_ERR_L2_POISON : Fld := ⟨0x8, 2, 1⟩
/-- Field of the hst block. -/
def HST_ERR_SNOOP_TIMEOUT : Fld := ⟨0x8, 3, 1⟩
/-- Field of the hst block. -/
def HST_CYCLES : Fld := ⟨0x10, 0, 64⟩
/-- Field of the hst block. -/
def HST_INSTRET : Fld := ⟨0x18, 0, 64⟩
/-- Field of the hst block. -/
def HST_L2_MISS : Fld := ⟨0x20, 0, 64⟩
/-- Field of the hst block. -/
def HST_SNOOP_IN : Fld := ⟨0x28, 0, 64⟩
/-- Field of the hst block. -/
def HST_SNOOP_STALE : Fld := ⟨0x30, 0, 64⟩
/-- Field of the hst block. -/
def HST_HOLD_CYC : Fld := ⟨0x38, 0, 64⟩

/-- Registers of the hst block. -/
def hstRegs0 : List RegDef := [
  ⟨0x0, false, [⟨0, 3, .ro, .val 0⟩, ⟨8, 7, .ro, .hart⟩, ⟨16, 6, .hwi, .inst⟩]⟩,
  ⟨0x4, false, [⟨0, 1, .rw, .val 0⟩, ⟨16, 16, .rw, .val 100⟩]⟩,
  ⟨0x8, false, [⟨0, 1, .w1c, .val 0⟩, ⟨1, 1, .w1c, .val 0⟩, ⟨2, 1, .w1c, .val 0⟩, ⟨3, 1, .w1c, .val 0⟩]⟩,
  ⟨0x10, true, [⟨0, 64, .ro, .val 0⟩]⟩,
  ⟨0x18, true, [⟨0, 64, .ro, .val 0⟩]⟩,
  ⟨0x20, true, [⟨0, 64, .ro, .val 0⟩]⟩,
  ⟨0x28, true, [⟨0, 64, .ro, .val 0⟩]⟩,
  ⟨0x30, true, [⟨0, 64, .ro, .val 0⟩]⟩,
  ⟨0x38, true, [⟨0, 64, .ro, .val 0⟩]⟩]


/-- Field of the cplx block. -/
def HST_CPLX_STATUS_STATE : Fld := ⟨0x0, 0, 2⟩
/-- Field of the cplx block. -/
def HST_CPLX_STATUS_CAUSE : Fld := ⟨0x0, 4, 3⟩
/-- Field of the cplx block. -/
def HST_CPLX_STATUS_AGENT : Fld := ⟨0x0, 8, 7⟩
/-- Field of the cplx block. -/
def HST_CPLX_STATUS_DOWNS : Fld := ⟨0x0, 16, 16⟩
/-- Field of the cplx block. -/
def HST_CPLX_CTL_LOCK : Fld := ⟨0x4, 0, 1⟩
/-- Field of the cplx block. -/
def HST_CPLX_BOOT_VECTOR : Fld := ⟨0x8, 2, 46⟩
/-- Field of the cplx block. -/
def HST_CPLX_IRQ_DROPPED : Fld := ⟨0x10, 0, 64⟩
/-- Field of the cplx block. -/
def HST_CPLX_POISONED : Fld := ⟨0x18, 0, 64⟩

/-- Registers of the cplx block. -/
def cplxRegs0 : List RegDef := [
  ⟨0x0, false, [⟨0, 2, .ro, .val 0⟩, ⟨4, 3, .ro, .val 0⟩, ⟨8, 7, .ro, .val 0⟩, ⟨16, 16, .ro, .val 0⟩]⟩,
  ⟨0x4, false, [⟨0, 1, .rw, .val 0⟩]⟩,
  ⟨0x8, true, [⟨2, 46, .rwl, .val 0⟩]⟩,
  ⟨0x10, true, [⟨0, 64, .ro, .val 0⟩]⟩,
  ⟨0x18, true, [⟨0, 64, .ro, .val 0⟩]⟩]


/-- Field of the blk block. -/
def BLK_STATUS_ACTIVE : Fld := ⟨0x0, 0, 5⟩
/-- Field of the blk block. -/
def BLK_STATUS_SPARES : Fld := ⟨0x0, 5, 2⟩
/-- Field of the blk block. -/
def BLK_STATUS_UP : Fld := ⟨0x0, 7, 1⟩
/-- Field of the blk block. -/
def BLK_STATUS_HOLD : Fld := ⟨0x0, 8, 1⟩
/-- Field of the blk block. -/
def BLK_ERR_LANE_REPAIRED : Fld := ⟨0x4, 0, 1⟩
/-- Field of the blk block. -/
def BLK_ERR_MODULE_SPARED : Fld := ⟨0x4, 1, 1⟩
/-- Field of the blk block. -/
def BLK_ERR_MODULE_LOST : Fld := ⟨0x4, 2, 1⟩
/-- Field of the blk block. -/
def BLK_ERR_REPLAY : Fld := ⟨0x4, 3, 1⟩
/-- Field of the blk block. -/
def BLK_ERR_COH_UNCORR : Fld := ⟨0x4, 4, 1⟩
/-- Field of the blk block. -/
def BLK_TX_MEM : Fld := ⟨0x8, 0, 64⟩
/-- Field of the blk block. -/
def BLK_TX_COH : Fld := ⟨0x10, 0, 64⟩
/-- Field of the blk block. -/
def BLK_TX_EVT : Fld := ⟨0x18, 0, 64⟩
/-- Field of the blk block. -/
def BLK_TX_MGT : Fld := ⟨0x20, 0, 64⟩
/-- Field of the blk block. -/
def BLK_REPLAYS : Fld := ⟨0x28, 0, 64⟩
/-- Field of the blk block. -/
def BLK_POISON : Fld := ⟨0x30, 0, 64⟩
/-- Field of the blk block. -/
def BLK_HOLD_NS : Fld := ⟨0x38, 0, 64⟩

/-- Registers of the blk block. -/
def blkRegs0 : List RegDef := [
  ⟨0x0, false, [⟨0, 5, .ro, .val 0⟩, ⟨5, 2, .ro, .val 2⟩, ⟨7, 1, .ro, .val 0⟩, ⟨8, 1, .ro, .val 0⟩]⟩,
  ⟨0x4, false, [⟨0, 1, .w1c, .val 0⟩, ⟨1, 1, .w1c, .val 0⟩, ⟨2, 1, .w1c, .val 0⟩, ⟨3, 1, .w1c, .val 0⟩, ⟨4, 1, .w1c, .val 0⟩]⟩,
  ⟨0x8, true, [⟨0, 64, .ro, .val 0⟩]⟩,
  ⟨0x10, true, [⟨0, 64, .ro, .val 0⟩]⟩,
  ⟨0x18, true, [⟨0, 64, .ro, .val 0⟩]⟩,
  ⟨0x20, true, [⟨0, 64, .ro, .val 0⟩]⟩,
  ⟨0x28, true, [⟨0, 64, .ro, .val 0⟩]⟩,
  ⟨0x30, true, [⟨0, 64, .ro, .val 0⟩]⟩,
  ⟨0x38, true, [⟨0, 64, .ro, .val 0⟩]⟩]


/-- Field of the aihp block. -/
def AIH_PORT_STATUS_STATE : Fld := ⟨0x0, 0, 3⟩
/-- Field of the aihp block. -/
def AIH_PORT_STATUS_OPTICS_ON : Fld := ⟨0x0, 3, 1⟩
/-- Field of the aihp block. -/
def AIH_PORT_STATUS_LOS : Fld := ⟨0x0, 4, 1⟩
/-- Field of the aihp block. -/
def AIH_PORT_STATUS_FEC_LOCK : Fld := ⟨0x0, 5, 1⟩
/-- Field of the aihp block. -/
def AIH_PORT_STATUS_USE : Fld := ⟨0x0, 6, 2⟩
/-- Field of the aihp block. -/
def AIH_PORT_CTL_USE : Fld := ⟨0x4, 0, 2⟩
/-- Field of the aihp block. -/
def AIH_PORT_CTL_ENABLE : Fld := ⟨0x4, 2, 1⟩
/-- Field of the aihp block. -/
def AIH_PORT_CTL_RETRAIN : Fld := ⟨0x4, 3, 1⟩
/-- Field of the aihp block. -/
def AIH_PORT_PEER_NODE : Fld := ⟨0x8, 0, 24⟩
/-- Field of the aihp block. -/
def AIH_PORT_PEER_PORT : Fld := ⟨0x8, 24, 4⟩
/-- Field of the aihp block. -/
def AIH_PORT_PEER_VALID : Fld := ⟨0x8, 31, 1⟩
/-- Field of the aihp block. -/
def AIH_PORT_ERR_CONCORD : Fld := ⟨0xC, 0, 1⟩
/-- Field of the aihp block. -/
def AIH_PORT_ERR_REPLAY_LIMIT : Fld := ⟨0xC, 1, 1⟩
/-- Field of the aihp block. -/
def AIH_PORT_ERR_RETRAIN_FAIL : Fld := ⟨0xC, 2, 1⟩
/-- Field of the aihp block. -/
def AIH_PORT_ERR_OPTICS_FAULT : Fld := ⟨0xC, 3, 1⟩
/-- Field of the aihp block. -/
def AIH_PORT_ERR_ENCAP_DROP : Fld := ⟨0xC, 4, 1⟩
/-- Field of the aihp block. -/
def AIH_PORT_MAC : Fld := ⟨0x10, 0, 48⟩
/-- Field of the aihp block. -/
def AIH_PORT_NEXTHOP : Fld := ⟨0x18, 0, 48⟩
/-- Field of the aihp block. -/
def AIH_PORT_TX_BYTES : Fld := ⟨0x20, 0, 64⟩
/-- Field of the aihp block. -/
def AIH_PORT_RX_BYTES : Fld := ⟨0x28, 0, 64⟩
/-- Field of the aihp block. -/
def AIH_PORT_REPLAYS : Fld := ⟨0x30, 0, 64⟩
/-- Field of the aihp block. -/
def AIH_PORT_RETRAINS : Fld := ⟨0x38, 0, 64⟩
/-- Field of the aihp block. -/
def AIH_PORT_CRC_ERR : Fld := ⟨0x40, 0, 64⟩
/-- Field of the aihp block. -/
def AIH_PORT_TRANSIT : Fld := ⟨0x48, 0, 64⟩
/-- Field of the aihp block. -/
def AIH_PORT_QUAR_MS : Fld := ⟨0x50, 0, 64⟩
/-- Field of the aihp block. -/
def AIH_PORT_DROPS : Fld := ⟨0x58, 0, 64⟩

/-- Registers of the aihp block. -/
def aihpRegs0 : List RegDef := [
  ⟨0x0, false, [⟨0, 3, .ro, .val 0⟩, ⟨3, 1, .ro, .val 0⟩, ⟨4, 1, .ro, .val 0⟩, ⟨5, 1, .ro, .val 0⟩, ⟨6, 2, .ro, .val 0⟩]⟩,
  ⟨0x4, false, [⟨0, 2, .rwl, .val 0⟩, ⟨2, 1, .rw, .val 0⟩, ⟨3, 1, .wo, .val 0⟩]⟩,
  ⟨0x8, false, [⟨0, 24, .ro, .val 0⟩, ⟨24, 4, .ro, .val 0⟩, ⟨31, 1, .ro, .val 0⟩]⟩,
  ⟨0xC, false, [⟨0, 1, .w1c, .val 0⟩, ⟨1, 1, .w1c, .val 0⟩, ⟨2, 1, .w1c, .val 0⟩, ⟨3, 1, .w1c, .val 0⟩, ⟨4, 1, .w1c, .val 0⟩]⟩,
  ⟨0x10, true, [⟨0, 48, .hwi, .fuse⟩]⟩,
  ⟨0x18, true, [⟨0, 48, .rw, .val 0⟩]⟩,
  ⟨0x20, true, [⟨0, 64, .ro, .val 0⟩]⟩,
  ⟨0x28, true, [⟨0, 64, .ro, .val 0⟩]⟩,
  ⟨0x30, true, [⟨0, 64, .ro, .val 0⟩]⟩,
  ⟨0x38, true, [⟨0, 64, .ro, .val 0⟩]⟩,
  ⟨0x40, true, [⟨0, 64, .ro, .val 0⟩]⟩,
  ⟨0x48, true, [⟨0, 64, .ro, .val 0⟩]⟩]

/-- Registers of the aihp block. -/
def aihpRegs1 : List RegDef := [
  ⟨0x50, true, [⟨0, 64, .ro, .val 0⟩]⟩,
  ⟨0x58, true, [⟨0, 64, .ro, .val 0⟩]⟩]


/-- Field of the aih block. -/
def AIH_NODE_ID_NODE : Fld := ⟨0x0, 0, 24⟩
/-- Field of the aih block. -/
def AIH_CTL_LOCK : Fld := ⟨0x4, 0, 1⟩
/-- Field of the aih block. -/
def AIH_STILE_JOINED : Fld := ⟨0x8, 0, 1⟩
/-- Field of the aih block. -/
def AIH_STILE_MOVING : Fld := ⟨0x8, 1, 1⟩
/-- Field of the aih block. -/
def AIH_STILE_ORDERED : Fld := ⟨0x8, 2, 1⟩
/-- Field of the aih block. -/
def AIH_STILE_REQ_PIN : Fld := ⟨0x8, 3, 1⟩
/-- Field of the aih block. -/
def AIH_STILE_OPTICS_OFF : Fld := ⟨0x8, 4, 1⟩
/-- Field of the aih block. -/
def AIH_TOPO_KIND : Fld := ⟨0x10, 0, 2⟩
/-- Field of the aih block. -/
def AIH_TOPO_X_BITS : Fld := ⟨0x10, 2, 5⟩
/-- Field of the aih block. -/
def AIH_TOPO_Y_BITS : Fld := ⟨0x10, 7, 5⟩
/-- Field of the aih block. -/
def AIH_TOPO_Z_BITS : Fld := ⟨0x10, 12, 5⟩
/-- Field of the aih block. -/
def AIH_TOPO_X_SIZE : Fld := ⟨0x10, 17, 21⟩
/-- Field of the aih block. -/
def AIH_TOPO_Y_SIZE : Fld := ⟨0x10, 38, 13⟩
/-- Field of the aih block. -/
def AIH_TOPO_Z_SIZE : Fld := ⟨0x10, 51, 9⟩
/-- Field of the aih block. -/
def AIH_GATEWAY_NODE : Fld := ⟨0x18, 0, 24⟩
/-- Field of the aih block. -/
def AIH_JOB_JOB : Fld := ⟨0x1C, 0, 16⟩
/-- Field of the aih block. -/
def AIH_SELF_RANK_RANK : Fld := ⟨0x20, 0, 20⟩
/-- Field of the aih block. -/
def AIH_RANK_BASE_BASE : Fld := ⟨0x28, 12, 36⟩
/-- Field of the aih block. -/
def AIH_GROUP_BASE_BASE : Fld := ⟨0x30, 12, 36⟩
/-- Field of the aih block. -/
def AIH_E2E_TIMEOUT_US : Fld := ⟨0x38, 0, 16⟩
/-- Field of the aih block. -/
def AIH_E2E_RESENDS : Fld := ⟨0x38, 16, 4⟩
/-- Field of the aih block. -/
def AIH_ENCAP_IPV6 : Fld := ⟨0x3C, 0, 1⟩
/-- Field of the aih block. -/
def AIH_ENCAP_DSCP : Fld := ⟨0x3C, 1, 6⟩
/-- Field of the aih block. -/
def AIH_ENCAP_PRIO : Fld := ⟨0x3C, 7, 3⟩
/-- Field of the aih block. -/
def AIH_ENCAP_IP4_PREFIX : Fld := ⟨0x3C, 24, 8⟩
/-- Field of the aih block. -/
def AIH_IP6_PREFIX0_PREFIX : Fld := ⟨0x40, 0, 32⟩
/-- Field of the aih block. -/
def AIH_IP6_PREFIX1_PREFIX : Fld := ⟨0x44, 0, 32⟩
/-- Field of the aih block. -/
def AIH_IP6_PREFIX2_PREFIX : Fld := ⟨0x48, 0, 32⟩
/-- Field of the aih block. -/
def AIH_IP6_PREFIX3_PREFIX : Fld := ⟨0x4C, 0, 32⟩
/-- Field of the aih block. -/
def AIH_STAGE_SBD_E_OFFSET : Fld := ⟨0x50, 0, 12⟩
/-- Field of the aih block. -/
def AIH_STAGE_SBD_E_SIZE : Fld := ⟨0x50, 16, 12⟩
/-- Field of the aih block. -/
def AIH_STAGE_SBD_W_OFFSET : Fld := ⟨0x54, 0, 12⟩
/-- Field of the aih block. -/
def AIH_STAGE_SBD_W_SIZE : Fld := ⟨0x54, 16, 12⟩
/-- Field of the aih block. -/
def AIH_STAGE_FRAME_BASE : Fld := ⟨0x58, 16, 32⟩
/-- Field of the aih block. -/
def AIH_STAGE_FRAME_SIZE_SIZE : Fld := ⟨0x60, 0, 26⟩
/-- Field of the aih block. -/
def AIH_TIME_TIME : Fld := ⟨0x68, 0, 64⟩
/-- Field of the aih block. -/
def AIH_TIME_CTL_ROOT : Fld := ⟨0x70, 0, 1⟩
/-- Field of the aih block. -/
def AIH_TIME_CTL_UNSURE : Fld := ⟨0x70, 1, 1⟩
/-- Field of the aih block. -/
def AIH_TIME_CTL_HOPS : Fld := ⟨0x70, 8, 16⟩
/-- Field of the aih block. -/
def AIH_TIME_BOUND_NS : Fld := ⟨0x74, 0, 32⟩
/-- Field of the aih block. -/
def AIH_TIME_SET_TIME : Fld := ⟨0x78, 0, 64⟩
/-- Field of the aih block. -/
def AIH_SEQ_STATUS_ORIGINS : Fld := ⟨0x80, 0, 15⟩
/-- Field of the aih block. -/
def AIH_RESENDS : Fld := ⟨0x88, 0, 64⟩
/-- Field of the aih block. -/
def AIH_DUPS : Fld := ⟨0x90, 0, 64⟩
/-- Field of the aih block. -/
def AIH_REFUSED : Fld := ⟨0x98, 0, 64⟩
/-- Field of the aih block. -/
def AIH_UNREACH : Fld := ⟨0xA0, 0, 64⟩
/-- Field of the aih block. -/
def AIH_TOPO_CUR_KIND : Fld := ⟨0x110, 0, 2⟩
/-- Field of the aih block. -/
def AIH_TOPO_CUR_X_BITS : Fld := ⟨0x110, 2, 5⟩
/-- Field of the aih block. -/
def AIH_TOPO_CUR_Y_BITS : Fld := ⟨0x110, 7, 5⟩
/-- Field of the aih block. -/
def AIH_TOPO_CUR_Z_BITS : Fld := ⟨0x110, 12, 5⟩
/-- Field of the aih block. -/
def AIH_TOPO_CUR_X_SIZE : Fld := ⟨0x110, 17, 21⟩
/-- Field of the aih block. -/
def AIH_TOPO_CUR_Y_SIZE : Fld := ⟨0x110, 38, 13⟩
/-- Field of the aih block. -/
def AIH_TOPO_CUR_Z_SIZE : Fld := ⟨0x110, 51, 9⟩
/-- Field of the aih block. -/
def AIH_GATEWAY_CUR_NODE : Fld := ⟨0x118, 0, 24⟩
/-- Field of the aih block. -/
def AIH_JOB_CUR_JOB : Fld := ⟨0x11C, 0, 16⟩
/-- Field of the aih block. -/
def AIH_SELF_RANK_CUR_RANK : Fld := ⟨0x120, 0, 20⟩
/-- Field of the aih block. -/
def AIH_RANK_BASE_CUR_BASE : Fld := ⟨0x128, 12, 36⟩
/-- Field of the aih block. -/
def AIH_GROUP_BASE_CUR_BASE : Fld := ⟨0x130, 12, 36⟩
/-- Field of the aih block. -/
def AIH_E2E_CUR_TIMEOUT_US : Fld := ⟨0x138, 0, 16⟩
/-- Field of the aih block. -/
def AIH_E2E_CUR_RESENDS : Fld := ⟨0x138, 16, 4⟩
/-- Field of the aih block. -/
def AIH_ENCAP_CUR_IPV6 : Fld := ⟨0x13C, 0, 1⟩
/-- Field of the aih block. -/
def AIH_ENCAP_CUR_DSCP : Fld := ⟨0x13C, 1, 6⟩
/-- Field of the aih block. -/
def AIH_ENCAP_CUR_PRIO : Fld := ⟨0x13C, 7, 3⟩
/-- Field of the aih block. -/
def AIH_ENCAP_CUR_IP4_PREFIX : Fld := ⟨0x13C, 24, 8⟩
/-- Field of the aih block. -/
def AIH_IP6_PREFIX0_CUR_PREFIX : Fld := ⟨0x140, 0, 32⟩
/-- Field of the aih block. -/
def AIH_IP6_PREFIX1_CUR_PREFIX : Fld := ⟨0x144, 0, 32⟩
/-- Field of the aih block. -/
def AIH_IP6_PREFIX2_CUR_PREFIX : Fld := ⟨0x148, 0, 32⟩
/-- Field of the aih block. -/
def AIH_IP6_PREFIX3_CUR_PREFIX : Fld := ⟨0x14C, 0, 32⟩

/-- Registers of the aih block. -/
def aihRegs0 : List RegDef := [
  ⟨0x0, false, [⟨0, 24, .rwl, .val 16777215⟩]⟩,
  ⟨0x4, false, [⟨0, 1, .rw, .val 0⟩]⟩,
  ⟨0x8, false, [⟨0, 1, .ro, .val 1⟩, ⟨1, 1, .ro, .val 0⟩, ⟨2, 1, .ro, .val 0⟩, ⟨3, 1, .ro, .val 0⟩, ⟨4, 1, .ro, .val 0⟩]⟩,
  ⟨0x10, true, [⟨0, 2, .rw, .val 0⟩, ⟨2, 5, .rw, .val 0⟩, ⟨7, 5, .rw, .val 0⟩, ⟨12, 5, .rw, .val 0⟩, ⟨17, 21, .rw, .val 0⟩, ⟨38, 13, .rw, .val 0⟩, ⟨51, 9, .rw, .val 0⟩]⟩,
  ⟨0x18, false, [⟨0, 24, .rw, .val 0⟩]⟩,
  ⟨0x1C, false, [⟨0, 16, .rw, .val 0⟩]⟩,
  ⟨0x20, false, [⟨0, 20, .rw, .val 0⟩]⟩,
  ⟨0x28, true, [⟨12, 36, .rw, .val 0⟩]⟩,
  ⟨0x30, true, [⟨12, 36, .rw, .val 0⟩]⟩,
  ⟨0x38, false, [⟨0, 16, .rw, .val 50⟩, ⟨16, 4, .rw, .val 7⟩]⟩,
  ⟨0x3C, false, [⟨0, 1, .rw, .val 0⟩, ⟨1, 6, .rw, .val 0⟩, ⟨7, 3, .rw, .val 3⟩, ⟨24, 8, .rw, .val 10⟩]⟩,
  ⟨0x40, false, [⟨0, 32, .rw, .val 0⟩]⟩]

/-- Registers of the aih block. -/
def aihRegs1 : List RegDef := [
  ⟨0x44, false, [⟨0, 32, .rw, .val 0⟩]⟩,
  ⟨0x48, false, [⟨0, 32, .rw, .val 0⟩]⟩,
  ⟨0x4C, false, [⟨0, 32, .rw, .val 0⟩]⟩,
  ⟨0x50, false, [⟨0, 12, .rwl, .val 0⟩, ⟨16, 12, .rwl, .val 0⟩]⟩,
  ⟨0x54, false, [⟨0, 12, .rwl, .val 0⟩, ⟨16, 12, .rwl, .val 0⟩]⟩,
  ⟨0x58, true, [⟨16, 32, .rwl, .val 0⟩]⟩,
  ⟨0x60, false, [⟨0, 26, .rwl, .val 0⟩]⟩,
  ⟨0x68, true, [⟨0, 64, .ro, .val 0⟩]⟩,
  ⟨0x70, false, [⟨0, 1, .rwl, .val 0⟩, ⟨1, 1, .ro, .val 1⟩, ⟨8, 16, .ro, .val 65535⟩]⟩,
  ⟨0x74, false, [⟨0, 32, .ro, .val 4294967295⟩]⟩,
  ⟨0x78, true, [⟨0, 64, .wo, .val 0⟩]⟩,
  ⟨0x80, false, [⟨0, 15, .ro, .val 0⟩]⟩]

/-- Registers of the aih block. -/
def aihRegs2 : List RegDef := [
  ⟨0x88, true, [⟨0, 64, .ro, .val 0⟩]⟩,
  ⟨0x90, true, [⟨0, 64, .ro, .val 0⟩]⟩,
  ⟨0x98, true, [⟨0, 64, .ro, .val 0⟩]⟩,
  ⟨0xA0, true, [⟨0, 64, .ro, .val 0⟩]⟩,
  ⟨0x110, true, [⟨0, 2, .ro, .val 0⟩, ⟨2, 5, .ro, .val 0⟩, ⟨7, 5, .ro, .val 0⟩, ⟨12, 5, .ro, .val 0⟩, ⟨17, 21, .ro, .val 0⟩, ⟨38, 13, .ro, .val 0⟩, ⟨51, 9, .ro, .val 0⟩]⟩,
  ⟨0x118, false, [⟨0, 24, .ro, .val 0⟩]⟩,
  ⟨0x11C, false, [⟨0, 16, .ro, .val 0⟩]⟩,
  ⟨0x120, false, [⟨0, 20, .ro, .val 0⟩]⟩,
  ⟨0x128, true, [⟨12, 36, .ro, .val 0⟩]⟩,
  ⟨0x130, true, [⟨12, 36, .ro, .val 0⟩]⟩,
  ⟨0x138, false, [⟨0, 16, .ro, .val 50⟩, ⟨16, 4, .ro, .val 7⟩]⟩,
  ⟨0x13C, false, [⟨0, 1, .ro, .val 0⟩, ⟨1, 6, .ro, .val 0⟩, ⟨7, 3, .ro, .val 3⟩, ⟨24, 8, .ro, .val 10⟩]⟩]

/-- Registers of the aih block. -/
def aihRegs3 : List RegDef := [
  ⟨0x140, false, [⟨0, 32, .ro, .val 0⟩]⟩,
  ⟨0x144, false, [⟨0, 32, .ro, .val 0⟩]⟩,
  ⟨0x148, false, [⟨0, 32, .ro, .val 0⟩]⟩,
  ⟨0x14C, false, [⟨0, 32, .ro, .val 0⟩]⟩]


/-- Field of the pcx block. -/
def PCX_STATUS_ROLE : Fld := ⟨0x0, 0, 1⟩
/-- Field of the pcx block. -/
def PCX_STATUS_LINK_UP : Fld := ⟨0x0, 1, 1⟩
/-- Field of the pcx block. -/
def PCX_STATUS_SPEED : Fld := ⟨0x0, 2, 3⟩
/-- Field of the pcx block. -/
def PCX_STATUS_WIDTH : Fld := ⟨0x0, 5, 5⟩
/-- Field of the pcx block. -/
def PCX_STATUS_FLIT : Fld := ⟨0x0, 10, 1⟩
/-- Field of the pcx block. -/
def PCX_STATUS_FLR : Fld := ⟨0x0, 11, 1⟩
/-- Field of the pcx block. -/
def PCX_CTL_LOCK : Fld := ⟨0x4, 0, 1⟩
/-- Field of the pcx block. -/
def PCX_CTL_RETRAIN : Fld := ⟨0x4, 1, 1⟩
/-- Field of the pcx block. -/
def PCX_OWN_CTX_LO : Fld := ⟨0x8, 0, 16⟩
/-- Field of the pcx block. -/
def PCX_OWN_CTX_HI : Fld := ⟨0x8, 16, 16⟩
/-- Field of the pcx block. -/
def PCX_ERR_IN_NOWIN : Fld := ⟨0xC, 0, 1⟩
/-- Field of the pcx block. -/
def PCX_ERR_IN_RIGHTS : Fld := ⟨0xC, 1, 1⟩
/-- Field of the pcx block. -/
def PCX_ERR_IN_UNBACKED : Fld := ⟨0xC, 2, 1⟩
/-- Field of the pcx block. -/
def PCX_ERR_IN_POISON : Fld := ⟨0xC, 3, 1⟩
/-- Field of the pcx block. -/
def PCX_ERR_IN_UNCORR : Fld := ⟨0xC, 4, 1⟩
/-- Field of the pcx block. -/
def PCX_ERR_OUT_FAULT : Fld := ⟨0xC, 5, 1⟩
/-- Field of the pcx block. -/
def PCX_ERR_AER_MSG : Fld := ⟨0xC, 6, 1⟩
/-- Field of the pcx block. -/
def PCX_ERR_LINK_DOWN : Fld := ⟨0xC, 7, 1⟩
/-- Field of the pcx block. -/
def PCX_ERR_ADDR_ADDR : Fld := ⟨0x10, 0, 62⟩
/-- Field of the pcx block. -/
def PCX_ERR_ADDR_VALID : Fld := ⟨0x10, 63, 1⟩
/-- Field of the pcx block. -/
def PCX_FLUSH : Fld := ⟨0x18, 0, 32⟩
/-- Field of the pcx block. -/
def PCX_MSI_BASE_ENABLE : Fld := ⟨0x20, 0, 1⟩
/-- Field of the pcx block. -/
def PCX_MSI_BASE_BASE : Fld := ⟨0x20, 12, 52⟩
/-- Field of the pcx block. -/
def PCX_IN_WR_BYTES : Fld := ⟨0x28, 0, 64⟩
/-- Field of the pcx block. -/
def PCX_IN_RD_BYTES : Fld := ⟨0x30, 0, 64⟩
/-- Field of the pcx block. -/
def PCX_OUT_BYTES : Fld := ⟨0x38, 0, 64⟩
/-- Field of the pcx block. -/
def PCX_IN_FAILED : Fld := ⟨0x40, 0, 64⟩
/-- Field of the pcx block. -/
def PCX_REPLAYS : Fld := ⟨0x48, 0, 64⟩

/-- Registers of the pcx block. -/
def pcxRegs0 : List RegDef := [
  ⟨0x0, false, [⟨0, 1, .hwi, .val 0⟩, ⟨1, 1, .ro, .val 0⟩, ⟨2, 3, .ro, .val 0⟩, ⟨5, 5, .ro, .val 0⟩, ⟨10, 1, .ro, .val 0⟩, ⟨11, 1, .ro, .val 0⟩]⟩,
  ⟨0x4, false, [⟨0, 1, .rw, .val 0⟩, ⟨1, 1, .wo, .val 0⟩]⟩,
  ⟨0x8, false, [⟨0, 16, .rwl, .val 65535⟩, ⟨16, 16, .rwl, .val 0⟩]⟩,
  ⟨0xC, false, [⟨0, 1, .w1c, .val 0⟩, ⟨1, 1, .w1c, .val 0⟩, ⟨2, 1, .w1c, .val 0⟩, ⟨3, 1, .w1c, .val 0⟩, ⟨4, 1, .w1c, .val 0⟩, ⟨5, 1, .w1c, .val 0⟩, ⟨6, 1, .w1c, .val 0⟩, ⟨7, 1, .w1c, .val 0⟩]⟩,
  ⟨0x10, true, [⟨0, 62, .ro, .val 0⟩, ⟨63, 1, .w1c, .val 0⟩]⟩,
  ⟨0x18, false, [⟨0, 32, .ro, .val 0⟩]⟩,
  ⟨0x20, true, [⟨0, 1, .rw, .val 0⟩, ⟨12, 52, .rw, .val 0⟩]⟩,
  ⟨0x28, true, [⟨0, 64, .ro, .val 0⟩]⟩,
  ⟨0x30, true, [⟨0, 64, .ro, .val 0⟩]⟩,
  ⟨0x38, true, [⟨0, 64, .ro, .val 0⟩]⟩,
  ⟨0x40, true, [⟨0, 64, .ro, .val 0⟩]⟩,
  ⟨0x48, true, [⟨0, 64, .ro, .val 0⟩]⟩]

/-- Registers of the pcx block. -/
def pcxRegs1 : List RegDef := [
  ⟨0x1000, true, [⟨16, 48, .rw, .val 0⟩]⟩,
  ⟨0x1008, true, [⟨16, 32, .rw, .val 0⟩]⟩,
  ⟨0x1010, false, [⟨0, 26, .rw, .val 0⟩]⟩,
  ⟨0x1014, false, [⟨0, 1, .rw, .val 0⟩, ⟨1, 1, .rw, .val 0⟩, ⟨2, 1, .rw, .val 0⟩, ⟨3, 1, .rw, .val 0⟩, ⟨4, 2, .rw, .val 0⟩, ⟨16, 16, .rw, .val 0⟩]⟩]

/-- The registers of a block. -/
def blockRegs : Block → List RegDef
  | .mod => modRegs0 ++ modRegs1 ++ modRegs2
  | .pwr => pwrRegs0 ++ pwrRegs1
  | .mgt => mgtRegs0
  | .start => startRegs0 ++ startRegs1
  | .net => netRegs0 ++ netRegs1
  | .half => halfRegs0
  | .fur => furRegs0
  | .har => harRegs0
  | .drl => drlRegs0
  | .dma => dmaRegs0
  | .yok => yokRegs0 ++ yokRegs1
  | .srv => srvRegs0
  | .xlt => xltRegs0
  | .sbd => sbdRegs0 ++ sbdRegs1
  | .syc => sycRegs0 ++ sycRegs1
  | .inf => infRegs0 ++ infRegs1
  | .out => outRegs0
  | .qpb => qpbRegs0
  | .hst => hstRegs0
  | .cplx => cplxRegs0
  | .blk => blkRegs0
  | .aihp => aihpRegs0 ++ aihpRegs1
  | .aih => aihRegs0 ++ aihRegs1 ++ aihRegs2 ++ aihRegs3
  | .pcx => pcxRegs0 ++ pcxRegs1

/-- Base of a half's region (R538). -/
def halfBase (h : Nat) : Nat := 0x1000000 + h * 0x4000000

/-- Base offset of each block instance (R537, R538). -/
def PWR : Nat := 0x10000
/-- Management block (R537). -/
def MGT : Nat := 0x11000
/-- Start-up and self-test block (R537). -/
def START : Nat := 0x12000
/-- Management network block (R537). -/
def NET : Nat := 0x13000
/-- Module identity and global control (R537). -/
def MOD : Nat := 0
/-- Half control (R538). -/
def HALF (h : Nat) : Nat := halfBase h
/-- Furrow block (R538). -/
def FUR (h : Nat) : Nat := halfBase h + 0x10000
/-- Harrow n (R538). -/
def HAR (h n : Nat) : Nat := halfBase h + 0x20000 + n * 0x1000
/-- Drill core n (R538). -/
def DRL (h n : Nat) : Nat := halfBase h + 0x40000 + n * 0x1000
/-- DMA mover n (R538). -/
def DMA (h n : Nat) : Nat := halfBase h + 0x80000 + n * 0x800
/-- Yoke block (R538). -/
def YOK (h : Nat) : Nat := halfBase h + 0x90000
/-- Surveyor block (R538). -/
def SRV (h : Nat) : Nat := halfBase h + 0xA0000
/-- Translation block (R538). -/
def XLT (h : Nat) : Nat := halfBase h + 0xB0000
/-- Seedbed block (R538). -/
def SBD (h : Nat) : Nat := halfBase h + 0xC0000
/-- System cache slice n (R538). -/
def SYC (h n : Nat) : Nat := halfBase h + 0xD0000 + n * 0x1000
/-- Infield stack controller n (R538). -/
def INF (h n : Nat) : Nat := halfBase h + 0x100000 + n * 0x10000
/-- Outfield channel n (R538). -/
def OUT (h n : Nat) : Nat := halfBase h + 0x200000 + n * 0x4000
/-- Queue processor block (R538). -/
def QPB (h : Nat) : Nat := halfBase h + 0x300000
/-- Host core n (R538). -/
def HST (h n : Nat) : Nat := halfBase h + 0x400000 + n * 0x1000
/-- Host complex block, on East (R538). -/
def CPLX : Nat := halfBase 0 + 0x43F000
/-- Balk link block (R538). -/
def BLK (h : Nat) : Nat := halfBase h + 0x500000
/-- Aihal port p (R537). -/
def AIHP (p : Nat) : Nat := 0x9000000 + p * 0x10000
/-- Aihal common block (R537). -/
def AIH : Nat := 0x90F0000
/-- PCI Express port p (R537). -/
def PCX (p : Nat) : Nat := 0xA000000 + p * 0x100000

/-- A register's place: its block, half, instance and offset within the block. -/
structure Place where
  blk : Block
  half : Nat
  inst : Nat
  off : Nat
  deriving DecidableEq, Repr

/-- The block of an offset within a half (R538). -/
def placeHalf (h o : Nat) : Option Place :=
  if o < 0x10000 then some ⟨.half, h, 0, o⟩
  else if o < 0x20000 then some ⟨.fur, h, 0, o - 0x10000⟩
  else if o < 0x30000 then some ⟨.har, h, (o - 0x20000) / 0x1000, o % 0x1000⟩
  else if o < 0x40000 then none
  else if o < 0x80000 then some ⟨.drl, h, (o - 0x40000) / 0x1000, o % 0x1000⟩
  else if o < 0x88000 then some ⟨.dma, h, (o - 0x80000) / 0x800, o % 0x800⟩
  else if o < 0x90000 then none
  else if o < 0xA0000 then some ⟨.yok, h, 0, o - 0x90000⟩
  else if o < 0xB0000 then some ⟨.srv, h, 0, o - 0xA0000⟩
  else if o < 0xC0000 then some ⟨.xlt, h, 0, o - 0xB0000⟩
  else if o < 0xD0000 then some ⟨.sbd, h, 0, o - 0xC0000⟩
  else if o < 0xE0000 then some ⟨.syc, h, (o - 0xD0000) / 0x1000, o % 0x1000⟩
  else if o < 0x100000 then none
  else if o < 0x160000 then some ⟨.inf, h, (o - 0x100000) / 0x10000, o % 0x10000⟩
  else if o < 0x200000 then none
  else if o < 0x2C0000 then some ⟨.out, h, (o - 0x200000) / 0x4000, o % 0x4000⟩
  else if o < 0x300000 then none
  else if o < 0x310000 then some ⟨.qpb, h, 0, o - 0x300000⟩
  else if o < 0x400000 then none
  else if o < 0x424000 then some ⟨.hst, h, (o - 0x400000) / 0x1000, o % 0x1000⟩
  else if o < 0x43F000 then none
  else if o < 0x440000 then some ⟨.cplx, h, 0, o - 0x43F000⟩
  else if o < 0x500000 then none
  else if o < 0x510000 then some ⟨.blk, h, 0, o - 0x500000⟩
  else none

/-- The block of an offset from REG_BASE (R537). -/
def placeOf (o : Nat) : Option Place :=
  if o < 0x10000 then some ⟨.mod, 0, 0, o⟩
  else if o < 0x11000 then some ⟨.pwr, 0, 0, o - 0x10000⟩
  else if o < 0x12000 then some ⟨.mgt, 0, 0, o - 0x11000⟩
  else if o < 0x13000 then some ⟨.start, 0, 0, o - 0x12000⟩
  else if o < 0x14000 then some ⟨.net, 0, 0, o - 0x13000⟩
  else if o < 0x1000000 then none
  else if o < 0x5000000 then placeHalf 0 (o - 0x1000000)
  else if o < 0x9000000 then placeHalf 1 (o - 0x5000000)
  else if o < 0x9090000 then some ⟨.aihp, 0, (o - 0x9000000) / 0x10000, o % 0x10000⟩
  else if o < 0x90F0000 then none
  else if o < 0x90F1000 then some ⟨.aih, 0, 0, o - 0x90F0000⟩
  else if o < 0xA000000 then none
  else if o < 0xA200000 then some ⟨.pcx, 0, (o - 0xA000000) / 0x100000, o % 0x100000⟩
  else none

/-- The offset at which the tables list a register that repeats: the inbound windows of a PCI Express port (R433) and the
allow-list entries of the management network block (R554) are listed once. -/
def listedOff (b : Block) (o : Nat) : Nat :=
  match b with
  | .pcx => if 0x1000 ≤ o ∧ o < 0x1800 then 0x1000 + o % 0x20 else o
  | .net => if 0x100 ≤ o ∧ o < 0x300 then 0x100 + o % 0x20 else o
  | _ => o

/-- The register at an offset of a block, if the offset is not reserved; a 64-bit register answers at either word. -/
def findReg (b : Block) (o : Nat) : Option RegDef :=
  let l := listedOff b o
  (blockRegs b).find? (fun r => r.off == l || (r.wide && r.off + 4 == l))

/-- The register that the word at an offset from REG_BASE belongs to, with its place. -/
def regAt (o : Nat) : Option (Place × RegDef) :=
  match placeOf o with
  | none => none
  | some p => (findReg p.blk p.off).map (fun r => (p, r))

/-- The value of a reset entry at a place (log entry 4). -/
def rstVal (p : Place) (o : Nat) (f : RegField) : Nat :=
  match f.rst with
  | .val n => n
  | .inst => p.inst
  | .half => p.half
  | .hart => p.half * 36 + p.inst
  | .fuse => Config.fuse (o + f.lo) % 2 ^ f.w

/-- The reset value of the register at an offset from REG_BASE; 0 where no register stands. -/
def regReset (o : Nat) : Word :=
  match regAt o with
  | none => 0
  | some (p, r) => BitVec.ofNat 64 (r.flds.foldl (fun x f => setBits x f.lo f.w (rstVal p o f)) 0)

end Sys2Proof.Machine
end

