-- ==== Sys2Proof/Machine/StateDrill.lean ====
section
/-! DEFINITION. The part of the state that chapter 9 gives: launches, resident blocks, thread groups, local memory and the
L1 data caches of the Drill cores. -/

namespace Sys2Proof.Machine

open Sys2Proof

/-- One lane of one register with its two tags (R244). -/
structure LReg where
  v : Nat := 0
  poison : Bool := false
  nan : Bool := false
  deriving DecidableEq, Repr

/-- A thread group: its scheduler and slot (R225), registers by register × 32 + lane, predicates p0 to p6 as lane masks with their
poison, the program counter of each lane, the lanes that have exited (R218), the lanes at a block or a cluster barrier (R238), and
whether it waits for a message (R219). -/
structure DGroup where
  idx : Nat
  sched : Nat
  slot : Nat
  regs : List (Nat × LReg) := []
  preds : List Nat := [0, 0, 0, 0, 0, 0, 0]
  predPoison : List Nat := [0, 0, 0, 0, 0, 0, 0]
  pcs : List Nat
  exited : Nat
  barB : Nat := 0
  barC : Nat := 0
  waitMsg : Bool := false
  stall : Option Nat := none
  stallSince : Option Nat := none
  deriving DecidableEq, Repr

/-- A block that has started: its core, groups, local memory with poisoned bytes, and its message latch and LOST bit (R372). -/
structure DBlock where
  idx : Nat
  core : Nat
  groups : List DGroup
  mem : List (Nat × Byte) := []
  memPoison : List Nat := []
  latch : Bool := false
  lost : Bool := false
  exited : Bool := false
  deriving DecidableEq, Repr

/-- A LAUNCH in execution (R224, R225): its argument bank with the bytes of it that are poisoned, the clusters started, the cores used,
the blocks started, blocks whose latch or LOST bit was set before they started, the first poisoned data it loaded (address and
SOURCE, R244), and the outcome that ends it (R241). -/
structure DLaunch where
  q : Nat
  seq : Nat
  half : Nat
  ctx : Nat
  args : List Byte
  argPoison : List Nat := []
  next : Nat := 0
  cores : Nat := 0
  blocks : List DBlock := []
  latched : List Nat := []
  lostSet : List Nat := []
  poisAt : Option (Nat × Nat) := none
  ending : Option Res := none
  deriving DecidableEq, Repr

/-- One line of a core's L1 (R237): its frame-space address, the data it holds and which of its two units are poisoned. -/
structure L1Line where
  half : Nat
  core : Nat
  addr : Nat
  data : List Byte
  poison : List Nat := []
  deriving DecidableEq, Repr

/-- The Drill engines of both halves: launches in issue order, and the L1 lines. -/
structure DrillSt where
  launches : List DLaunch := []
  l1 : List L1Line := []
  deriving DecidableEq, Repr

end Sys2Proof.Machine
end

