-- ==== Sys2Proof/Machine/StateMem.lean ====
section
/-! DEFINITION. The part of the state that chapters 10, 11 and 13 give beside registers: placement flags, heat, migrations and their
credit, retired slots, and the memory devices' marks, error histories and low-power states. -/

namespace Sys2Proof.Machine

open Sys2Proof

/-- The location of a frame (R318): region 0 Infield East, 1 Infield West, 2 Outfield East, 3 Outfield West; device; slot. -/
structure FrameLoc where
  region : Nat
  dev : Nat
  slot : Nat
  deriving DecidableEq, Repr

/-- The placement flags of a frame (R323): preference (0 none, 1 Infield, 2 Outfield), keep-cold, interleave index, pinned region. -/
structure PFlags where
  prefer : Nat := 0
  cold : Bool := false
  ilv : Option Nat := none
  pin : Option Nat := none
  deriving DecidableEq, Repr

/-- Why a migration is made: a slot to be retired or a device put out of service (R282, R283), a slice test that moves frames out or
back (R525), or a step of R322. -/
inductive MigWhy
  | retire | testOut | testBack | pin | hint | promote | balance
  deriving DecidableEq, Repr

/-- A migration (R327, R328), planned or in progress: its first frame, the frame it is exchanged with or the slot it moves into, the
half that runs it and its mover, the copy passes made, the dirty units of each frame after the last one, and whether its window is
open. -/
structure Mig where
  id : Nat
  why : MigWhy
  a : Nat
  b : Option Nat
  dst : FrameLoc
  half : Nat
  mover : Nat := 0
  started : Bool := false
  passes : Nat := 0
  dirtyA : Nat := 0
  dirtyB : Nat := 0
  window : Bool := false
  /-- Units that the exchange store has lost (R327): 0 to 1,023 of the first frame, from 1,024 on of the other. -/
  bad : List Nat := []
  deriving DecidableEq, Repr

/-- The credit of a device (R331) when last reckoned, in 1/10,000 B above -256 KiB: the one of the budget in force, the one that never
falls below 1 %, and the time. -/
structure Credit where
  dev : Nat
  cur : Nat
  floor : Nat
  time : Nat
  deriving DecidableEq, Repr

/-- A device's retraining (R521, R522): the temperature at its last training, and whether it is due. -/
structure Train where
  dev : Nat
  temp : Nat
  due : Bool
  deriving DecidableEq, Repr

/-- Surveyor and the memory devices: flags by frame, the counts of R321 by group, migrations, credits, frames whose migration was
abandoned with the surveys left (R322), slots fallow and devices out of service (R282, R283), marked positions by access path (R277),
times of corrected errors by slot and by path and position (R277, R282), access paths in power-down and devices in self-refresh
(R285) or leaving it, and retraining. Devices are numbered region × 16 + device, access paths device × 64 + path. -/
structure SrvSt where
  flags : List (Nat × PFlags) := []
  heat : List (Nat × (Nat × Nat)) := []
  migs : List Mig := []
  nextMig : Nat := 0
  credits : List Credit := []
  gone : List (Nat × Nat) := []
  fallow : List FrameLoc := []
  devOut : List Nat := []
  marks : List (Nat × Nat) := []
  slotErrs : List (FrameLoc × List Nat) := []
  posErrs : List (Nat × List Nat) := []
  pd : List Nat := []
  sr : List Nat := []
  waking : List Nat := []
  trains : List Train := []
  training : Option Nat := none
  /-- Times of the parity and link retries of a device within the last second (R521). -/
  retried : List (Nat × List Nat) := []
  deriving DecidableEq, Repr

/-- The Seedbed's banks: times of the stored parity errors of each bank (half × 256 + bank), and the group that each half moves onto its
spare, with whether a test moves it (R266). -/
structure BankSt where
  errs : List (Nat × List Nat) := []
  moving : List (Nat × (Nat × Bool)) := []
  deriving DecidableEq, Repr

end Sys2Proof.Machine
end

