-- ==== Sys2Proof/Machine/StateMgt.lean ====
section
/-! DEFINITION. The part of the state that chapters 17, 19, 20, 21 and 23 give beside registers: the PCI Express ports, and the
hedgerow domains with rails, management controllers, firmware slots and the non-volatile record. -/

namespace Sys2Proof.Machine

open Sys2Proof

/-! ### PCI Express -/

/-- A posted write, or the part of one that lies in one 256 B line, not yet visible (R421): its requester, where it goes (0 frame space,
1 or 2 the Seedbed of East or West), its address, its bytes, whether it is poisoned, the window that let it in with
its context, and the bus address of its request. -/
structure Posted where
  req : Nat
  tgt : Nat
  addr : Nat
  data : List Byte
  poison : Bool
  win : Nat
  ctx : Nat
  bus : Nat
  deriving DecidableEq, Repr

/-- An outbound request of a host core without its completion (R417): its tag, the hart, the physical address, and the bytes it reads, 0
for a configuration write. -/
structure OutPend where
  tag : Nat
  hart : Nat
  addr : Nat
  size : Nat
  deriving DecidableEq, Repr

/-- A PCI Express port (R417 to R431): posted writes not yet visible, outbound requests in flight with the next tag, and MSI-X of function
0: enabled, masked, its table by 32-bit word, and the entries pending. -/
structure PcxSt where
  posted : List Posted := []
  outs : List OutPend := []
  nextTag : Nat := 0
  msix : Bool := false
  msixMask : Bool := false
  table : List (Nat × Nat) := []
  pba : List Nat := []
  deriving DecidableEq, Repr

/-! ### The hedgerow domains -/

/-- A firmware activation in progress (R513, R514): the carrier and SEQ of its command, unit and image. For unit 0: the controller that
restarts on the image, those that run it already (bit 0 East, bit 1 West), and whether these go back to the previous image. -/
structure Activation where
  car : Carrier
  seq : Nat
  unit : Nat
  image : Nat
  now : Nat := 0
  done : Nat := 0
  back : Bool := false
  deriving DecidableEq, Repr

/-- A slice test that has issued (R524): the command's carrier and SEQ, the slice, the time of issue, whether its work has begun to move aside, and whether
the test itself has begun; the physical part under test; the frames moved aside with the slots they left (R525); and the reply that waits
while frames move back. -/
structure SliceTest where
  car : Carrier
  seq : Nat
  kind : Nat
  half : Nat
  index : Nat
  at_ : Nat := 0
  aside : Bool := false
  begun : Bool := false
  phys : Nat := 0
  moved : List (Nat × Nat) := []
  back : Option (List Byte) := none
  deriving DecidableEq, Repr

/-- What the hedgerow domains hold (R472 to R475, R494 to R496, R501, R508, R512 to R514, R516, R531 to R535, R558 to R562). -/
structure HedgeSt where
  /-- 12 V standby is present; it has been good for 10 ms. -/
  standby : Bool := false
  good : Bool := false
  /-- Levels: PWR_EN as counted, MOD_RESET_N high. -/
  pwrEn : Bool := false
  resetHigh : Bool := false
  /-- The last rail step that is good, whether rails rise or fall, and the step at which a fall ends (R472, R473, R494). -/
  step : Nat := 0
  rising : Bool := false
  falling : Bool := false
  floor : Nat := 1
  /-- THERMTRIP_N is asserted; the lockout of R494 holds; the last power-down was a trip. -/
  trip : Bool := false
  lock : Bool := false
  tripped : Bool := false
  /-- Refusals of PWR_EN latched until the lead controller runs: VALUE and mV (R559). -/
  refused : List (Nat × Nat) := []
  /-- The level of PWR_EN that stands has been refused (R559). -/
  told : Bool := false
  /-- The two controllers run. -/
  mcs : List Bool := [false, false]
  /-- Each controller boots its image since standby or a reset. -/
  booting : List Bool := [false, false]
  beat : Nat := 0
  heldAt : Nat := 0
  started : Nat := 0
  /-- The next start-up runs the full tests (R529, R530). -/
  full : Bool := false
  /-- The memory temperatures as last read, by device (R286). -/
  memT : List (Nat × Nat) := []
  trained : List Nat := []
  filled : List Nat := []
  /-- Parts fallow in the non-volatile record (R509), and parts whose replacement has not yet been made (R510). -/
  nvParts : List Part := []
  repl : List Part := []
  /-- Retries made by each latched optics switch, and ports whose retry the governor has admitted (R496). -/
  retries : List Nat := List.replicate 9 0
  optics : List Nat := []
  /-- Firmware: the bytes written into slots (unit × 2 + image, 2^24 bytes each), and the SVN floors (R531, R532). -/
  fw : List (Nat × Byte) := []
  svn : List Nat := [0, 0, 0]
  /-- The slot of unit 0 recorded as running (R535). -/
  fwRec : Nat := 0
  /-- Times of corrected errors of system cache ways and of host cores' L2 within 24 hours (R409, R509). -/
  hist : List (Nat × List Nat) := []
  act : Option Activation := none
  slice : Option SliceTest := none
  deriving DecidableEq, Repr

end Sys2Proof.Machine
end

