-- ==== Sys2Proof/Machine/StatePower.lean ====
section
/-! DEFINITION. The part of the state that chapter 19 gives beside its registers: the grid governor and the telemetry rings. -/

namespace Sys2Proof.Machine

open Sys2Proof

/-- A start that the governor admits (R486): a command, a Drill core's first block, the Gleaners of a stack, a device that
leaves self-refresh, or an optical engine. -/
inductive Start
  | cmd (k : Carrier) (seq : Nat)
  | core (h n : Nat)
  | stack (h n : Nat)
  | mem (d : MemDev)
  | optics (p : Nat)
  deriving DecidableEq, Repr

/-- The grid governor (R484 to R490), in units of 1/12,800 W: the grant, the ballast, the power that work retired in this tick
gave up, and the starts that wait with their admission power, oldest first. `acc` gathers the 20 µs samples of the
millisecond (sum of P in 0.1 W, number, highest, flags), `lastMean` is the last 1 ms mean in 0.1 W. -/
structure GovSt where
  grant : Nat := 0
  bal : Nat := 0
  freed : Nat := 0
  waiting : List (Start × Nat) := []
  accP : Nat := 0
  accN : Nat := 0
  accMax : Nat := 0
  accFlags : Nat := 0
  lastMean : Option Nat := none
  /-- The halves on which a thermal cap acts (R493). -/
  caps : List Bool := [false, false]
  /-- Ballast has run short in this millisecond (R488), and the milliseconds of the breach that runs (R484). -/
  short : Bool := false
  run : Nat := 0
  /-- WAKE_N or WAKE_REQ woke the module with the floor enabled: ballast grows to the floor and is held (R490). -/
  wakeFloor : Bool := false
  /-- The telemetry rings of R479: the next index, and the samples held with their times, for power, thermal and governor trace. -/
  next : List Nat := [0, 0, 0]
  rings : List (List (Nat × List Byte)) := [[], [], []]
  /-- Energy drawn and spent as ballast beyond whole millijoules, in 2 µJ and in 1/640 µJ. -/
  accE : Nat := 0
  accB : Nat := 0
  deriving DecidableEq, Repr

end Sys2Proof.Machine
end

