-- ==== Sys2Proof/Machine/StateUnits.lean ====
section
/-! DEFINITION. The parts of the state that chapters 16 and 18 give: host cores' copies and the directory, and the fabric's
transactions, windows, ports, collectives and time; and what leaves the module. -/

namespace Sys2Proof.Machine

open Sys2Proof

/-! ### The host complex -/

/-- How a host core holds a sector (R391). -/
inductive HHold
  | shared | exclusive | modified
  deriving DecidableEq, Repr

/-- A host core's copy of a 64 B sector, named by its frame-space address divided by 64. -/
structure HCopy where
  hart : Nat
  sec : Nat
  hold : HHold
  poison : Bool := false
  data : List Byte
  deriving DecidableEq, Repr

/-- A directory entry (R391): the sector, owned or shared, and the cluster vector. -/
structure DirE where
  sec : Nat
  owned : Bool
  vec : Nat
  deriving DecidableEq, Repr

/-- The host cores' copies, the directory, LR reservations (R396: hart and sector), the streaming detectors (R405: half × 16 + slice, requester
port × 8 + stream, the 4 KiB in which the slice's next line lies, lines so far), and whether the complex is in the reset of R402. -/
structure HostSt where
  copies : List HCopy := []
  dir : List DirE := []
  resv : List (Nat × Nat) := []
  streams : List (Nat × Nat × Nat × Nat) := []
  resetting : Bool := false
  deriving DecidableEq, Repr

/-! ### The fabric -/

/-- Who a transaction is for: an engine's or Yoke command with its tile or element, a collective, a watch message sent as a
remote ADD (R370) with the rank that registered the watch from afar, or the entry of a barrier into its parent (R380). -/
inductive TxnFor
  | cmd (k : Carrier) (seq tile : Nat)
  | coll (group cseq : Nat)
  | watchAdd (m : YMsg) (rank : Option Nat)
  | parent (half obj gen : Nat)
  deriving DecidableEq, Repr

/-- A transaction without its outcome at the origin (R457, R459). -/
structure Txn where
  id : Nat
  rank : Nat
  seq : Nat
  for_ : TxnFor
  pkt : Packet
  resends : Nat := 0
  unreach : Bool := false
  exhausted : Bool := false
  deriving DecidableEq, Repr

/-- An outcome a target remembers (R457): the sequence number, the reply, and the time of the first reply. -/
structure TargetSeen where
  seq : Nat
  reply : Option Reply
  time : Nat
  deriving DecidableEq, Repr

/-- The sequence state a target holds for an origin (R457, R458). -/
structure Origin where
  rank : Nat
  node : Nat
  last : Nat
  seen : List TargetSeen
  deriving DecidableEq, Repr

/-- An open window (R454): its owner, its region as frame pages or as a physical Seedbed range, its length in bytes, its rights
and ranks. -/
structure Win where
  ctx : Nat
  sbd : Bool
  half : Nat
  base : Nat
  pages : List XPage
  len : Nat
  rights : Nat
  lo : Nat
  hi : Nat
  deriving DecidableEq, Repr

/-- A frame kept until it is acknowledged (R443). -/
structure TxFrame where
  seq : Nat
  cls : Nat
  src : Nat
  dst : Nat
  pkt : Packet
  deriving DecidableEq, Repr

/-- The link state of an Aihal port beside its registers (R439 to R445). -/
structure APort where
  txSeq : Nat := 0
  rxSeq : Nat := 0
  replay : List TxFrame := []
  /-- Frames that wait for a place in the replay buffer, or for the link to be UP again (R444). -/
  queue : List TxFrame := []
  sinceAck : Nat := 0
  replays : Nat := 0
  quarSince : Nat := 0
  /-- The last concord record received with a good CRC (R471). -/
  peer : List Byte := []
  deriving DecidableEq, Repr

/-- A collective at this member (R461 to R465): the members' data received with the elements poisoned, READY marks, the staged
result (element codes with their poison), its staging place (1 Seedbed, 2 frame space), the command, whether it has begun to
send, and what ends it: the rank of a lost peer, a mismatch, or a refusal. -/
structure Coll where
  group : Nat
  cseq : Nat
  op : Nat := 0
  cepoch : Nat := 0
  cmd : Option (Carrier × Nat) := none
  begun : Bool := false
  got : List (Nat × List Nat × List Byte) := []
  ready : List Nat := []
  staged : Option (List (Nat × Bool)) := none
  /-- The first NaN of the staged result: its element and CAUSE. -/
  nan : Option (Nat × Nat) := none
  place : Nat := 0
  lost : Option Nat := none
  mismatch : Bool := false
  fail : Option Res := none
  deriving DecidableEq, Repr

/-- What leaves the module: link frames and acknowledgements, datagrams of encapsulated ports, concord records, packets for the module
itself, what the PCI Express ports send (a completion with its status and poison mark, a request of kind 0 memory read, 1 memory write, 2 configuration read or
3 configuration write with its tag, the answer to a configuration request, an MSI-X message, PERST#), replies to a
host core (address, ok, data), management datagrams, ARP answers (the address, its MAC address and where the answer goes), SMBus answers (acknowledged or not), and what a register read returns. -/
inductive Out
  | frame (port : Nat) (f : TxFrame)
  | datagram (port : Nat) (f : TxFrame)
  | ack (port n : Nat)
  | nak (port n : Nat)
  | concord (port : Nat) (rec : List Byte)
  | pcxCpl (port tag status : Nat) (ep : Bool) (data : List Byte)
  | pcxReq (port tag kind addr size : Nat) (data : List Byte)
  | pcxCfg (port fn off status v : Nat)
  | msix (port addr data : Nat)
  | perst (port : Nat)
  | hostReply (hart addr status : Nat) (data : List Byte)
  | net (v6 : Bool) (addr mac port : Nat) (data : List Byte)
  | arp (port : Nat) (v6 : Bool) (addr own dest : Nat)
  | smbus (ack : Bool) (data : List Byte)
  | read (p : Path) (off v : Nat)
  deriving DecidableEq, Repr

/-- The fabric: transactions at the origin, next identity and next sequence number by target, the origins held as a target,
windows, ports, next CSEQ by group, collectives, the configuration digest before the last commit (R440), and time (R466, R467):
milli-nanoseconds beyond the count, the rate (0 nominal, 1 fast, 2 slow, 3 half), what is left to take up, whether it has
synchronised, and the times of the last exchange and step. -/
structure FabSt where
  txns : List Txn := []
  nextId : Nat := 0
  seqs : List (Nat × Nat) := []
  origins : List Origin := []
  wins : List (Nat × Win) := []
  ports : List APort := List.replicate 9 {}
  /-- Packets of this module for itself, not yet delivered (R448). -/
  own : List TxFrame := []
  cseqs : List (Nat × Nat) := []
  colls : List Coll := []
  digestPrev : Option (List Byte) := none
  frac : Nat := 0
  rate : Nat := 0
  left : Nat := 0
  synced : Bool := false
  lastX : Nat := 0
  stepped : Option Nat := none
  withdrawn : Bool := false
  deriving DecidableEq, Repr

end Sys2Proof.Machine
end

