-- ==== Sys2Proof/Machine/State.lean ====
section
/-! DEFINITION. The state of the module as plain data, the reasons a command can stop, and the state after reset. -/

namespace Sys2Proof.Machine

open Sys2Proof

/-- An engine instance's clock, power and configuration (R60, R476, R518). -/
structure EngSt where
  /-- Its clock runs and it is powered. -/
  awake : Bool
  /-- Its start has been ordered and not yet ended (R476). -/
  starting : Bool := false
  /-- In service, not fallow and not under test (R509, R523). -/
  service : Bool := true
  /-- It has adopted CURRENT; false only inside a mixed window (R60). -/
  adopted : Bool := true
  /-- It still keeps the previous configuration (R60). -/
  holdsPrev : Bool := false
  /-- Its own storage has failed parity and no command has met the error yet (R143, R165, R212, R243, R310). -/
  upset : Bool := false
  /-- The governor has admitted its power outside any command (R486): a Drill core or the Gleaners of a stack. -/
  paid : Bool := false
  deriving DecidableEq, Repr

/-- One event log record (R501). -/
structure LogRec where
  index : Nat
  time : Nat
  sev : Nat
  flags : Nat
  code : Nat
  unit : Nat
  half : Nat
  inst : Nat
  addr : Nat
  value : Nat
  deriving DecidableEq, Repr

/-- The event log and the non-volatile copy of its records of severity 3 and 4 (R501, R502). -/
structure LogSt where
  recs : List LogRec := []
  nv : List LogRec := []
  /-- An event of severity 4 keeps ALERT_N asserted until PWR_EN next rises (R502). -/
  hold4 : Bool := false
  /-- Block instances whose corrected error of the hour has been logged (R503). -/
  hourly : List (Nat × Nat × Nat) := []
  deriving DecidableEq, Repr

/-- Everything the spec gives the module but the queue of commands that wait to be applied. -/
structure Chip where
  regs : List (Nat × Word) := []
  mem : List (Nat × Byte) := []
  poison : List Nat := []
  memBad : List Nat := []
  retire : List Nat := []
  sbd : List (Nat × Byte) := []
  sbdBad : List Nat := []
  /-- Words whose next reading finds bad parity that arose on the way out of the bank (R264). -/
  sbdSlip : List Nat := []
  sbdPoison : List Nat := []
  /-- Stores gathered within one commit unit into units that are bad or poisoned: the unit, the bytes stored, and whether any of them is
  poisoned. Nothing is left here between commands (R263, R273). -/
  landing : List (Nat × (Nat × Bool)) := []
  plot : List (Nat × FrameLoc) := []
  time : Nat := 0
  freeCtr : Nat := 0
  ctxs : List (Nat × Ctx) := []
  queues : List (Nat × Queue) := []
  cmds : List Cmd := []
  paths : List (Carrier × PathSt) := []
  gord : Nat := 0
  prevCfg : List (Nat × Word) := []
  xlt : XltSt := {}
  yoke : YokeSt := {}
  drill : DrillSt := {}
  host : HostSt := {}
  fab : FabSt := {}
  outs : List Out := []
  eng : List (Nat × EngSt) := []
  log : LogSt := {}
  irqs : List Nat := []
  gov : GovSt := {}
  srv : SrvSt := {}
  bank : BankSt := {}
  pcx : List PcxSt := [{}, {}]
  hedge : HedgeSt := {}
  /-- The queue whose command each engine issued last, by kind and half (R53). -/
  rr : List (Nat × Nat) := []
  deriving DecidableEq, Repr

/-- The state: the module and the commands waiting, first in, first out. -/
structure State extends Chip where
  pending : List Instr := []
  deriving DecidableEq, Repr

/-- Why the machine stops. -/
inductive Fault
  /-- A command whose operands name a part the module does not have, or a value outside its field: it is no command of the
  block. Raised by every meaning when the command is not well formed; safe, since the machine stops. -/
  | illFormed
  deriving DecidableEq, Repr

/-- Why the machine refuses. -/
inductive Refusal
  /-- The command has no meaning yet. Raised only by an arm of exec; safe. -/
  | notModelled (mnemonic : String)
  deriving DecidableEq, Repr

/-- The machine right after the standby supply appears for the first time, nothing yet powered but the hedgerow domain
being about to start: every register at its reset value, every memory empty, no command waiting (log entries 4, 8). -/
def State.reset : State := { toChip := {}, pending := [] }

end Sys2Proof.Machine
end

