-- ==== Sys2Proof/Machine/Ops.lean ====
section
/-! DEFINITION. The named operations over the state: registers, frame memory, the Seedbed, poison, open values, the event
log, contexts, queues and commands in flight. -/

namespace Sys2Proof.Machine

open Sys2Proof

/-! ### Registers -/

/-- The register at an offset from REG_BASE. -/
def Chip.reg (c : Chip) (o : Nat) : Word := kget regReset c.regs o

/-- The register at an offset, replaced. -/
def Chip.setReg (c : Chip) (o : Nat) (v : Word) : Chip := { c with regs := kset regReset c.regs o v }

/-- Field f of the register block at base b. -/
def Chip.rget (c : Chip) (b : Nat) (f : Fld) : Nat := bits (c.reg (b + f.off)).toNat f.lo f.w

/-- Field f of the register block at base b, set to v. -/
def Chip.rput (c : Chip) (b : Nat) (f : Fld) (v : Nat) : Chip :=
  c.setReg (b + f.off) (BitVec.ofNat 64 (setBits (c.reg (b + f.off)).toNat f.lo f.w v))

/-- Field f advanced by n, wrapping in its width: the counters of every block. -/
def Chip.rcount (c : Chip) (b : Nat) (f : Fld) (n : Nat) : Chip := c.rput b f (c.rget b f + n)

/-- Field f advanced by n, saturating. -/
def Chip.rsat (c : Chip) (b : Nat) (f : Fld) (n : Nat) : Chip := c.rput b f (satAdd (c.rget b f) n (2 ^ f.w - 1))

/-! ### Open values -/

/-- A fresh open value: nothing in the manual fixes it (log entry 3). -/
def Chip.draw (c : Chip) : Nat × Chip := (Config.free c.freeCtr, { c with freeCtr := c.freeCtr + 1 })

/-- One of the elements of l, the module's choice; none when l is empty (log entry 3). -/
def Chip.pick {α : Type} (c : Chip) (l : List α) : Option α × Chip :=
  match l with
  | [] => (none, c)
  | [x] => (some x, c)
  | l => let d := c.draw; (l[d.1 % l.length]?, d.2)

/-- Cycle counters advance by numbers that the model leaves open (timing) (log entry 44). -/
def Chip.cycles (l : List (Nat × Fld)) (c : Chip) : Chip :=
  l.foldl (fun c x => let d := c.draw; d.2.rcount x.1 x.2 d.1) c

/-! ### Frame memory -/

/-- Frames backed in service (R318). -/
def backedFrames : Nat := 62914560

/-- Bytes [a, a + n) lie wholly in backed frames (R569). -/
def backed (a n : Nat) : Bool := a + n ≤ backedFrames * 65536

/-- What an unlisted byte reads as (R518) (log entry 8). -/
def memDef (_ : Nat) : Byte := 0

/-- One byte of frame space (log entry 71). -/
def Chip.rdByte (c : Chip) (a : Nat) : Byte := kget memDef c.mem a

/-- n bytes of frame space. -/
def Chip.rdMem (c : Chip) (a n : Nat) : List Byte := (List.range n).map (fun i => c.rdByte (a + i))

/-- The n-byte little-endian number at a frame-space address. -/
def Chip.rdLe (c : Chip) (a n : Nat) : Nat := leNat (c.rdMem a n)

/-- The plot map after a module reset (R319) (log entry 8). -/
def plotDef (f : Nat) : FrameLoc :=
  if f < 12582912 then
    let g := f / 32
    let j := g / 2 * 32 + f % 32
    ⟨g % 2, j % 6, j / 6⟩
  else
    let f2 := f - 12582912
    let g := f2 / 32
    let j := g / 2 * 32 + f2 % 32
    ⟨2 + g % 2, j % 12, j / 12⟩

/-- The home half and slice of a frame-space address (R390). -/
def Chip.home (c : Chip) (a : Nat) : Nat × Nat :=
  ((kget plotDef c.plot (a / 65536)).region % 2, (bits a 8 4) ^^^ (bits a 16 4) ^^^ (bits a 24 4))

/-- The harts of a cluster vector (R391). -/
def vecHarts (v : Nat) : List Nat := (List.range 72).filter (fun n => bitAt v (n / 4))

/-- Snoops and recalls reach every core of the listed clusters; a core without the sector answers not present (R392) (log entry 71). -/
def Chip.snoop (c : Chip) (sec : Nat) (harts : List Nat) : Chip :=
  let s := c.home (sec * 64)
  harts.foldl (fun c n =>
    let b := HST (n / 36) (n % 36)
    let c := (c.rcount b HST_SNOOP_IN 1).rcount (SYC s.1 s.2) SYC_SNOOPS 1
    if c.host.copies.any (fun x => x.hart == n && x.sec == sec) then c else c.rcount b HST_SNOOP_STALE 1) c

/-- Every host copy of a sector is invalidated, one held modified being recalled into the slice first (R397) (log entry 71). -/
def Chip.recall (c : Chip) (sec : Nat) : Chip :=
  match c.host.dir.find? (fun d => d.sec == sec) with
  | none => c
  | some d =>
    let c := c.snoop sec (vecHarts d.vec)
    let s := c.home (sec * 64)
    let c := match c.host.copies.find? (fun x => x.sec == sec && decide (x.hold = .modified)) with
      | some x =>
        let m := (List.range 64).foldl (fun m i => kset memDef m (sec * 64 + i) (nth x.data i 0)) c.mem
        { c with mem := m, poison := if x.poison then insertNat sec c.poison else c.poison.filter (fun u => u != sec) }.rcount (SYC s.1 s.2) SYC_RECALLS 1
      | none => c
    { c with host := { c.host with copies := c.host.copies.filter (fun x => x.sec != sec), dir := c.host.dir.filter (fun x => x.sec != sec),
                                   resv := c.host.resv.filter (fun r => r.2 != sec) } }

/-- The number of a device: region × 16 + device. -/
def FrameLoc.dk (l : FrameLoc) : Nat := l.region * 16 + l.dev

/-- The access path of a unit on its device (R272), as device × 64 + path. -/
def pathOf (l : FrameLoc) (a : Nat) : Nat := l.dk * 64 + a / 256 % (if l.region < 2 then 64 else 4)

/-- A request for a byte of frame space ends the power-down of its path, and starts its device's way out of self-refresh (R285) (log entry 50). -/
def Chip.touch (c : Chip) (a : Nat) : Chip :=
  if c.srv.pd.isEmpty && c.srv.sr.isEmpty then c
  else
    let l := kget plotDef c.plot (a / 65536)
    let p := c.srv.pd.filter (fun x => x != pathOf l a)
    if c.srv.sr.contains l.dk then
      { c with srv := { c.srv with pd := p, sr := c.srv.sr.filter (fun x => x != l.dk), waking := c.srv.waking ++ [l.dk] } }
    else { c with srv := { c.srv with pd := p } }

/-- One byte of frame space written by an engine (R397); a byte not backed is not written (R569). -/
def Chip.wrByte (c : Chip) (a : Nat) (b : Byte) : Chip :=
  if backed a 1 then
    let c := (c.recall (a / 64)).touch a
    { c with mem := kset memDef c.mem a b }
  else c

/-- Consecutive bytes of frame space written (log entry 71). -/
def Chip.wrMem (c : Chip) (a : Nat) : List Byte → Chip
  | [] => c
  | b :: bs => (c.wrByte a b).wrMem (a + 1) bs

/-- The unit of a frame-space address is poisoned (R278, R500). -/
def Chip.poisoned (c : Chip) (a : Nat) : Bool := c.poison.contains (a / 64)

/-- The units that bytes [a, a + n) touch, marked poisoned. -/
def Chip.poisonRange (c : Chip) (a n : Nat) : Chip :=
  if n = 0 then c else { c with poison := unionNat c.poison (rangeFrom (a / 64) ((a + n - 1) / 64 - a / 64 + 1)) }

/-- The units that bytes [a, a + n) wholly cover, cleared of poison: a store of a whole unit clears its mark (R500). -/
def Chip.unpoisonRange (c : Chip) (a n : Nat) : Chip :=
  { c with poison := c.poison.filter (fun u => !(a ≤ u * 64 && u * 64 + 64 ≤ a + n)) }

/-- The first poisoned unit that bytes [a, a + n) touch. -/
def Chip.firstPoison (c : Chip) (a n : Nat) : Option Nat :=
  c.poison.find? (fun u => a < u * 64 + 64 && u * 64 < a + n)

/-- The location of a frame (R318, R319). -/
def Chip.place (c : Chip) (f : Nat) : FrameLoc := kget plotDef c.plot f

/-- The half of a frame's region (R318). -/
def Chip.frameHalf (c : Chip) (f : Nat) : Nat := (c.place f).region % 2

/-! ### Seedbed -/

/-- Bytes of one half's Seedbed (R246). -/
def sbdSize : Nat := 0xC000000

/-- The key of a physical Seedbed offset of a half. -/
def sbdKey (h o : Nat) : Nat := h * 0x10000000 + o

/-- One byte of a half's Seedbed at a physical offset. -/
def Chip.rdSbd (c : Chip) (h o : Nat) : Byte := kget memDef c.sbd (sbdKey h o)

/-- n bytes of a half's Seedbed. -/
def Chip.rdSbdBytes (c : Chip) (h o n : Nat) : List Byte := (List.range n).map (fun i => c.rdSbd h (o + i))

/-- The first word of a list that bytes [o, o + n) of a half touch, as a physical offset. -/
def firstWordOf (l : List Nat) (h o n : Nat) : Option Nat :=
  (l.find? (fun w => sbdKey h o < w * 4 + 4 && w * 4 < sbdKey h o + n)).map (fun w => w * 4 - sbdKey h 0)

/-- The first word that a read of bytes [o, o + n) of a half finds bad (R264): its stored parity, or on its way out of the bank. -/
def Chip.firstBadWord (c : Chip) (h o n : Nat) : Option Nat :=
  match firstWordOf c.sbdBad h o n, firstWordOf c.sbdSlip h o n with
  | some a, some b => some (min a b)
  | some a, none => some a
  | none, b => b

/-- Bytes stored to a half's Seedbed: a word stored whole takes good parity; a partial store into a word with bad parity
leaves it bad and sets SBD_ERR.MERGE (R263). -/
def Chip.wrSbd (c : Chip) (h o : Nat) (bs : List Byte) : Chip :=
  let n := bs.length
  let m := (List.range n).foldl (fun m i => kset memDef m (sbdKey h (o + i)) (nth bs i 0)) c.sbd
  let a := sbdKey h o
  let bad := c.sbdBad.filter (fun w => !(a ≤ w * 4 && w * 4 + 4 ≤ a + n))
  let merge := bad.any (fun w => a < w * 4 + 4 && w * 4 < a + n)
  let c := { c with sbd := m, sbdBad := bad }
  if merge then c.rput (SBD h) SBD_ERR_MERGE 1 else c

/-! ### Time and the event log -/

/-- Timestamps are marked time-unsure (R12, R468). -/
def Chip.unsure (c : Chip) : Bool := c.rget AIH AIH_TIME_CTL_UNSURE == 1

/-- ALERT_N is asserted (R502). -/
def Chip.alert (c : Chip) : Bool := c.rget MGT MGT_ALERT_PENDING == 1

/-- An event enters the log, with ALERT_N and the non-volatile copy as its severity asks (R501, R502). -/
def Chip.logEvent (c : Chip) (code sev unit half inst addr value : Nat) : Chip :=
  let thr := max 1 (c.rget MGT MGT_CTL_ALERT_SEV)
  let alert := sev ≥ thr
  let nv := sev ≥ 3
  let r : LogRec := ⟨c.rget MGT MGT_LOG_NEXT_NEXT, c.time, sev, b2n c.unsure + 2 * b2n alert + 4 * b2n nv, code, unit, half, inst, addr, value⟩
  let keep := fun (n : Nat) (l : List LogRec) => l.drop (l.length - n)
  let c := { c with log := { c.log with recs := keep 16384 (c.log.recs ++ [r]),
                                        nv := if nv then keep 256 (c.log.nv ++ [r]) else c.log.nv,
                                        hold4 := c.log.hold4 || sev == 4 } }
  let c := (c.rcount MGT MGT_LOG_NEXT_NEXT 1).rcount MGT MGT_EVENTS 1
  if alert then (c.rput MGT MGT_ALERT_PENDING 1).rput MGT MGT_STATUS_ALERT 1 else c

/-- Something leaves the module (log entry 76). -/
def Chip.emit (c : Chip) (o : Out) : Chip := { c with outs := c.outs ++ [o] }

/-- A PCI Express port replaced. -/
def Chip.setPcx (c : Chip) (p : Nat) (x : PcxSt) : Chip := { c with pcx := setNth c.pcx p x }

/-- A PCI Express port. -/
def Chip.port (c : Chip) (p : Nat) : PcxSt := nth c.pcx p {}

/-- The MSI-X table after reset (R429): every entry masked, as the base specification has it (log entry 28). -/
def msixDef (k : Nat) : Nat := if k % 4 = 3 then 1 else 0

/-- The ports in endpoint mode (R414). -/
def epPorts (c : Chip) : List Nat := [0, 1].filter (fun p => c.rget (PCX p) PCX_STATUS_ROLE == 1)

/-- A port can send MSI-X messages (R425): enabled, and the link up. -/
def msixOk (c : Chip) (p : Nat) : Bool := (c.port p).msix && c.rget (PCX p) PCX_STATUS_LINK_UP == 1

/-- MSI-X entry e of a port sends its message, or is pending while it is masked (R425). -/
def msixRaise (e p : Nat) (c : Chip) : Chip :=
  let x := c.port p
  let w := fun i => kget msixDef x.table (4 * e + i)
  if !msixOk c p then c
  else if x.msixMask || bitAt (w 3) 0 then c.setPcx p { x with pba := insertNat e x.pba }
  else ((c.setPcx p { x with pba := x.pba.filter (fun i => i != e) }).emit (.msix p (w 0 + 2 ^ 32 * w 1) (w 2))).rcount (PCX p) PCX_OUT_BYTES 4

/-- A host interrupt vector that endpoint ports raise as MSI-X (R425). -/
def msixVector (c : Chip) (v : Nat) : Bool := 0x4000 ≤ v && v < 0x4800 && !(epPorts c).isEmpty

/-- A vector that no port can send counts as undeliverable (R371, R425). -/
def vectorLost (c : Chip) (v : Nat) : Bool := msixVector c v && !(epPorts c).any (msixOk c)

/-- A host interrupt vector is raised, as MSI-X (R425) or on the host cores; while the complex is down it is dropped and counted (R401). -/
def Chip.raiseVector (c : Chip) (v : Nat) : Chip :=
  if msixVector c v then (epPorts c).foldl (fun c p => msixRaise (v - 0x4000) p c) c
  else if c.rget CPLX HST_CPLX_STATUS_STATE = 1 then { c with irqs := c.irqs ++ [v] }
  else c.rcount CPLX HST_CPLX_IRQ_DROPPED 1

/-! ### Uncorrectable units -/

/-- The registers of an uncorrectable read of a unit on its device (R279, R287, R288): INF of the stack, or OUT of the
channel that holds the unit (R272). -/
def memErrRegs (a : Nat) (c : Chip) : Chip :=
  let l := c.place (a / 65536)
  let h := l.region % 2
  let d := c.draw
  let pos := if d.1 % 69 = 68 then 0x7F else d.1 % 69
  let c := d.2
  if l.region < 2 then
    let b := INF h l.dev
    let c := (c.rput b INF_ERR_UNCORRECTABLE 1).rcount b INF_UNCORR 1
    if c.rget b INF_ERR_ADDR_VALID = 1 then c
    else ((c.rput b INF_ERR_ADDR_ADDR a).rput b INF_ERR_ADDR_POSITION pos).rput b INF_ERR_ADDR_VALID 1
  else
    let b := OUT h (4 * l.dev + a / 256 % 4)
    let c := (c.rput b OUT_ERR_UNCORRECTABLE 1).rcount b OUT_UNCORR 1
    if c.rget b OUT_ERR_ADDR_VALID = 1 then c
    else ((c.rput b OUT_ERR_ADDR_ADDR a).rput b OUT_ERR_ADDR_POSITION pos).rput b OUT_ERR_ADDR_VALID 1

/-- A read of a unit that cannot be corrected (R279, R282, R498): the unit is written back as poisoned, the error is recorded,
and the frame's slot is to be retired. -/
def memUncorr (a : Nat) (c : Chip) : Chip :=
  let u := a / 64
  let l := c.place (a / 65536)
  let c := { c with memBad := c.memBad.filter (fun x => x != u), poison := insertNat u c.poison,
                    retire := if c.retire.contains (a / 65536) then c.retire else c.retire ++ [a / 65536] }
  let c := memErrRegs (u * 64) c
  c.logEvent 0x0011 2 (if l.region < 2 then 0x0A else 0x0B) (l.region % 2) (if l.region < 2 then l.dev else 4 * l.dev + a / 256 % 4)
    (u * 64) (if l.region < 2 then 1 else 2)

/-! ### Contexts, queues and commands -/

/-- A context's state before anything acts on it. -/
def ctxDef (_ : Nat) : Ctx := {}

/-- A context. -/
def Chip.ctx (c : Chip) (n : Nat) : Ctx := kget ctxDef c.ctxs n

/-- A context replaced. -/
def Chip.setCtx (c : Chip) (n : Nat) (x : Ctx) : Chip := { c with ctxs := kset ctxDef c.ctxs n x }

/-- A queue's state before anything acts on it. -/
def queueDef (_ : Nat) : Queue := {}

/-- A queue. -/
def Chip.queue (c : Chip) (n : Nat) : Queue := kget queueDef c.queues n

/-- A queue replaced. -/
def Chip.setQueue (c : Chip) (n : Nat) (x : Queue) : Chip := { c with queues := kset queueDef c.queues n x }

/-- A command in flight is the one that a carrier and SEQ name. -/
def cmdIs (k : Carrier) (seq : Nat) (m : Cmd) : Bool := decide (m.car = k) && m.seq == seq

/-- The command in flight that a carrier and SEQ name. -/
def Chip.findCmd (c : Chip) (k : Carrier) (seq : Nat) : Option Cmd := c.cmds.find? (cmdIs k seq)

/-- The command of the same name, replaced. -/
def Chip.putCmd (c : Chip) (m : Cmd) : Chip :=
  { c with cmds := c.cmds.map (fun x => if cmdIs m.car m.seq x then m else x) }

/-- The queue that carries a command. -/
def Cmd.queue? (m : Cmd) : Option Nat :=
  match m.car with
  | .queue q => some q
  | _ => none

/-- Commands of a queue in flight, in acceptance order. -/
def Chip.cmdsOf (c : Chip) (k : Carrier) : List Cmd := c.cmds.filter (fun m => decide (m.car = k))

/-- Commands in execution (R42). -/
def Chip.inflight (c : Chip) : Nat :=
  (c.cmds.filter (fun m => decide (m.phase = .executing) || (decide (m.phase = .finished) && m.issued))).length

/-- DONE_THROUGH after a retirement (R35): the last accepted SEQ before the oldest command still in flight. -/
def Chip.doneThrough (c : Chip) (q : Nat) : Nat :=
  match c.cmdsOf (.queue q) with
  | [] => (c.queue q).lastAccepted
  | m :: _ =>
    match ((c.queue q).window.takeWhile (fun s => s.seq != m.seq)).getLast? with
    | some s => s.seq
    | none => (c.queue q).doneThrough

/-- A management path. -/
def Chip.path (c : Chip) (k : Carrier) : PathSt :=
  match c.paths.find? (fun e => decide (e.1 = k)) with
  | some e => e.2
  | none => {}

/-- A management path replaced. -/
def Chip.setPath (c : Chip) (k : Carrier) (x : PathSt) : Chip :=
  { c with paths := c.paths.filter (fun e => !decide (e.1 = k)) ++ [(k, x)] }

/-! ### Engines -/

/-- The key of an engine instance. -/
def engKey (e : Engine) : Nat := e.cls * 65536 + e.half * 256 + e.idx

/-- An engine instance before its first command (R518): the Furrow's clock stopped; Harrows, Drill cores and Gleaner stacks
(class 0x15 here) power-gated; every other engine awake. -/
def engDef (k : Nat) : EngSt :=
  { awake := !(k / 65536 == 1 || k / 65536 == 2 || k / 65536 == 3 || k / 65536 == 0x15) }

/-- An engine instance. -/
def Chip.engine (c : Chip) (e : Engine) : EngSt := kget engDef c.eng (engKey e)

/-- An engine instance replaced. -/
def Chip.setEngine (c : Chip) (e : Engine) (x : EngSt) : Chip := { c with eng := kset engDef c.eng (engKey e) x }

/-- The engine instances of the module that hold a configuration (R23, R60): Drill cores and the 6 Gleaner stacks of a half
count as instances of their own. -/
def allEngines : List Engine :=
  [0, 1].flatMap (fun h =>
    [⟨1, h, 0⟩] ++ (List.range 16).map (fun i => ⟨2, h, i⟩) ++ (List.range 64).map (fun i => ⟨3, h, i⟩) ++
    (List.range 16).map (fun i => ⟨4, h, i⟩) ++ [⟨5, h, 0⟩, ⟨6, h, 0⟩, ⟨7, h, 0⟩, ⟨8, h, 0⟩] ++
    (List.range 16).map (fun i => ⟨0xE, h, i⟩))

/-! ### The maps in canonical form -/

/-- Every sparse map in its canonical form. -/
def Chip.canon (c : Chip) : Chip :=
  { c with regs := kcanon regReset c.regs, mem := kcanon memDef c.mem, sbd := kcanon memDef c.sbd,
           ctxs := kcanon ctxDef c.ctxs, queues := kcanon queueDef c.queues, plot := kcanon plotDef c.plot, eng := kcanon engDef c.eng }

/-- The memories of the module are in canonical form. -/
def Chip.wf (c : Chip) : Bool :=
  kwf regReset c.regs && kwf memDef c.mem && kwf memDef c.sbd && kwf ctxDef c.ctxs && kwf queueDef c.queues &&
    kwf plotDef c.plot && kwf engDef c.eng

end Sys2Proof.Machine
end

