-- ==== Sys2Proof/Machine/Ballast.lean ====
section
/-! DEFINITION. Which engine instances hold commands, and the ballast that idle ones carry (R485, R487, R488). -/

namespace Sys2Proof.Machine

open Sys2Proof

/-- The kind of instance that serves a class: class 0xF runs on the queue processors (R23). -/
def servCls (cls : Nat) : Nat := if cls = 0xF then 0xE else cls

/-- A command holds instances: it has issued and has neither retired nor left execution to wait (R42). -/
def Cmd.holds (m : Cmd) : Bool := m.issued && (decide (m.phase = .executing) || decide (m.phase = .finished))

/-- A command holds an engine instance. -/
def Cmd.uses (m : Cmd) (e : Engine) : Bool :=
  m.holds && ((servCls m.cls == e.cls && m.half == e.half && m.inst == e.idx) || m.claims.contains e)

/-- An array issues nothing while a spare row or column is mapped in (R510) (log entry 41). -/
def remapping (c : Chip) (h : Nat) : Bool := c.hedge.repl.any (fun p => p.half == h && (decide (p.kind = .furrowRow) || decide (p.kind = .furrowCol)))

/-- An engine instance holds a command, or is an array that issues nothing. -/
def Chip.busy (c : Chip) (e : Engine) : Bool := c.cmds.any (fun m => m.uses e) || (e.cls == 1 && remapping c e.half)

/-- Watts in the governor's units. -/
def watt (n : Nat) : Nat := 12800 * n

/-- The engines that may carry ballast, in the order in which the model fills them, with what each carries at most (R485): the
arrays, then the Harrows, that are in service and hold no command. -/
def ballastSlots (c : Chip) : List (Engine × Nat) :=
  (([0, 1].map (fun h => ((⟨1, h, 0⟩ : Engine), watt 1000))) ++
    [0, 1].flatMap (fun h => (List.range 16).map (fun i => ((⟨2, h, i⟩ : Engine), watt 5)))).filter
      (fun x => (c.engine x.1).service && !c.busy x.1)

/-- The ballast idle engines can carry (R488). -/
def ballastCap (c : Chip) : Nat := ((ballastSlots c).map (fun x => x.2)).foldl (· + ·) 0

/-- Ballast set to w; what idle engines cannot carry is dropped, with BALLAST_SHORT (R488) (log entry 36). -/
def setBallast (w : Nat) (c : Chip) : Chip :=
  let k := ballastCap c
  if w > k then { c with gov := { c.gov with bal := k, short := true } }.rput PWR PWR_ERR_BALLAST_SHORT 1
  else { c with gov := { c.gov with bal := w } }

/-- The ballast of one engine, for the given total. -/
def ballastOf : List (Engine × Nat) → Nat → Engine → Nat
  | [], _, _ => 0
  | (e, k) :: r, w, x => if e = x then min w k else ballastOf r (w - min w k) x

/-- Work of admission power a retires (R487): ballast takes its place at once, or it is given up to a start that waits. -/
def giveUp (a : Nat) (c : Chip) : Chip :=
  if a = 0 then c
  else if c.rget PWR PWR_LIMIT_CUR_FIXED_FREQ = 1 && c.rget MGT MGT_STATUS_OUTPUTS == 0 && !c.gov.waiting.isEmpty then { c with gov := { c.gov with freed := c.gov.freed + a } }
  else setBallast (c.gov.bal + a) c

/-! ### Admission -/

/-- The stagger delay in microseconds (R490): values above 12 of SLOTS_LOG2 act as 12, an even MULT acts as the value + 1. -/
def staggerUs (c : Chip) : Nat :=
  let m := c.rget PWR PWR_STAGGER_MULT_CUR_MULT
  let m := if m % 2 = 0 then m + 1 else m
  (c.rget AIH AIH_SELF_RANK_CUR_RANK * m) % 2 ^ min 12 (c.rget PWR PWR_STAGGER_CUR_SLOTS_LOG2) * c.rget PWR PWR_STAGGER_CUR_STEP_US

/-- A wake of an asleep module starts its stagger delay (R490); a further wake during the delay changes nothing. -/
def wake (c : Chip) : Chip :=
  if c.rget PWR PWR_STATUS_ASLEEP = 0 then c
  else
    let d := staggerUs c
    ((c.rput PWR PWR_STATUS_ASLEEP 0).rput PWR PWR_STAGGER_NOW_DELAY_US d).rput PWR PWR_STATUS_STAGGER (b2n (d != 0))

/-- A start joins those that wait, unless it is among them (log entry 37). -/
def waitStart (s : Start) (a : Nat) (c : Chip) : Chip :=
  if c.gov.waiting.any (fun w => decide (w.1 = s)) then c else { c with gov := { c.gov with waiting := c.gov.waiting ++ [(s, a)] } }

/-- A start no longer waits (log entry 37). -/
def unwaitStart (s : Start) (c : Chip) : Chip :=
  { c with gov := { c.gov with waiting := c.gov.waiting.filter (fun w => !decide (w.1 = s)) } }

/-- No start is admitted: a stagger delay runs, or no controller drives the outputs (R475, R490, R508). -/
def govHeld (c : Chip) : Bool := c.rget PWR PWR_STATUS_STAGGER == 1 || c.rget MGT MGT_STATUS_OUTPUTS != 0

/-- The power that retired work of this tick and ballast can give up covers a start (R487). -/
def covered (a : Nat) (c : Chip) : Bool := a ≤ c.gov.freed + c.gov.bal

/-- A start takes its power from retired work of this tick, then from ballast. -/
def takePower (a : Nat) (c : Chip) : Chip :=
  let f := min a c.gov.freed
  { c with gov := { c.gov with freed := c.gov.freed - f, bal := c.gov.bal - (a - f) } }

/-- A start asks for admission (R486, R487): in dynamic mode at once; in fixed-frequency mode when it is the first that waits and
equal power is given up to it. A start not admitted waits (log entry 37). -/
def admission (s : Start) (a : Nat) (c : Chip) : Bool × Chip :=
  if a = 0 then (true, c)
  else
    let c := wake c
    let first := match c.gov.waiting.head? with
      | none => true
      | some w => decide (w.1 = s)
    if govHeld c then (false, waitStart s a c)
    else if c.rget PWR PWR_LIMIT_CUR_FIXED_FREQ = 0 then (true, unwaitStart s c)
    else if first && covered a c then (true, takePower a (unwaitStart s c))
    else (false, waitStart s a c)

end Sys2Proof.Machine
end

