-- ==== Sys2Proof/Machine/Translate.lean ====
section
/-! DEFINITION. Device virtual addressing (R337 to R345): the walk, the caches a walk may use, and the translation of a
page. -/

namespace Sys2Proof.Machine

open Sys2Proof

/-- Where a walk ended: a leaf (first page and page count of the range it maps with its run, the frame of the first page, W,
entry, level, low word) or a stop (KIND, entry, level, low word). -/
inductive Walk
  | leaf (vp n frame : Nat) (w : Bool) (entry level lo : Nat)
  | stop (kind entry level lo : Nat)
  deriving DecidableEq, Repr

/-- The levels of a walk (R337): index bits [lo + w - 1 : lo], and the byte size of the table the entries point to. -/
def walkLevels : List (Nat × Nat × Nat) := [(48, 9, 4096), (39, 9, 4096), (30, 9, 4096), (21, 9, 256), (16, 5, 0)]

/-- Reserved bits of a pointer entry are 0 (R339). -/
def ptrResOk (e : Nat) : Bool := bits e 2 2 == 0 && bits e 4 4 == 0 && bits e 48 16 == 0

/-- Reserved bits of a leaf entry are 0 (R339). -/
def leafResOk (e : Nat) : Bool := bits e 3 1 == 0 && bits e 7 1 == 0 && bits e 8 8 == 0 && bits e 48 16 == 0

/-- The frames of a leaf at the level whose index starts at bit `sh` are backed and aligned (R339). -/
def leafFrameOk (e sh : Nat) : Bool :=
  let n := 2 ^ (sh - 16)
  bits e 16 32 % n == 0 && bits e 16 32 + n ≤ backedFrames

/-- The walk result of a leaf entry (R338, R341): the whole RUN group when its first frame exists, else the page alone. -/
def leafWalk (va e ea lvl sh : Nat) : Walk :=
  let n0 := 2 ^ (sh - 16)
  let lv := va / 65536 / n0 * n0
  let n := n0 * 2 ^ bits e 4 3
  let b := va / 65536 / n * n
  let f := bits e 16 32
  if f ≥ lv - b then .leaf b n (f - (lv - b)) (bitAt e 2) ea lvl (e % 2 ^ 32)
  else .leaf lv n0 f (bitAt e 2) ea lvl (e % 2 ^ 32)

/-- A walk from the table at `tbl` down the levels left (R337, R339). A pointer entry that a cache still holds may be used in
place of the one in memory (R340, R341) (log entry 72). -/
def walkFrom (ctx va : Nat) : List (Nat × Nat × Nat) → Nat → Nat → Chip → Walk × Chip
  | [], _, _, c => (.stop 3 0 0 0, c)
  | (sh, w, nextSize) :: rest, lvl, tbl, c =>
    let ea := tbl + 8 * bits va sh w
    let e := c.rdLe ea 8
    let cached := c.xlt.ptrs.find? (fun p => p.ctx == ctx && p.level == lvl && p.top == va / 2 ^ sh)
    let fresh : Walk ⊕ Nat :=
      if !bitAt e 0 then .inl (.stop 1 ea lvl (e % 2 ^ 32))
      else if bitAt e 1 then
        if lvl ≥ 2 && leafResOk e && bits e 4 3 ≤ 4 && leafFrameOk e sh then
          .inl (leafWalk va e ea lvl sh)
        else .inl (.stop 3 ea lvl (e % 2 ^ 32))
      else
        let nx := bits e 8 40 * 256
        if nextSize ≠ 0 && ptrResOk e && nx % nextSize == 0 && backed nx nextSize then .inr nx
        else .inl (.stop 3 ea lvl (e % 2 ^ 32))
    let go := fun (nx : Nat) (c : Chip) =>
      let keep : PtrC := ⟨ctx, lvl, va / 2 ^ sh, nx⟩
      walkFrom ctx va rest (lvl + 1) nx
        { c with xlt := { c.xlt with ptrs := keep :: c.xlt.ptrs.filter (fun p => !(p.ctx == ctx && p.level == lvl && p.top == va / 2 ^ sh)) } }
    match cached, fresh with
    | some p, .inr nx =>
      if p.next = nx then go nx c
      else let d := c.draw; go (if d.1 % 2 = 0 then nx else p.next) d.2
    | some p, .inl r => let d := c.draw; if d.1 % 2 = 0 then (r, d.2) else go p.next d.2
    | none, .inr nx => go nx c
    | none, .inl r => (r, c)

/-- A walk of a context's tables (R337); a root table that is not wholly backed stops it at level 0 (R339) (log entry 72). -/
def walk (ctx ptRoot va : Nat) (c : Chip) : Walk × Chip :=
  if backed ptRoot 4096 then walkFrom ctx va walkLevels 0 ptRoot c else (.stop 3 ptRoot 0 0, c)

/-- The result of a walk kept with a page of a run list (R342). -/
def setXlat (p : XPage) : Walk → XPage
  | .leaf b _ f w e l lo => { p with ok := true, frame := f + (p.vp - b), w := w, kind := 0, entry := e, level := l, lo := lo, declined := false }
  | .stop k e l lo => { p with ok := false, frame := 0, w := false, kind := k, entry := e, level := l, lo := lo, declined := false }

/-- A walk that ended at a leaf leaves a look-aside entry (R341) (log entry 72). -/
def keepLeaf (ctx : Nat) (r : Walk) (c : Chip) : Chip :=
  match r with
  | .leaf b n f w _ _ _ =>
    let rest := c.xlt.tlb.filter (fun t => !(t.ctx == ctx && t.vp == b && t.n == n))
    { c with xlt := { c.xlt with tlb := { ctx := ctx, vp := b, n := n, frame := f, w := w } :: rest } }
  | .stop _ _ _ _ => c

/-- A page translated for a half's front end: the tables as they stand, or a look-aside entry that still maps the page
otherwise (R340, R341); a walk that ends at a leaf leaves a look-aside entry (log entry 72). -/
def xlatePage (h ctx ptRoot : Nat) (p : XPage) (c : Chip) : XPage × Chip :=
  let hit := c.xlt.tlb.find? (fun t => t.ctx == ctx && t.vp ≤ p.vp && p.vp < t.vp + t.n)
  let r := walk ctx ptRoot (p.vp * 65536) (c.rcount (XLT h) XLT_WALKS 1)
  let fresh := setXlat p r.1
  let c := r.2
  let keep := fun (c : Chip) => keepLeaf ctx r.1 c
  match hit with
  | none => (fresh, keep c)
  | some t =>
    let old := { p with ok := true, frame := t.frame + (p.vp - t.vp), w := t.w, kind := 0, entry := fresh.entry, level := fresh.level, lo := fresh.lo }
    if fresh.ok && fresh.frame == old.frame && fresh.w == old.w then (fresh, c)
    else
      let d := c.draw
      if d.1 % 2 = 0 then (fresh, keep d.2) else (old, d.2.rcount (XLT h) XLT_LOOKASIDE_HITS 1)

/-- Several pages translated in turn. -/
def xlatePages (h ctx ptRoot : Nat) : List XPage → Chip → List XPage × Chip
  | [], c => ([], c)
  | p :: ps, c =>
    let a := xlatePage h ctx ptRoot p c
    let b := xlatePages h ctx ptRoot ps a.2
    (a.1 :: b.1, b.2)

/-- A page that a list of needs gains: the pages stay in rising order, each with the lowest byte needed, whether any need
writes it, and the lowest operand index. -/
def addNeed (vp low op : Nat) (wr : Bool) : List XPage → List XPage
  | [] => [{ vp := vp, low := low, op := op, wr := wr }]
  | p :: ps =>
    if vp < p.vp then { vp := vp, low := low, op := op, wr := wr } :: p :: ps
    else if vp = p.vp then { p with low := min p.low low, op := min p.op op, wr := p.wr || wr } :: ps
    else p :: addNeed vp low op wr ps

/-- The pages that bytes [lo, lo + n) of device space touch, added to a list of needs. -/
def needRange (lo n op : Nat) (wr : Bool) (ps : List XPage) : List XPage :=
  if n = 0 then ps else
  (rangeFrom (lo / 65536) ((lo + n - 1) / 65536 - lo / 65536 + 1)).foldl
    (fun ps vp => addNeed vp (max lo (vp * 65536)) op wr ps) ps

/-- The frame-space address of a device address, through a translated list of pages. -/
def pageAddr (ps : List XPage) (va : Nat) : Option Nat :=
  match ps.find? (fun p => p.vp == va / 65536 && p.ok) with
  | some p => some (p.frame * 65536 + va % 65536)
  | none => none

/-- Runs of a list of pages (R342): neighbours that continue one mapping, or that stopped at one entry, form one run. -/
def runCount : List XPage → Nat
  | [] => 0
  | [_] => 1
  | p :: q :: ps =>
    let joined := q.vp == p.vp + 1 &&
      (if p.ok then q.ok && q.w == p.w && q.frame == p.frame + 1 else !q.ok && q.entry == p.entry)
    (if joined then 0 else 1) + runCount (q :: ps)

end Sys2Proof.Machine
end

