-- ==== Sys2Proof/Machine/Operands.lean ====
section
/-! DEFINITION. Operand descriptors (R69 to R72, R97, R100): parsing, checks, rows and extents, and reading and writing an
operand's elements through the run list and the segments. -/

namespace Sys2Proof.Machine

open Sys2Proof

/-- An operand descriptor (R69), with its operand index in layout order (R81). -/
structure Desc where
  idx : Nat
  addr : Nat
  space : Nat
  strict : Bool
  fmt : Nat
  sfmt : Nat
  blockLog2 : Nat
  dims : Nat
  d0 : Nat
  d1 : Nat
  d2 : Nat
  s1 : Nat
  s2 : Nat
  /-- The raw STRIDE2 field: under REMOTE its bits [15:0] are the window number. -/
  win : Nat
  deriving DecidableEq, Repr

/-- The descriptor at offset o of a command's bytes (R69); dimensions beyond DIMS are taken as 1. -/
def parseDesc (b : List Byte) (o idx : Nat) : Desc :=
  let dims := leAt b (o + 11) 1
  { idx := idx, addr := leAt b o 8, space := bits (leAt b (o + 8) 1) 0 2, strict := bitAt (leAt b (o + 8) 1) 2,
    fmt := bits (leAt b (o + 9) 1) 0 4, sfmt := bits (leAt b (o + 10) 1) 0 4, blockLog2 := bits (leAt b (o + 10) 1) 4 4,
    dims := dims, d0 := leAt b (o + 12) 4, d1 := if dims < 2 then 1 else leAt b (o + 16) 4,
    d2 := if dims < 3 then 1 else leAt b (o + 20) 4, s1 := if dims < 2 then 0 else leAt b (o + 24) 4,
    s2 := if dims < 3 then 0 else leAt b (o + 28) 4, win := leAt b (o + 28) 2 }

/-- The element format of a descriptor. -/
def Desc.f (d : Desc) : Fmt := fmtOf d.fmt

/-- The descriptor carries block scales. -/
def Desc.scaled (d : Desc) : Bool := d.sfmt != 0

/-- Present: a descriptor with DIMS 0, where the opcode allows it, is absent (R70). -/
def Desc.present (d : Desc) : Bool := d.dims != 0

/-- Elements of a block. -/
def Desc.block (d : Desc) : Nat := 2 ^ d.blockLog2

/-- Bytes of one row (R70, R97). -/
def Desc.rowBytes (d : Desc) : Nat := ceilDiv (d.d0 * fmtBits d.f) 8

/-- Elements of the operand. -/
def Desc.count (d : Desc) : Nat := d.d0 * d.d1 * d.d2

/-- Byte offset of row (i1, i2) from ADDR (R70). -/
def Desc.rowOff (d : Desc) (i1 i2 : Nat) : Nat := i2 * d.s2 * 64 + i1 * d.s1

/-- The (i1, i2) pairs of the rows, in flattened order (R573). -/
def Desc.rows (d : Desc) : List (Nat × Nat) :=
  (List.range d.d2).flatMap (fun i2 => (List.range d.d1).map (fun i1 => (i1, i2)))

/-- Encodings and alignment of a descriptor in use (R69 to R71, R100): SPACE and SCALE defined, DIMS 1 to 3 (2 under
REMOTE), dimensions not 0, rows aligned to 64 B. `elem` refuses the scale formats in FMT (R91). -/
def Desc.ok (d : Desc) (elem : Bool) : Bool :=
  d.space != 3 && (d.sfmt == 0 || d.sfmt == 0xE || d.sfmt == 0xF) && d.dims ≥ 1 && d.dims ≤ (if d.space = 2 then 2 else 3) &&
    d.d0 != 0 && d.d1 != 0 && d.d2 != 0 && bits d.addr 0 6 == 0 && (d.dims < 2 || d.s1 % 64 == 0) &&
    (if elem then d.fmt < 0xE else d.fmt ≥ 0xE) &&
    (d.sfmt == 0 || scaleAllowed d.f (fmtOf d.sfmt) d.blockLog2)

/-- A scale descriptor fits its operand (R72). -/
def Desc.scaleFits (d s : Desc) : Bool :=
  s.ok false && s.fmt == d.sfmt && s.sfmt == 0 && s.dims == d.dims && s.d0 == ceilDiv d.d0 d.block && s.d1 == d.d1 && s.d2 == d.d2

/-- The scale descriptor of an operand, checked only when the operand is scaled (R72). -/
def Desc.scalesOk (d s : Desc) : Bool := !d.scaled || d.scaleFits s

/-- Same shape in every dimension. -/
def Desc.sameShape (d e : Desc) : Bool := d.d0 == e.d0 && d.d1 == e.d1 && d.d2 == e.d2

/-! ### Extents -/

/-- Pages that the rows of a VIRT descriptor touch, added to a list of needs (R342). -/
def Desc.needs (d : Desc) (wr : Bool) (ps : List XPage) : List XPage :=
  if d.space = 0 then
    d.rows.foldl (fun ps r => needRange ((bits d.addr 0 57 + d.rowOff r.1 r.2) % 2 ^ 57) d.rowBytes d.idx wr ps) ps
  else ps

/-- The half of a SEEDBED descriptor for a command that runs on half h (R70). -/
def Desc.sbdHalf (d : Desc) (h : Nat) : Nat := if bitAt d.addr 32 then 1 - h else h

/-- Bytes from ADDR to the end of the last row (R257). -/
def Desc.span (d : Desc) : Nat := (d.d2 - 1) * d.s2 * 64 + (d.d1 - 1) * d.s1 + d.rowBytes

/-- A context's segment on a half (R248, R249): base and size in bytes. -/
def CtxDesc.seg (x : CtxDesc) (h : Nat) : Nat × Nat := (nth x.segBase h 0 * 65536, nth x.segSize h 0 * 65536)

/-- What a Seedbed extent [o, o + n) of a context's segment meets (R250): the REASON and the address to report, or nothing. -/
def segCheck (x : CtxDesc) (h o n far : Nat) : Option (Nat × Nat) :=
  let s := x.seg h
  if nth x.segSize h 0 > x.sbdQuota ∨ nth x.segBase h 0 + nth x.segSize h 0 > 3072 then some (4, o + far * 2 ^ 32)
  else if o + n > s.2 then some (3, max o s.2 + far * 2 ^ 32) else none

/-- The segment check of a SEEDBED descriptor (R70, R250). -/
def Desc.segErr (d : Desc) (x : CtxDesc) (h : Nat) : Option Res :=
  if d.space = 1 then
    (segCheck x (d.sbdHalf h) (bits d.addr 0 28) d.span (b2n (bitAt d.addr 32))).map
      (fun r => accessRes r.2 r.1 d.idx)
  else none

/-- The scoreboard extent of a SEEDBED descriptor (R257): whole units of the physical range. -/
def Desc.sbExt (d : Desc) (x : CtxDesc) (h : Nat) (wr : Bool) : List SbExt :=
  if d.space = 1 then
    let hh := d.sbdHalf h
    let a := (x.seg hh).1 + bits d.addr 0 28
    [⟨hh, a / 64, (a + d.span + 63) / 64, wr⟩]
  else []

/-! ### Places and bytes -/

/-- Where a byte of an operand lies. -/
inductive Loc
  | frame (a : Nat)
  | sbd (h o : Nat)
  | none
  deriving DecidableEq, Repr

/-- The context descriptor that governs a command, an empty one if none is held. -/
def Chip.ctxDesc (c : Chip) (n : Nat) : CtxDesc :=
  ((c.ctx n).held).getD ⟨0, 0, 0, 4, false, 0, 0, 0, [0, 0], [0, 0], 0, 0, []⟩

/-- The place of byte `off` of an operand (R70). -/
def opLoc (c : Chip) (m : Cmd) (d : Desc) (off : Nat) : Loc :=
  if d.space = 0 then
    match pageAddr m.pages ((bits d.addr 0 57 + off) % 2 ^ 57) with
    | some a => .frame a
    | none => .none
  else if d.space = 1 then
    let h := d.sbdHalf m.half
    .sbd h (((c.ctxDesc m.ctx).seg h).1 + bits d.addr 0 28 + off)
  else .none

/-- The byte at a place. -/
def Chip.locByte (c : Chip) : Loc → Byte
  | .frame a => c.rdByte a
  | .sbd h o => c.rdSbd h o
  | .none => 0

/-- n bytes of an operand from offset off. -/
def opBytes (c : Chip) (m : Cmd) (d : Desc) (off n : Nat) : List Byte :=
  (List.range n).map (fun i => c.locByte (opLoc c m d (off + i)))

/-- A unit as the gathering of stores numbers it: a unit of frame space, or one of the Seedbeds. -/
def landKey (l : Loc) : Option Nat :=
  match l with
  | .frame a => some (a / 64)
  | .sbd h o => some (2 ^ 60 + sbdKey h o / 64)
  | .none => none

/-- The unit of a place is poisoned or bad. -/
def Chip.unitSick (c : Chip) (l : Loc) : Bool :=
  match l with
  | .frame a => c.poison.contains (a / 64) || c.memBad.contains (a / 64)
  | .sbd h o => c.sbdPoison.contains (sbdKey h o / 64) || c.sbdBad.any (fun w => w / 16 == sbdKey h o / 64)
  | .none => false

/-- A byte stored into a bad or poisoned unit is gathered with the others of its commit unit (log entry 35). -/
def Chip.gather (c : Chip) (l : Loc) (poison : Bool) : Chip :=
  match landKey l with
  | none => c
  | some k =>
    if poison || c.unitSick l then
      let e := kget (fun _ => (0, false)) c.landing k
      let at_ := match l with
        | .frame a => a % 64
        | .sbd h o => sbdKey h o % 64
        | .none => 0
      { c with landing := kset (fun _ => (0, false)) c.landing k (if poison then e.1 else setBits e.1 at_ 1 1, e.2 || poison) }
    else c

/-- A bank stores bytes: a word stored whole takes good parity; a bad one stored in part stays bad, and SBD_ERR.MERGE is set (R263). -/
def landWords (h u mask : Nat) (c : Chip) : Chip :=
  let part := fun w => bits mask (4 * (w % 16)) 4
  let c1 := { c with sbdBad := c.sbdBad.filter (fun w => !(w / 16 == u && part w == 15)) }
  if c1.sbdBad.any (fun w => w / 16 == u && part w != 0) then c1.rput (SBD h) SBD_ERR_MERGE 1 else c1

/-- The gathered stores of one unit reach their memory (R263, R265, R273, R278): a unit stored whole and clean loses its poison, and one
stored in part is read and merged first (log entry 35). -/
def landUnit (k mask : Nat) (poison : Bool) (c : Chip) : Chip :=
  let whole := mask == 2 ^ 64 - 1
  if k < 2 ^ 60 then
    let c := if !c.memBad.contains k then c
      else if whole then { c with memBad := c.memBad.filter (fun u => u != k) } else memUncorr (k * 64) c
    if whole && !poison then { c with poison := c.poison.filter (fun u => u != k) } else c
  else
    let u := k - 2 ^ 60
    let c := landWords (u * 64 / sbdKey 1 0) u mask c
    if whole && !poison then { c with sbdPoison := c.sbdPoison.filter (fun x => x != u) } else c

/-- The end of a commit unit: its stores reach their memories (log entry 35). -/
def Chip.land (c : Chip) : Chip :=
  c.landing.foldl (fun c e => landUnit e.1 e.2.1 e.2.2 c) { c with landing := [] }

/-- A byte stored in a half's Seedbed, its parity left to the end of the commit unit. -/
def Chip.putSbd (c : Chip) (h o : Nat) (b : Byte) : Chip := { c with sbd := kset memDef c.sbd (sbdKey h o) b }

/-- Bytes of an operand stored from offset off; the units that they touch are gathered until the commit unit ends (R265, R278). -/
def opStore (c : Chip) (m : Cmd) (d : Desc) (off : Nat) (bs : List Byte) : Chip :=
  (List.range bs.length).foldl (fun c i =>
    let l := opLoc c m d (off + i)
    let c := match l with
      | .frame a => c.wrByte a (nth bs i 0)
      | .sbd h o => c.putSbd h o (nth bs i 0)
      | .none => c
    c.gather l false) c

/-- The units that bytes [off, off + n) of an operand touch, marked poisoned. -/
def opPoison (c : Chip) (m : Cmd) (d : Desc) (off n : Nat) : Chip :=
  (List.range n).foldl (fun c i =>
    let l := opLoc c m d (off + i)
    let c := match l with
      | .frame a => c.poisonRange a 1
      | .sbd h o => { c with sbdPoison := insertNat (sbdKey h o / 64) c.sbdPoison }
      | .none => c
    c.gather l true) c

/-! ### Elements -/

/-- Element width of an operand. -/
def Desc.w (d : Desc) : Nat := fmtBits d.f

/-- First byte, bit in it, and bytes touched of element i0 of a row (R97). -/
def elemSpan (d : Desc) (i0 : Nat) : Nat × Nat × Nat :=
  let b := d.w * i0
  (b / 8, b % 8, (b % 8 + d.w + 7) / 8)

/-- The code of element (i0, i1, i2). -/
def elemCode (c : Chip) (m : Cmd) (d : Desc) (i0 i1 i2 : Nat) : Nat :=
  let s := elemSpan d i0
  bits (leNat (opBytes c m d (d.rowOff i1 i2 + s.1) s.2.2)) s.2.1 d.w

/-- Element (i0, i1, i2) stored; bits beside it are kept. -/
def elemStore (c : Chip) (m : Cmd) (d : Desc) (i0 i1 i2 code : Nat) : Chip :=
  let s := elemSpan d i0
  let o := d.rowOff i1 i2 + s.1
  opStore c m d o (leBytes s.2.2 (setBits (leNat (opBytes c m d o s.2.2)) s.2.1 d.w code))

/-- The scale code of element (i0, i1, i2)'s block, from its scale descriptor. -/
def scaleCode (c : Chip) (m : Cmd) (d s : Desc) (i0 i1 i2 : Nat) : Nat := elemCode c m s (i0 / d.block) i1 i2

/-- The value of element (i0, i1, i2), its block scale applied (R101), as a conversion into dst reads it (R107). -/
def elemValTo (c : Chip) (m : Cmd) (d s : Desc) (strict : Bool) (dst : Fmt) (i0 i1 i2 : Nat) : Val :=
  let v := readElem d.f strict dst (elemCode c m d i0 i1 i2)
  if d.scaled then scaleVal (fmtOf d.sfmt) (scaleCode c m d s i0 i1 i2) v else v

/-- The value of element (i0, i1, i2), its block scale applied (R101). -/
def elemVal (c : Chip) (m : Cmd) (d s : Desc) (i0 i1 i2 : Nat) : Val := elemValTo c m d s false .f32 i0 i1 i2

/-- The elements of a flattened operand, as (i0, i1, i2). -/
def Desc.elems (d : Desc) : List (Nat × Nat × Nat) :=
  d.rows.flatMap (fun r => (List.range d.d0).map (fun i0 => (i0, r.1, r.2)))

/-! ### Bad data on a read -/

/-- What a read of an operand meets: a poisoned unit (address in the space of the descriptor, SOURCE), a unit that cannot be
corrected (with its frame-space address), or a Seedbed word with bad parity (its half and physical offset). -/
inductive Bad
  | poison (addr src : Nat)
  | uncorr (addr src a : Nat)
  | parity (h o : Nat)
  deriving DecidableEq, Repr

/-- SOURCE of a frame-space address (R81): 1 Infield, 2 Outfield. -/
def Chip.srcOf (c : Chip) (a : Nat) : Nat := if (c.place (a / 65536)).region < 2 then 1 else 2

/-- The first bad unit that bytes [off, off + n) of an operand meet. -/
def opBad (c : Chip) (m : Cmd) (d : Desc) (off n : Nat) : Option Bad :=
  if n = 0 then none else
  if d.space = 1 then
    match opLoc c m d off with
    | .sbd h o =>
      match c.firstBadWord h o n with
      | some w => some (.parity h w)
      | none =>
        match c.sbdPoison.find? (fun u => sbdKey h o < u * 64 + 64 && u * 64 < sbdKey h o + n) with
        | some u => some (.poison (d.addr + off + (max (u * 64) (sbdKey h o) - sbdKey h o)) 3)
        | none => none
    | _ => none
  else
    (List.range n).findSome? (fun i =>
      match opLoc c m d (off + i) with
      | .frame a =>
        if !(i == 0 || a % 64 == 0) then none
        else if c.memBad.contains (a / 64) then some (.uncorr ((d.addr + off + i) / 64 * 64) (c.srcOf a) a)
        else if c.poisoned a then some (.poison ((d.addr + off + i) / 64 * 64) (c.srcOf a)) else none
      | _ => none)

/-- The first bad unit that the rows of an operand meet. -/
def Desc.bad (c : Chip) (m : Cmd) (d : Desc) : Option Bad :=
  if d.present then d.rows.findSome? (fun r => opBad c m d (d.rowOff r.1 r.2) d.rowBytes) else none

/-- Element (i0, i1, i2) lies in bad data. -/
def elemBad (c : Chip) (m : Cmd) (d : Desc) (i0 i1 i2 : Nat) : Option Bad :=
  let s := elemSpan d i0
  opBad c m d (d.rowOff i1 i2 + s.1) s.2.2

/-- The first poisoned or uncorrectable unit met is kept with the order in which the conditions arose (R84, R85). -/
def Notes.sawBad (n : Notes) (un : Bool) (p : Nat × Nat) : Notes :=
  if un then (if n.uncorr.isSome then n else { n with uncorr := some p, order := n.order ++ [sUncorr] })
  else (if n.poison.isSome then n else { n with poison := some p, order := n.order ++ [sPoisoned] })

/-- The command meets poison or an uncorrectable unit (R84, R279): the first of each is noted. -/
def takeBad (b : Bad) (m : Cmd) (c : Chip) : Cmd × Chip :=
  match b with
  | .poison a s => ({ m with notes := m.notes.sawBad false (a, s) }, c)
  | .uncorr a s f => ({ m with notes := m.notes.sawBad true (a, s) }, memUncorr f c)
  | .parity _ _ => (m, c)

end Sys2Proof.Machine
end

