-- ==== Sys2Proof/Machine/Complete.lean ====
section
/-! DEFINITION. Context descriptors (R25, R33, R345), event rings (R46 to R49, R570), completion records (R43 to R45, R79 to
R83), the numeric trap (R110 to R117) and retirement with all it releases (R40, R51, R57, R260, R355). -/

namespace Sys2Proof.Machine

open Sys2Proof

/-! ### Context descriptors -/

/-- The lowest failing page of each kind among ring pages (R345): absent or invalid first, then written with W clear. -/
def ringFail (ps : List XPage) : Option Res :=
  match ps.find? (fun p => !p.ok) with
  | some p => some (mkRes sUnmapped [(0, 8, p.vp * 65536), (8, 1, 1), (9, 1, 0xFF)])
  | none => (ps.find? (fun p => p.wr && !p.w)).map (fun p => accessRes (p.vp * 65536) 2 0xFF)

/-- A context's segment entry on a half (R248, R569): base and size in 64 KiB units. -/
def Chip.segEntry (c : Chip) (n h : Nat) : Nat × Nat :=
  let a := c.rget (SBD h) SBD_SEG_TABLE_BASE_BASE * 4096 + 8 * n
  if backed a 8 then (bits (c.rdLe a 2) 0 12, bits (c.rdLe (a + 2) 2) 0 13) else (0, 0)

/-- A context descriptor read from the table and checked (R25, R33, R249, R356), its event ring not yet translated. -/
def parseCtx (n : Nat) (c : Chip) : Option CtxDesc :=
  let a := c.rget MOD MOD_CTX_TABLE_BASE_BASE * 4096 + 64 * n
  let d := c.rdMem a 64
  let eqLog2 := leAt d 24 1
  let eqBase := leAt d 16 8
  let ptRoot := leAt d 0 8
  if !backed a 64 || !bitAt (leAt d 25 1) 0 || eqLog2 < 4 || eqLog2 > 16 || eqBase % 4096 != 0 || ptRoot % 4096 != 0 then none
  else
    let pwt := leAt d 8 8
    let nwin := if backed pwt 64 then c.rdLe (pwt + 4) 2 else 0
    let pwtOk := pwt != 0 && backed pwt (64 + 32 * nwin)
    let s0 := c.segEntry n 0
    let s1 := c.segEntry n 1
    some { ptRoot := ptRoot, pwtBase := if pwtOk then pwt else 0, eqBase := bits eqBase 0 57, eqLog2 := eqLog2,
           priv := bitAt (leAt d 25 1) 1, prioCap := bits (leAt d 26 1) 0 2, sbdQuota := leAt d 28 4,
           trapRec := leAt d 32 8, segBase := [s0.1, s1.1], segSize := [s0.2, s1.2],
           faultTimeout := if pwtOk then c.rdLe pwt 4 else 0, nwin := if pwtOk then nwin else 0, eqPages := [] }

/-- The pages of an event ring (R345). -/
def eqNeeds (d : CtxDesc) (ps : List XPage) : List XPage := needRange d.eqBase (32 * 2 ^ d.eqLog2) 0xFF true ps

/-- A context descriptor read, checked and its event ring translated (R345): the outcome that fails the reader, or the descriptor. -/
def readCtx (n : Nat) (c : Chip) : (Res ⊕ CtxDesc) × Chip :=
  match parseCtx n c with
  | none => (.inl malformedRes, c)
  | some d =>
    let r := xlatePages (n % 2) n d.ptRoot (eqNeeds d []) c
    match ringFail r.1 with
    | some e => (.inl e, r.2)
    | none => (.inr { d with eqPages := r.1 }, r.2)

/-! ### Event rings -/

/-- Records of an event ring that software has not consumed. -/
def Ctx.unconsumed (x : Ctx) : Nat := wrapSub 32 x.eqCount x.eqConsumed

/-- Free slots of an event ring (R48). -/
def Ctx.eqFree (x : Ctx) (d : CtxDesc) : Nat := 2 ^ d.eqLog2 - x.unconsumed

/-- The 32 bytes of an event record (R46). -/
def eventBytes (type queue seq time : Nat) (dt : List Byte) : List Byte :=
  leBytes 4 (type + 4096 * queue) ++ leBytes 4 seq ++ leBytes 8 time ++ sliceBytes dt 0 16

/-- A record put into the next slot of a context's event ring. -/
def writeEq (n : Nat) (d : CtxDesc) (rec : List Byte) (c : Chip) : Chip :=
  let x := c.ctx n
  match pageAddr d.eqPages (d.eqBase + 32 * (x.eqCount % 2 ^ d.eqLog2)) with
  | some a => c.wrMem a rec
  | none => c

/-- An event for a context whose descriptor is held (R48). -/
def eventTo (n : Nat) (d : CtxDesc) (type queue seq : Nat) (dt : List Byte) (c : Chip) : Chip :=
  let x := c.ctx n
  if x.eqFree d ≥ 2 then
    (writeEq n d (eventBytes type queue seq c.time dt) c).setCtx n { x with eqCount := wrapAdd 32 x.eqCount 1, gap := none }
  else match x.gap with
  | some (dropped, slot) =>
    let k := satAdd dropped 1 (2 ^ 32 - 1)
    let c := match pageAddr d.eqPages (d.eqBase + 32 * slot + 16) with
      | some a => c.wrMem a (leBytes 4 k)
      | none => c
    c.setCtx n { x with gap := some (k, slot) }
  | none =>
    if x.eqFree d = 1 then
      (writeEq n d (eventBytes 0xFFF 0xFFFFF 0 c.time (fields 16 [(0, 4, 1), (4, 8, c.time)])) c).setCtx n
        { x with eqCount := wrapAdd 32 x.eqCount 1, gap := some (1, x.eqCount % 2 ^ d.eqLog2) }
    else c.setCtx n { x with heldDrops := satAdd x.heldDrops 1 (2 ^ 32 - 1), heldTime := if x.heldDrops = 0 then c.time else x.heldTime }

/-- An event for a context: to the ring of the descriptor held, or of the descriptor read now; lost without a fault if it
cannot be read (R570). -/
def postEvent (n type queue seq : Nat) (dt : List Byte) (c : Chip) : Chip :=
  match (c.ctx n).held with
  | some d => eventTo n d type queue seq dt c
  | none =>
    if c.rget MOD MOD_CTX_TABLE_BASE_BASE = 0 then c else
    match readCtx n c with
    | (.inr d, c) => eventTo n d type queue seq dt (c.setCtx n { c.ctx n with held := some d })
    | (.inl _, c) => c

/-- A failure reported to a context after its command retired: the error-pending flag and the event (R52, R570). -/
def reportFailure (n : Nat) (f : Failure) (type queue seq : Nat) (dt : List Byte) (c : Chip) : Chip :=
  let x := c.ctx n
  let x := { x with err := some (x.err.getD f), errCount := satAdd x.errCount 1 (2 ^ 32 - 1) }
  postEvent n type queue seq dt (c.setCtx n x)

/-- Software frees slots of a context's event ring; drops held in the module go out as a gap marker in the first slot freed
(R48, case 4). -/
def consumeEq (n v : Nat) (c : Chip) : Chip :=
  let x := { c.ctx n with eqConsumed := v % 2 ^ 32 }
  let c := c.setCtx n x
  match x.held with
  | some d =>
    if x.heldDrops > 0 ∧ x.eqFree d ≥ 1 then
      (writeEq n d (eventBytes 0xFFF 0xFFFFF 0 c.time (fields 16 [(0, 4, x.heldDrops), (4, 8, x.heldTime)])) c).setCtx n
        { x with eqCount := wrapAdd 32 x.eqCount 1, gap := some (x.heldDrops, x.eqCount % 2 ^ d.eqLog2), heldDrops := 0, heldTime := 0 }
    else c
  | none => c

/-! ### Completion records -/

/-- ENGINE (R79): class and half. -/
def engByte (cls half : Nat) : Nat := cls % 16 + 16 * (half % 2)

/-- A completion record (R79). -/
def recordBytes (c : Chip) (seq status engine inst : Nat) (dt : List Byte) : List Byte :=
  leBytes 4 seq ++ leBytes 1 status ++ leBytes 1 engine ++ leBytes 1 inst ++ leBytes 1 (b2n c.unsure) ++ leBytes 8 c.time ++
    sliceBytes dt 0 16

/-- A record written to a queue's completion ring (R43). -/
def writeCq (q : Nat) (rec : List Byte) (c : Chip) : Chip :=
  let x := c.queue q
  let c := match pageAddr x.cqPages (bits x.cqBase 0 57 + 32 * (x.cqCount % 2 ^ x.cqLog2)) with
    | some a => c.wrMem a rec
    | none => c
  c.setQueue q { x with cqCount := wrapAdd 32 x.cqCount 1 }

/-- Detail byte 15 (DFLAGS, R80) with a bit set. -/
def setDflag (dt : List Byte) (i : Nat) : List Byte := putLe dt 15 1 (leAt dt 15 1 ||| 2 ^ i)

/-- Detail byte 14 (CAUSE, R80). -/
def setCause (dt : List Byte) (v : Nat) : List Byte := putLe dt 14 1 v

/-- A carrier that stands for a mailbox cleared while a command executed: its reply is discarded (R430). -/
def lostPath (k : Carrier) : Bool :=
  match k with
  | .mailbox p => decide (p ≥ 2)
  | _ => false

/-- A reply datagram (R87): the envelope, the record and its data. -/
def netSend (session : Nat) (f : NetFrom) (bytes : List Byte) (c : Chip) : Chip :=
  if c.rget NET MGT_NET_CTL_ENABLE = 0 then c
  else c.emit (.net f.v6 f.addr f.mac f.port (fields 16 [(0, 2, 0x4E4B), (2, 1, 1), (3, 1, 1), (4, 4, session)] ++ bytes))

/-- A record with the duplicate mark (R80). -/
def dupRecord (rec : List Byte) : List Byte := putLe rec 31 1 (leAt rec 31 1 ||| 1)

/-- The reply of a management path: the record and the reply data, cut at RESP_MAX and at 1,024 bytes (R76, R86); sent as datagrams to
those that asked, a repeat being answered with the marked record (R40, R87). -/
def pathReply (k : Carrier) (seq : Nat) (rec data : List Byte) (c : Chip) : Chip :=
  if lostPath k then c
  else match k with
  | .net s =>
    let x := c.path k
    (x.senders.filter (fun f => f.seq == seq)).foldl (fun c f => netSend s f (if f.dup then dupRecord rec else rec ++ data.take 1024) c)
      (c.setPath k { x with senders := x.senders.filter (fun f => f.seq != seq) })
  | k => c.setPath k { c.path k with busy := false, reply := rec ++ data.take 1024, cursor := 0 }

/-- An outcome recorded in the duplicate window (R40, R88). -/
def markSeen (w : List Seen) (seq : Nat) (r : Res) : List Seen :=
  w.map (fun s => if s.seq = seq ∧ s.res = none then { s with res := some r } else s)

/-- The records of duplicates that waited for a command (R40). -/
def writeDups (q seq : Nat) (r : Res) (c : Chip) : Chip :=
  let ds := (c.queue q).dups.filter (fun d => d.seq == seq)
  let c := ds.foldl (fun c d => writeCq q (recordBytes c d.seq r.status (engByte d.cls d.half) 0 (setDflag r.detail 0)) c) c
  c.setQueue q { c.queue q with dups := (c.queue q).dups.filter (fun d => d.seq != seq) }

/-! ### The numeric trap -/

/-- A mirror register of the configuration in force, or of the previous one (R62). -/
def cfgAt (c : Chip) (prev : Bool) (b : Nat) (f : Fld) : Nat :=
  if prev then bits (kget (fun o => c.reg o) c.prevCfg (b + f.off)).toNat f.lo f.w else c.rget b f

/-- The mirror register a command runs under (R62). -/
def cfgGet (c : Chip) (m : Cmd) (b : Nat) (f : Fld) : Nat := cfgAt c m.usesPrev b f

/-- TRAP_NAN, or FORCE_TRAP of the configuration it runs under (R110). -/
def trapOn (c : Chip) (m : Cmd) : Bool := m.trapNan || cfgGet c m MOD MOD_FMT_CTL_CUR_FORCE_TRAP == 1

/-- The trap record of R112. -/
def trapRecord (c : Chip) (m : Cmd) (q : Nat) (e : NanEv) : List Byte :=
  fields 64 [(0, 1, 1 + 2 * b2n c.unsure), (1, 1, e.cause), (2, 2, m.opcode), (4, 4, q), (8, 4, m.seq),
    (12, 1, engByte m.cls m.half), (13, 1, m.inst), (14, 1, e.stage), (16, 2, e.tileRow), (18, 2, e.tileCol),
    (20, 2, e.elemRow), (22, 2, e.elemCol), (24, 8, e.time)]

/-- The claim of the trap record (R115 step 1, R116): bit 0 RECORD_WRITTEN, bit 1 RECORD_HELD of the notice. -/
def claimTrap (m : Cmd) (q : Nat) (e : NanEv) (c : Chip) : Nat × Chip :=
  let d := c.ctxDesc m.ctx
  if d.trapRec = 0 then (0, c) else
  let va := bits d.trapRec 0 57
  let r := xlatePages m.half m.ctx d.ptRoot (needRange va 64 0xFF true []) c
  if !(r.1.all (fun p => p.ok && p.w)) then (0, r.2) else
  let at_ := fun i => (pageAddr r.1 (va + i)).getD (backedFrames * 65536)
  let c := r.2
  if bitAt (c.rdByte (at_ 0)).toNat 0 then
    let later := leNat ((List.range 4).map (fun i => c.rdByte (at_ (32 + i))))
    let nb := leBytes 4 (satAdd later 1 (2 ^ 32 - 1))
    (2, (List.range 4).foldl (fun c i => c.wrByte (at_ (32 + i)) (nth nb i 0)) c)
  else
    let rec_ := trapRecord c m q e
    (1, (List.range 64).foldl (fun c i => c.wrByte (at_ i) (nth rec_ i 0)) c)

/-- The numeric trap notice (R115 step 4). -/
def trapNotice (m : Cmd) (q : Nat) (e : NanEv) (flags : Nat) (c : Chip) : Chip :=
  postEvent m.ctx 0x0004 q m.seq
    (fields 16 [(0, 2, e.tileRow), (2, 2, e.tileCol), (4, 1, e.stage), (5, 1, e.cause), (6, 1, flags)]) c

/-! ### What retirement releases -/

/-- A command waits on a pending fault, or its run list stops at that fault's entry (R349, R355). -/
def cmdWaits (f : PFault) (m : Cmd) : Bool :=
  m.stall == some f.id ||
    (m.ctx == f.ctx && m.pages.any (fun p => p.entry == f.entry && !p.declined && (!p.ok || (p.wr && !p.w))))

/-- A block's thread group waits on a pending fault. -/
def drillWaits (f : PFault) (c : Chip) : Bool :=
  c.drill.launches.any (fun l => l.blocks.any (fun b => b.groups.any (fun g => g.stall == some f.id)))

/-- Pending faults that lost their last waiter are withdrawn (R355): never written, or followed by an entry of KIND 0x80. -/
def withdrawFaults (c : Chip) : Chip :=
  let gone := fun (f : PFault) => f.kind != 0x80 && !(c.cmds.any (cmdWaits f)) && !drillWaits f c
  let ps := c.xlt.pending.flatMap (fun f =>
    if gone f then (if f.written then [{ f with kind := 0x80, written := false }] else []) else [f])
  { c with xlt := { c.xlt with pending := ps, tableFull := c.xlt.tableFull && (ps.filter (fun f => f.kind != 0x80)).length ≥ 4096 } }

/-- A barrier whose pending entry of a command is withdrawn (R381): an entry of that slot counted for G + 1 then counts for
G, and the oldest held one takes its place. -/
def withdrawEntry (k : Carrier) (seq : Nat) (b : Barrier) : Barrier :=
  match b.entries.find? (fun e => decide (e.who = .cmd k seq)) with
  | none => b
  | some e =>
    let rest := b.entries.filter (fun x => !decide (x.who = .cmd k seq))
    let shifted := match e.gen with
      | some g => rest.map (fun x => if x.slot = e.slot then { x with gen := x.gen.map (fun y => if y > g then y - 1 else y) } else x)
      | none => rest
    { b with entries := shifted }

/-- A command's watches, barrier entries and Yoke places are withdrawn. -/
def dropYoke (k : Carrier) (seq : Nat) (y : YokeSt) : YokeSt :=
  { y with
    watches := y.watches.filter (fun w => !(decide (w.who = .preWait k seq) || decide (w.who = .wait k seq))),
    bars := y.bars.map (fun e => (e.1, e.2.map (withdrawEntry k seq))) }

/-- A command in execution that a pre-empt waits for (R27); a WAIT whose watch fired is not in execution (R374). -/
def preemptWaits (x : Cmd) : Bool :=
  decide (x.phase = .executing) || (decide (x.phase = .finished) && x.issued && !(x.cls == 6 && (x.op == 5 || x.op == 0xA)))

/-- A command that a DISABLE of queue q waits for (R57): not itself, nor a later DISABLE of the queue. -/
def disableWaits (m : Cmd) (q : Nat) (x : Cmd) : Bool :=
  decide (x.car = .queue q) && !cmdIs m.car m.seq x && !(decide (x.wait = .disable q) && decide (x.car = m.car) && x.ord > m.ord)

/-- What a finished wait of a queue-control command answers (R27, R57, R359); none while it still waits. -/
def waitOver (c : Chip) (m : Cmd) : Option Res :=
  match m.wait with
  | .disable q => if c.cmds.any (disableWaits m q) then none else some doneRes
  | .preempt n => if c.cmds.any (fun x => x.ctx == n && preemptWaits x && !cmdIs m.car m.seq x) then none else some doneRes
  | .invalidate _ _ _ ords => if c.cmds.all (fun x => !ords.contains x.gord) then some doneRes else none
  | _ => none

/-- A queue is DISABLED, and a disable through MOD_QCTL_CMD that waited for it has ended (R549). -/
def disabled (q : Nat) (c : Chip) : Chip :=
  let c := c.setQueue q { c.queue q with st := .disabled, sqPages := [], cqPages := [], wlPages := [] }
  if c.rget MOD MOD_QCTL_RESULT_STATE = 1 ∧ c.rget MOD MOD_QCTL_CMD_QUEUE = q then
    (c.rput MOD MOD_QCTL_RESULT_STATE 2).rput MOD MOD_QCTL_RESULT_STATUS sDone
  else c

/-- A queue that drains and holds nothing more is DISABLED (R57). -/
def settleDrain (q : Nat) (c : Chip) : Chip :=
  if (c.queue q).st = .draining ∧ c.cmdsOf (.queue q) = [] ∧ (c.queue q).dups = [] then disabled q c else c

/-- Waits that a retirement ends: the disabled queue reads DISABLED, and the waiting commands finish. -/
def settleWaits (c : Chip) : Chip :=
  let done := c.cmds.filter (fun m => decide (m.phase = .executing) && (waitOver c m).isSome)
  let c := done.foldl (fun c m => c.putCmd { m with phase := .finished, res := waitOver c m }) c
  done.foldl (fun c m => match m.wait with
    | .disable q => settleDrain q c
    | _ => c) c

/-- The successor that a broken chain aborts (R51): the queue's next accepted command, if it has not retired. -/
def chainNext (c : Chip) (m : Cmd) : Option Cmd := c.cmds.find? (fun x => decide (x.car = m.car) && x.ord == m.ord + 1)

/-- One command retires with an outcome (R43, R115): the trap record, the completion record, duplicates' records, the notify
event, and the release of what it held. -/
def retireBody (m : Cmd) (r0 : Res) (c : Chip) : Chip :=
  let r : Res := if m.dup then { r0 with detail := setDflag r0.detail 0 } else r0
  match m.car with
  | .queue q =>
    let trap : Option NanEv := if r.status = sTrap then m.notes.nan else none
    let cl := match trap with
      | some e => claimTrap m q e c
      | none => (0, c)
    let c := cl.2
    let c := writeCq q (recordBytes c m.seq r.status (engByte m.cls m.half) (if m.issued then m.inst else 0) r.detail) c
    let c := { c with cmds := c.cmds.filter (fun x => !cmdIs m.car m.seq x) }
    let x := c.queue q
    let c := c.setQueue q { x with window := markSeen x.window m.seq r,
                                   chainBroken := x.chainBroken || (m.chainFlag && r.status > 1 && m.ord + 1 == x.accepted) }
    let c := c.setQueue q { c.queue q with doneThrough := c.doneThrough q }
    let c := writeDups q m.seq r c
    let c := if m.notify then postEvent m.ctx 0x0003 q m.seq (fields 16 [(0, 1, r.status)]) c else c
    let c := match trap with
      | some e =>
        let c := if (c.queue q).st = QState.enabled ∨ (c.queue q).st = QState.preempted then c.setQueue q { c.queue q with st := .error } else c
        trapNotice m q e cl.1 c
      | none => c
    let c := { c with yoke := dropYoke m.car m.seq c.yoke,
                      drill := { c.drill with launches := c.drill.launches.filter (fun l => !(l.q == q && l.seq == m.seq)) } }
    let c := if r.status = sMalformed then c.rcount (QPB (q % 2)) QPR_MALFORMED 1 else c
    settleWaits (settleDrain q (withdrawFaults c))
  | k =>
    let rec_ := recordBytes c m.seq r.status (engByte m.cls 0) 0xFF r.detail
    let c := { c with cmds := c.cmds.filter (fun x => !cmdIs m.car m.seq x) }
    let c := if lostPath k then c else c.setPath k { c.path k with window := markSeen (c.path k).window m.seq r }
    settleWaits (pathReply k m.seq rec_ (m.reply.take (m.par 24 4)) c)

/-- One command retires, and gives up its power and its place among the starts that wait (R487). -/
def retireOne (m : Cmd) (r : Res) (c : Chip) : Chip :=
  let c := retireBody m r c
  giveUp m.adm { c with gov := { c.gov with waiting := c.gov.waiting.filter (fun w => !decide (w.1 = .cmd m.car m.seq)) } }

/-- Abort detail (R80): CAUSE, and ISSUED when the command had issued. -/
def abortRes (m : Cmd) (cause : Nat) : Res :=
  let d := setCause (detail []) cause
  ⟨sAborted, if m.issued then setDflag d 3 else d⟩

/-- A command retires, and a broken chain aborts its successors in turn (R51). -/
def retireFuel : Nat → Cmd → Res → Chip → Chip
  | 0, m, r, c => retireOne m r c
  | n + 1, m, r, c =>
    let next := if m.chainFlag && r.status > 1 then chainNext c m else none
    let c := retireOne m r c
    match next with
    | some x => retireFuel n x (abortRes x 4) c
    | none => c

/-- A command retires with an outcome; a queue holds at most 64 commands, so a chain is at most that long (R41). -/
def retire (m : Cmd) (r : Res) (c : Chip) : Chip := retireFuel 64 m r c

/-- A command's outcome is decided; its record is written when it retires. -/
def finish (m : Cmd) (r : Res) (c : Chip) : Chip := c.putCmd { m with phase := .finished, res := some r }

/-- Commands that wait for something end with DONE. -/
def endWaits (w : WaitFor) (c : Chip) : Chip :=
  (c.cmds.filter (fun m => decide (m.phase = .executing) && decide (m.wait = w))).foldl (fun c m => finish m doneRes c) c

/-! ### Notes and statuses of engine commands -/

/-- A NaN event: the first is kept (R111). -/
def Notes.addNan (n : Notes) (e : NanEv) : Notes :=
  if n.nan.isSome then n else { n with nan := some e, order := n.order ++ [sTrap] }

/-- One written element noted (R106, R110): saturation, NaN stored as 0, and the command's first NaN event with its cause
and place. -/
def Notes.conv (n : Notes) (cv : Conv) (e : NanEv) : Notes :=
  let n := if cv.sat then { n with sat := satAdd n.sat 1 (2 ^ 32 - 1) } else n
  let n := if cv.nanZero then { n with nanZero := satAdd n.nanZero 1 (2 ^ 32 - 1) } else n
  if cv.nan then n.addNan (if cv.nanZero then { e with cause := 4 } else e) else n

/-- The first condition to arise that ends the command otherwise than DONE (R85). -/
def Notes.first (n : Notes) (trap : Bool) : Option Nat := n.order.find? (fun s => s != sTrap || trap)

/-- The outcome of a command that ran to its end (R82, R84, R85, R106, R110). -/
def endRes (c : Chip) (m : Cmd) (base : List (Nat × Nat × Nat)) : Res :=
  let d := fun (l : List (Nat × Nat × Nat)) => if m.tandem then setDflag (detail l) 2 else detail l
  let d := fun l => if m.reruns > 0 then setDflag (d l) 4 else d l
  let at_ := fun (p : Option (Nat × Nat)) => d [(0, 8, (p.getD (0, 0)).1), (8, 1, (p.getD (0, 0)).2)]
  match m.notes.first (trapOn c m) with
  | some 5 =>
    match m.notes.nan with
    | some e => ⟨sTrap, d [(0, 2, e.tileRow), (2, 2, e.tileCol), (4, 1, e.stage)]⟩
    | none => ⟨sTrap, d []⟩
  | some 6 => ⟨sUncorr, at_ m.notes.uncorr⟩
  | some _ => ⟨sPoisoned, at_ m.notes.poison⟩
  | none =>
    match m.notes.note with
    | some (k, n, f, s) => ⟨sNoted, d [(0, 4, n), (4, 4, f), (8, 4, s), (13, 1, k)]⟩
    | none =>
      if m.notes.sat > 0 then ⟨sNoted, d [(0, 4, m.notes.sat), (13, 1, 3)]⟩
      else if m.notes.nanZero > 0 then ⟨sNoted, d [(0, 4, m.notes.nanZero), (13, 1, 4)]⟩
      else ⟨sDone, d base⟩

end Sys2Proof.Machine
end

