-- ==== Sys2Proof/Machine/Yoke.lean ====
section
/-! DEFINITION. The Yoke (R363 to R381): semaphores, their permissions, watches and messages, owners that stop, and barriers. -/

namespace Sys2Proof.Machine

open Sys2Proof

/-! ### Semaphores -/

/-- A semaphore before anything acts on it (R363). -/
def semDef (_ : Nat) : Sem := {}

/-- The key of a semaphore. -/
def semKey (h n : Nat) : Nat := h * 131072 + n

/-- A semaphore. -/
def Chip.sem (c : Chip) (h n : Nat) : Sem := kget semDef c.yoke.sems (semKey h n)

/-- A semaphore replaced. -/
def Chip.setSem (c : Chip) (h n : Nat) (x : Sem) : Chip :=
  { c with yoke := { c.yoke with sems := kset semDef c.yoke.sems (semKey h n) x } }

/-- The largest VALUE (R365). -/
def semMax : Nat := 2 ^ 48 - 1

/-- The semaphore operations of R364. -/
inductive SemOp
  | claim | release | write | watch
  deriving DecidableEq, Repr

/-- Permission of a local command (R364). -/
def semPermit (op : SemOp) (s : Sem) (ctx : Nat) (priv : Bool) : Bool :=
  match op with
  | .claim => !s.owned || s.owner == ctx
  | .release => !s.owned || s.owner == ctx || priv
  | .write => s.owned && (s.owner == ctx || priv || s.openWrite)
  | .watch => s.owned && (s.owner == ctx || priv || s.openWait)

/-- FAULT_ACCESS, REASON 6, with no address (R26, R364, R378). -/
def refused6 : Res := accessRes 0 6 0xFF

/-! ### Watches -/

/-- The 6-byte value observed by a WAIT or CSET (R81). -/
def observed (v : Nat) : List (Nat × Nat × Nat) := [(0, 6, v)]

/-- A watch message starts on its way (R369). -/
def sendMsg (m : YMsg) (c : Chip) : Chip := { c with yoke := { c.yoke with msgs := c.yoke.msgs ++ [m] } }

/-- Something leaves for another module. -/
def sendOut (o : YOut) (c : Chip) : Chip := { c with yoke := { c.yoke with outs := c.yoke.outs ++ [o] } }

/-- A watch fires (WSTATUS 0) or is completed as owner lost (WSTATUS 1) at a value (R369, R370, R375). -/
def fireWatch (w : Watch) (value ws : Nat) (c : Chip) : Chip :=
  let st := if ws = 0 then sDone else sOwnerLost
  let sem := w.sem + 131072 * w.half
  match w.who with
  | .preWait k seq =>
    match c.findCmd k seq with
    | none => c
    | some m => if ws = 0 then c.putCmd { m with preWait := false } else retire m (mkRes sOwnerLost []) c
  | .wait k seq =>
    match c.findCmd k seq with
    | none => c
    | some m => finish m (mkRes st (observed value)) c
  | .watch q seq tk tg cmp => sendMsg ⟨sem, value, ws, tk, tg, cmp, w.ctx, q, seq⟩ c
  | .remoteWait rank txn => sendOut (.reply rank txn st (detail (observed value))) c
  | .remoteWatch rank _ tk tg cmp q seq => sendOut (.watchMsg rank ⟨sem, value, ws, tk, tg, cmp, w.ctx, q, seq⟩) c

/-- Free watch places of a half (R368). -/
def Chip.watchFree (c : Chip) (h : Nat) : Nat := 65536 - (c.yoke.watches.filter (fun w => w.half == h)).length

/-- The watches of a semaphore that its value satisfies fire in registration order and are freed (R369). -/
def fireAll (h n : Nat) (c : Chip) : Chip :=
  let v := (c.sem h n).value
  let hit := fun (w : Watch) => w.half == h && w.sem == n && v ≥ w.n
  let ws := c.yoke.watches.filter hit
  let c := { c with yoke := { c.yoke with watches := c.yoke.watches.filter (fun w => !hit w) } }
  (ws.foldl (fun c w => fireWatch w v 0 c) c).rcount (YOK h) YOK_FIRED ws.length

/-- Every watch on a semaphore completes as owner lost, and the semaphore is free (R375). -/
def releaseSem (h n : Nat) (c : Chip) : Chip :=
  let v := (c.sem h n).value
  let hit := fun (w : Watch) => w.half == h && w.sem == n
  let ws := c.yoke.watches.filter hit
  let c := { c with yoke := { c.yoke with watches := c.yoke.watches.filter (fun w => !hit w) } }
  ((ws.foldl (fun c w => fireWatch w v 1 c) c).rcount (YOK h) YOK_LOST ws.length).setSem h n {}

/-- A word with an uncorrectable error is released before the operation that reads it takes effect (R377). -/
def checkSem (h n : Nat) (c : Chip) : Chip :=
  if (c.sem h n).bad then
    let owner := (c.sem h n).owner
    let c := (releaseSem h n c).rput (YOK h) YOK_ERR_UNCORR 1
    let c := if c.rget (YOK h) YOK_ERR_SEM_VALID = 0 then (c.rput (YOK h) YOK_ERR_SEM_SEM n).rput (YOK h) YOK_ERR_SEM_VALID 1 else c
    c.logEvent 0x0017 3 0x05 h 0 n owner
  else c

/-- A semaphore's new value takes effect at one instant and its watches fire (R365, R366, R369). -/
def putSem (h n : Nat) (x : Sem) (c : Chip) : Chip :=
  fireAll h n ((c.setSem h n x).rcount (YOK h) YOK_OPS 1)

/-- ADD (R365): VALUE saturates at 2^48 - 1, with SAT and YOK_ERR.SATURATED. -/
def semAdd (h n v : Nat) (c : Chip) : Chip :=
  let s := c.sem h n
  if s.value + v > semMax then
    (putSem h n { s with value := semMax, sat := true } c).rput (YOK h) YOK_ERR_SATURATED 1
  else putSem h n { s with value := s.value + v } c

/-- SUB (R365): VALUE saturates at 0. -/
def semSub (h n v : Nat) (c : Chip) : Chip :=
  let s := c.sem h n
  if v > s.value then
    (putSem h n { s with value := 0, sat := true } c).rput (YOK h) YOK_ERR_SATURATED 1
  else putSem h n { s with value := s.value - v } c

/-- The add of MOD_CFG_NOTIFY (R61, R364): an ADD of 1 that is never refused. -/
def notifyAdd (sem : Nat) (c : Chip) : Chip :=
  let h := bits sem 17 1
  let n := bits sem 0 17
  semAdd h n 1 (checkSem h n c)

/-- A watch registered when a place is free (R368); it fires at once when its condition already holds (R369). -/
def registerWatch (w : Watch) (c : Chip) : Chip :=
  let v := (c.sem w.half w.sem).value
  if v ≥ w.n then (fireWatch w v 0 c).rcount (YOK w.half) YOK_FIRED 1
  else { c with yoke := { c.yoke with watches := c.yoke.watches ++ [w] } }

/-- A command found no watch place (R368). -/
def watchFull (h : Nat) (c : Chip) : Chip :=
  (c.rput (YOK h) YOK_ERR_WATCH_FULL 1).rput (YOK h) YOK_STATUS_WATCH_WAIT 1

/-- The event of R371 in a context's ring. -/
def watchEvent (ctx queue : Nat) (m : YMsg) (ws : Nat) (c : Chip) : Chip :=
  postEvent ctx 0x0040 queue m.seq
    (fields 16 [(0, 4, m.sem), (4, 6, m.value), (10, 1, ws), (11, 1, m.tkind), (12, 4, m.target)]) c

/-- A message that cannot be delivered (R371). -/
def undelivered (m : YMsg) (c : Chip) : Chip :=
  watchEvent m.ctx m.q m 2 (c.rput (YOK (bits m.sem 17 1)) YOK_ERR_MSG_UNDELIVERED 1)

/-- A queue's context (R571): as read at its last enable, or from the table while the queue is DISABLED. -/
def queueCtx (c : Chip) (q : Nat) : Option Nat :=
  if (c.queue q).st = .disabled then
    let a := c.rget MOD MOD_QUE_TABLE_BASE_BASE * 4096 + 64 * q
    if backed a 64 then some (c.rdLe (a + 18) 2) else none
  else some (c.queue q).ctx

/-- Blocks of a LAUNCH (R217). -/
def launchBlocks (m : Cmd) : Nat := m.par 36 4 * m.par 40 4 * m.par 44 4

/-- A message to a Drill block (R370, R372): its waiting groups wake, or its latch is set; `lost` sets LOST as well. None when
it cannot be delivered. -/
def wakeBlock (q seq target : Nat) (lost : Bool) (c : Chip) : Option Chip :=
  match c.findCmd (.queue q) seq with
  | none => none
  | some m =>
    if m.cls ≠ 3 ∨ target ≥ launchBlocks m then none else
    match c.drill.launches.find? (fun l => l.q == q && l.seq == seq) with
    | none => none
    | some l =>
      match l.blocks.find? (fun b => b.idx == target) with
      | none =>
        let l' := { l with latched := insertNat target l.latched, lostSet := if lost then insertNat target l.lostSet else l.lostSet }
        some { c with drill := { c.drill with launches := c.drill.launches.map (fun x => if x.q = q ∧ x.seq = seq then l' else x) } }
      | some b =>
        if b.exited then none else
        let waits := b.groups.any (fun g => g.waitMsg)
        let b' := { b with groups := b.groups.map (fun g => { g with waitMsg := false }),
                           latch := b.latch || !waits || lost, lost := b.lost || lost }
        let l' := { l with blocks := l.blocks.map (fun x => if x.idx = target then b' else x) }
        some { c with drill := { c.drill with launches := c.drill.launches.map (fun x => if x.q = q ∧ x.seq = seq then l' else x) } }

/-- A watch message reaches its target (R370 to R372, R375). -/
def deliverMsg (m : YMsg) (c : Chip) : Chip :=
  if m.wstatus = 2 then undelivered m c
  else if m.wstatus = 1 then
    let c := watchEvent m.ctx m.q m 1 c
    if m.tkind = 2 then (wakeBlock m.q m.compare m.target true c).getD c
    else if m.tkind = 3 then (if vectorLost c (m.target % 32768) then undelivered m c else c.raiseVector (m.target % 32768))
    else c
  else if m.tkind = 1 then
    let q := m.target % 2 ^ 20
    if (c.queue q).st = .disabled then undelivered m c else watchEvent (c.queue q).ctx q m 0 c
  else if m.tkind = 2 then
    match wakeBlock m.q m.compare m.target false c with
    | some c => c
    | none => undelivered m c
  else if m.tkind = 3 then (if vectorLost c (m.target % 32768) then undelivered m c else c.raiseVector (m.target % 32768))
  else sendOut (.remoteAdd (m.target % 2 ^ 20) (m.compare % 2 ^ 18) m) c

/-! ### Barriers -/

/-- A barrier object free after reset (R378). -/
def barDef (_ : Nat) : Option Barrier := none

/-- The key of a barrier object. -/
def barKey (h n : Nat) : Nat := h * 4096 + n

/-- A barrier object; none while it is free. -/
def Chip.bar (c : Chip) (k : Nat) : Option Barrier := kget barDef c.yoke.bars k

/-- A barrier object replaced. -/
def Chip.setBar (c : Chip) (k : Nat) (b : Option Barrier) : Chip :=
  { c with yoke := { c.yoke with bars := kset barDef c.yoke.bars k b } }

/-- Pending entries of a slot: those counted for a generation (R379). -/
def slotPending (b : Barrier) (slot : Nat) : Nat := (b.entries.filter (fun e => e.slot == slot && e.gen.isSome)).length

/-- An entry as it is counted (R379): for G, for G + 1, or held. -/
def countEntry (b : Barrier) (slot : Nat) (who : BarWho) : BarEntry :=
  match slotPending b slot with
  | 0 => ⟨slot, who, some b.gen⟩
  | 1 => ⟨slot, who, some (b.gen + 1)⟩
  | _ => ⟨slot, who, none⟩

/-- Held entries are counted in arrival order (R380, step 3). -/
def countHeld (b : Barrier) : Barrier :=
  b.entries.foldl (fun acc e =>
    { acc with entries := acc.entries ++ [if e.gen.isSome then e else countEntry acc e.slot e.who] }) { b with entries := [] }

/-- Every slot of the mask has an entry counted for the current generation (R380). -/
def barFull (b : Barrier) : Bool :=
  (List.range 64).all (fun s => !bitAt b.mask s || b.entries.any (fun e => e.slot == s && e.gen == some b.gen))

/-- The entry of a command or another module completes for a generation, with a status (R380, R381). -/
def completeWho (who : BarWho) (gen st : Nat) (c : Chip) : Chip :=
  match who with
  | .cmd k seq =>
    match c.findCmd k seq with
    | some m => finish m (mkRes st [(0, 4, if st = sDone then gen else 0)]) c
    | none => c
  | .remote rank txn => sendOut (.reply rank txn st (detail [(0, 4, if st = sDone then gen else 0)])) c
  | .child _ _ _ => c

/-- An entry into a parent that cannot be reached or refuses it (R381): a HOLD child's entries for G and G + 1 end with
PEER_LOST and it moves on to G + 2; otherwise the entry is dropped. -/
def parentLost (k : Nat) (c : Chip) : Chip :=
  match c.bar k with
  | none => c
  | some b =>
    if b.hold then
      let out := b.entries.filter (fun e => e.gen.isSome)
      let c := out.foldl (fun c e => completeWho e.who b.gen sPeerLost c) c
      c.setBar k (some (countHeld { b with gen := b.gen + 2, waiting := [], entries := b.entries.filter (fun e => e.gen.isNone) }))
    else c.rput (YOK (k / 4096)) YOK_ERR_MSG_UNDELIVERED 1

/-- The work a barrier operation causes (R380, R381): an entry, a check for completion, or the completion of a child whose
parent generation is over. -/
inductive BarAct
  | enter (k slot : Nat) (who : BarWho)
  | check (k : Nat)
  | complete (k : Nat)
  deriving DecidableEq, Repr

/-- Generation G of a barrier completes (R380). -/
def completeGen (k : Nat) (b : Barrier) (c : Chip) : Chip × List BarAct :=
  let now := b.entries.filter (fun e => e.gen == some b.gen)
  let c := now.foldl (fun c e => completeWho e.who b.gen sDone c) c
  let kids := now.filterMap (fun e => match e.who with
    | .child h o _ => some (BarAct.complete (barKey h o))
    | _ => none)
  let b' := countHeld { b with gen := b.gen + 1, waiting := b.waiting.filter (fun g => g != b.gen),
                               entries := b.entries.filter (fun e => e.gen != some b.gen) }
  ((c.setBar k (some b')).rcount (YOK (k / 4096)) YOK_BAR_DONE 1, kids ++ [.check k])

/-- An entry into the parent (R378, R380): a local object, or a message to another module. -/
def enterParent (k gen rank bar : Nat) (c : Chip) : Chip × List BarAct :=
  if rank = 0xFFFFFFFF then
    let pk := barKey (bits bar 12 1) (bits bar 0 12)
    match c.bar pk with
    | some p => if bitAt p.mask (bits bar 13 6) then (c, [.enter pk (bits bar 13 6) (.child (k / 4096) (k % 4096) gen)]) else (parentLost k c, [])
    | none => (parentLost k c, [])
  else (sendOut (.enter rank bar (k / 4096) (k % 4096) gen) c, [])

/-- One step of barrier work. -/
def barStep (a : BarAct) (c : Chip) : Chip × List BarAct :=
  match a with
  | .enter k slot who =>
    match c.bar k with
    | none => (c, [])
    | some b => (c.setBar k (some { b with entries := b.entries ++ [countEntry b slot who] }), [.check k])
  | .complete k =>
    match c.bar k with
    | none => (c, [])
    | some b => if b.waiting.contains b.gen then completeGen k b c else (c, [])
  | .check k =>
    match c.bar k with
    | none => (c, [])
    | some b =>
      if !barFull b then (c, [])
      else match b.parent with
      | none => completeGen k b c
      | some (rank, bar) =>
        if b.hold then
          if b.waiting.contains b.gen then (c, [])
          else enterParent k b.gen rank bar (c.setBar k (some { b with waiting := b.waiting ++ [b.gen] }))
        else
          let r := completeGen k b c
          let s := enterParent k b.gen rank bar r.1
          (s.1, r.2 ++ s.2)

/-- Barrier work carried to its end. -/
def barRun : Nat → List BarAct → Chip → Chip
  | 0, _, c => c
  | _, [], c => c
  | n + 1, a :: as, c =>
    let r := barStep a c
    barRun n (as ++ r.2) r.1

/-- Steps a barrier operation may cause: every object of both halves, each for its two pending generations. -/
def barFuel : Nat := 65536

/-- A slot entered (R379, R380). -/
def barEnterAt (k slot : Nat) (who : BarWho) (c : Chip) : Chip :=
  barRun barFuel [.enter k slot who] (c.rcount (YOK (k / 4096)) YOK_OPS 1)

/-- A context's barriers are withdrawn (R381): its own entries go with its commands; entries of other modules into its
barriers end with PEER_LOST and the barriers become free. -/
def dropBarriers (ctx : Nat) (c : Chip) : Chip :=
  c.yoke.bars.foldl (fun c e => match e.2 with
    | some b =>
      if b.owner = ctx then
        let c := b.entries.foldl (fun c x => match x.who with
          | .remote _ _ => completeWho x.who b.gen sPeerLost c
          | .child h o _ => parentLost (barKey h o) c
          | .cmd _ _ => c) c
        c.setBar e.1 none
      else c
    | none => c) c

/-! ### Operations on a semaphore -/

/-- ADD, SUB, SET, CSET, CLAIM and RELEASE take effect (R365 to R367, R375), with the detail of the record; `ctx` claims. -/
def semOp (op h n value compare ctx : Nat) (c : Chip) : List (Nat × Nat × Nat) × Chip :=
  let s := c.sem h n
  match op with
  | 1 => ([], semAdd h n value c)
  | 2 => ([], semSub h n value c)
  | 3 => ([], putSem h n { s with value := value } c)
  | 4 => (observed s.value ++ [(6, 1, b2n (s.value == compare))], putSem h n { s with value := if s.value = compare then value else s.value } c)
  | 7 => ([], putSem h n { value := value, owner := ctx, owned := true, openWait := bitAt compare 0, openWrite := bitAt compare 1,
                           fabric := bitAt compare 2 } c)
  | _ => ([], if s.owned then releaseSem h n (c.rcount (YOK h) YOK_OPS 1) else c)

/-- The kind of permission an opcode asks (R364). -/
def semKind (op : Nat) : SemOp := if op = 7 then .claim else if op = 8 then .release else if op ≤ 4 then .write else .watch

/-- Why a remote operation is refused (R383): the REASON, or nothing. -/
def remoteRefused (op : Nat) (s : Sem) : Option Nat :=
  if !s.owned then some 6
  else if !s.fabric then some 5
  else if op ≤ 4 && s.openWrite || (op == 5 || op == 6) && s.openWait then none
  else some 6

/-- A remote WAIT or WATCH takes its place (R368, R383): refused, or registered; its answer leaves as the Yoke units send. -/
def remotePlace (o : YokeFrame) (c : Chip) : Chip :=
  let h := bits o.sem 17 1
  let n := bits o.sem 0 17
  let c := checkSem h n c
  match remoteRefused o.op (c.sem h n) with
  | some r => sendOut (.reply o.rank o.txn sAccess (accessRes 0 r 0xFF).detail) c
  | none =>
    let c := (c.rcount (YOK h) YOK_OPS 1).rcount (YOK h) YOK_REMOTE_IN 1
    if o.op = 5 then registerWatch ⟨h, n, o.value, o.ctx, .remoteWait o.rank o.txn⟩ c
    else sendOut (.reply o.rank o.txn sDone (detail [])) (registerWatch ⟨h, n, o.value, o.ctx, .remoteWatch o.rank o.txn o.tkind o.target o.compare o.q o.seq⟩ c)

/-- Remote WAITs and WATCHes that found no place take one as places free (R368). -/
def giveRemote (c : Chip) : Chip :=
  c.yoke.held.foldl (fun c o =>
    if c.watchFree (bits o.sem 17 1) > 0 then remotePlace o { c with yoke := { c.yoke with held := c.yoke.held.filter (fun x => x != o) } }
    else c) c

end Sys2Proof.Machine
end

