-- ==== Sys2Proof/Machine/Faults.lean ====
section
/-! DEFINITION. Page faults (R346 to R355): raising and joining a pending fault, commands held before issue, stalls, retry,
decline and timeout, and the fault ring. -/

namespace Sys2Proof.Machine

open Sys2Proof

/-- What is wrong with a page of a run list, as the KIND of R350: absent or invalid, or written with W clear. -/
def XPage.bad (p : XPage) : Option Nat := if !p.ok then some p.kind else if p.wr && !p.w then some 2 else none

/-- Pending faults, withdrawal entries left out (R351). -/
def Chip.pendingFaults (c : Chip) : List PFault := c.xlt.pending.filter (fun f => f.kind != 0x80)

/-- The pending fault of a context's table entry (R349). -/
def Chip.faultOn (c : Chip) (ctx entry : Nat) : Option PFault :=
  c.pendingFaults.find? (fun f => f.ctx == ctx && f.entry == entry)

/-- A fault ID after another: 0 is skipped (R350). -/
def nextFaultId (n : Nat) : Nat := if n + 1 ≥ 2 ^ 32 then 1 else n + 1

/-- A fault raised on a half, or joined when its entry already has one pending (R349); none when the pending table is full
(R351). The fields are those of its ring entry (log entry 59). -/
def raiseFault (h : Nat) (f : PFault) (c : Chip) : Option Nat × Chip :=
  match c.faultOn f.ctx f.entry with
  | some g => (some g.id, c)
  | none =>
    if c.pendingFaults.length ≥ 4096 then (none, { c with xlt := { c.xlt with tableFull := true } })
    else
      let id := c.xlt.nextId
      let c := { c with xlt := { c.xlt with nextId := nextFaultId id, pending := c.xlt.pending ++ [{ f with id := id, time := c.time, written := false }] } }
      (some id, c.rcount (XLT h) XLT_FAULTS 1)

/-- FFLAGS of R350. -/
def faultFlags (early wr : Bool) : Nat := b2n early + 2 * b2n wr

/-- The queue field of a fault or event: none for a management path. -/
def Cmd.queueField (m : Cmd) : Nat := (m.queue?).getD 0xFFFFF

/-- The fault that a page of a command's run list raises. -/
def pageFault (m : Cmd) (p : XPage) (early : Bool) : PFault :=
  { id := 0, ctx := m.ctx, entry := p.entry, kind := (p.bad).getD p.kind, level := p.level, va := p.low, queue := m.queueField,
    seq := m.seq, engine := if early then 0xFF else engByte m.cls m.half, inst := if early then 0 else m.inst,
    flags := faultFlags early p.wr, lo := p.lo, time := 0, written := false }

/-- Commands held before issue while any page is absent (R346, R77): DMA ATOMIC, Gleaner, Surveyor, Aihal and management. -/
def heldClass (m : Cmd) : Bool := (m.cls == 4 && m.op == 5) || m.cls == 5 || m.cls == 7 || m.cls == 8 || m.cls == 0xF

/-- The pages that hold a command before issue (R349). -/
def heldPages (m : Cmd) : List XPage :=
  m.pages.filter (fun p => match p.bad with
    | some 2 => true
    | some _ => heldClass m
    | none => false)

/-- A command is held before issue by a fault (R349). -/
def heldByFault (m : Cmd) : Bool := (heldPages m) != []

/-- Early faults of a command's pages (R346, R349): each entry raises at most one. -/
def earlyFaults (m : Cmd) (c : Chip) : Chip :=
  let c := m.pages.foldl (fun c p => if (p.bad).isSome && !p.declined then (raiseFault m.half (pageFault m p true) c).2 else c) c
  if heldByFault m ∧ m.stallSince = none then c.putCmd { m with stallSince := some c.time } else c

/-- The outcome of a declined fault (R353), its address the lowest needed byte under the faulting entry. -/
def declineRes (p : XPage) : Res :=
  if p.bad = some 2 then accessRes p.low 2 p.op else mkRes sUnmapped [(0, 8, p.low), (8, 1, 1), (9, 1, p.op)]

/-- A command ended under R353 or R354: in execution it finishes; before issue it retires at once. -/
def endOnFault (m : Cmd) (r : Res) (c : Chip) : Chip :=
  let c := c.rcount (XLT m.half) XLT_DECLINED 1
  if m.phase = .accepted then retire m r c else withdrawFaults (finish { m with stall := none } r c)

/-- An engine reaches a page it cannot use (R349): a page whose fault was declined ends the command; otherwise the command
stalls on the fault, raising it when none is pending. -/
def stallAt (m : Cmd) (p : XPage) (c : Chip) : Chip :=
  if p.declined then endOnFault m (declineRes p) c
  else
    let r := raiseFault m.half (pageFault m p false) c
    r.2.putCmd { m with stall := r.1, stallSince := some (m.stallSince.getD c.time) }

/-- The first page that the given byte ranges (address, length, operand index, write) need and the run list cannot give. -/
def needBad (m : Cmd) (rs : List (Nat × Nat × Nat × Bool)) : Option XPage :=
  let ns := rs.foldl (fun ps r => needRange (r.1 % 2 ^ 57) r.2.1 r.2.2.1 r.2.2.2 ps) []
  ns.findSome? (fun n =>
    match m.pages.find? (fun p => p.vp == n.vp) with
    | some p => let q := { p with low := n.low, wr := n.wr, op := n.op }; if (q.bad).isSome then some q else none
    | none => none)

/-- The pages of a command that lie under a fault's entry walk again and take the result (R352). -/
def rewalk (f : PFault) (m : Cmd) (c : Chip) : Cmd × Chip :=
  let root := (c.ctxDesc m.ctx).ptRoot
  let r := m.pages.foldl (fun (acc : List XPage × Chip) p =>
    if p.entry = f.entry ∧ (p.bad).isSome then
      let x := xlatePage m.half m.ctx root p acc.2
      (acc.1 ++ [x.1], x.2.rcount (XLT m.half) XLT_REPLAYS 1)
    else (acc.1 ++ [p], acc.2)) ([], c)
  ({ m with pages := r.1, runs := runCount r.1 }, r.2)

/-- Thread groups of a LAUNCH that wait on a fault run again: they replay their access (R241, R352). -/
def releaseGroups (id : Nat) (c : Chip) : Chip :=
  { c with drill := { c.drill with launches := c.drill.launches.map (fun l =>
      { l with blocks := l.blocks.map (fun b =>
          { b with groups := b.groups.map (fun g => if g.stall = some id then { g with stall := none } else g) }) }) } }

/-- A launch is marked as ending (R241): no further block starts and its groups stop. -/
def endLaunch (q seq : Nat) (r : Res) (c : Chip) : Chip :=
  { c with drill := { c.drill with launches := c.drill.launches.map (fun l =>
      if l.q = q ∧ l.seq = seq ∧ l.ending = none then { l with ending := some r } else l) } }

/-- A fault ceases to be pending. -/
def dropFault (id : Nat) (c : Chip) : Chip :=
  { c with xlt := { c.xlt with pending := c.xlt.pending.filter (fun f => f.id != id || f.kind == 0x80), tableFull := false } }

/-- Launches with a thread group that waits on a fault. -/
def waitingLaunches (id : Nat) (c : Chip) : List DLaunch :=
  c.drill.launches.filter (fun l => l.blocks.any (fun b => b.groups.any (fun g => g.stall == some id)))

/-- RETRY (R352): every waiter walks again; a command that again finds its page unusable raises a new fault. -/
def faultRetry (f : PFault) (c : Chip) : Chip :=
  let ms := c.cmds.filter (cmdWaits f)
  let n := sumNat ((waitingLaunches f.id c).map (fun l => sumNat (l.blocks.map (fun b => (b.groups.filter (fun g => g.stall == some f.id)).length))))
  let c := (releaseGroups f.id (dropFault f.id c)).rcount (XLT (f.engine / 16 % 2)) XLT_REPLAYS n
  ms.foldl (fun c m0 =>
    match c.findCmd m0.car m0.seq with
    | none => c
    | some m =>
      let stalled := m.stall == some f.id
      let r := rewalk f m c
      let m := if stalled then { r.1 with stall := none } else r.1
      let c := r.2.putCmd m
      match m.pages.find? (fun p => p.entry == f.entry && (p.bad).isSome && !p.declined) with
      | none => c
      | some p =>
        let x := raiseFault m.half (pageFault m p (m.phase == .accepted)) c
        x.2.putCmd (if stalled then { m with stall := x.1 } else m)) c

/-- One waiter of a declined or expired fault (R353): a command held or stalled on it ends; another records it with its
pages. -/
def faultEndCmd (f : PFault) (timeout : Bool) (m : Cmd) (c : Chip) : Chip :=
  let p := (m.pages.find? (fun p => p.entry == f.entry && (p.bad).isSome)).getD { vp := f.va / 65536, low := f.va }
  let r := fun (p : XPage) => if timeout then mkRes sTimeout [] else declineRes p
  if m.stall = some f.id then endOnFault m (r { p with low := max p.low (min f.va (p.vp * 65536 + 65535)) }) c
  else if m.phase = .accepted ∧ (heldPages m).any (fun q => q.entry == f.entry) then endOnFault m (r p) c
  else c.putCmd { m with pages := m.pages.map (fun q => if q.entry = f.entry ∧ (q.bad).isSome then { q with declined := true } else q) }

/-- A launch whose thread group waits on a declined fault ends (R241). -/
def faultEndLaunch (f : PFault) (timeout : Bool) (l : DLaunch) (c : Chip) : Chip :=
  let r := if timeout then mkRes sTimeout [] else
    if f.kind = 2 then accessRes f.va 2 0xFF else mkRes sUnmapped [(0, 8, f.va), (8, 1, 1), (9, 1, 0xFF)]
  endLaunch l.q l.seq r (c.rcount (XLT l.half) XLT_DECLINED 1)

/-- DECLINE (R352, R353): every waiter ends under its engine's rule. -/
def faultDecline (f : PFault) (c : Chip) : Chip :=
  let ms := c.cmds.filter (cmdWaits f)
  let ls := waitingLaunches f.id c
  let c := dropFault f.id c
  let c := ms.foldl (fun c m0 => match c.findCmd m0.car m0.seq with
    | some m => faultEndCmd f false m c
    | none => c) c
  ls.foldl (fun c l => faultEndLaunch f false l c) c

/-- A context's fault timeout in nanoseconds; none for no timeout (R354). -/
def faultTimeoutNs (n : Nat) (c : Chip) : Option Nat :=
  let t := (c.ctxDesc n).faultTimeout
  if t = 0xFFFFFFFF then none
  else if t ≠ 0 then some (t * 1000)
  else
    let d := c.rget MOD MOD_XLT_CTL_DEF_TIMEOUT
    if d = 0 then none else some (d * 1000000)

/-- A command or thread group waits on a fault: FAULT_TIMEOUT ends it with TIMEOUT (R354); its faults lose a waiter (R355) (log entry 7). -/
def faultTimeout (m : Cmd) (c : Chip) : Chip :=
  if m.stall.isSome ∨ (m.phase = .accepted ∧ heldByFault m) then endOnFault m (mkRes sTimeout []) c
  else
    match m.car, c.drill.launches.find? (fun l => decide (m.car = .queue l.q) && l.seq == m.seq) with
    | .queue q, some l =>
      if l.blocks.any (fun b => b.groups.any (fun g => g.stall.isSome)) then
        withdrawFaults (endLaunch q m.seq (mkRes sTimeout []) (c.rcount (XLT l.half) XLT_DECLINED 1))
      else c
    | _, _ => c

/-- Commands with a page whose fault has found no place in the pending table (R351) (log entry 59). -/
def unplaced (c : Chip) : List Cmd :=
  c.cmds.filter (fun m => (decide (m.phase = .accepted) || decide (m.phase = .executing)) &&
    m.pages.any (fun p => (p.bad).isSome && !p.declined && (c.faultOn m.ctx p.entry).isNone))

/-- Faults that found the pending table full are raised as places free (R351) (log entry 59). -/
def raiseWaiting (c : Chip) : Chip :=
  let ms := unplaced c
  if ms.isEmpty then c
  else if c.pendingFaults.length ≥ 4096 then { c with xlt := { c.xlt with tableFull := true } }
  else ms.foldl (fun c m => earlyFaults m c) c

/-! ### The fault ring -/

/-- The host address of a device address through a context's pointer window table (R356, R357, R569). -/
def hostVa (n va : Nat) (c : Chip) : Option Nat :=
  let d := c.ctxDesc n
  if d.pwtBase = 0 then none else
  (List.range d.nwin).findSome? (fun i =>
    let a := d.pwtBase + 64 + 32 * i
    let dev := bits (c.rdLe (a + 8) 8) 0 57
    if bitAt (c.rdLe (a + 24) 1) 0 && dev ≤ va && va < dev + c.rdLe (a + 16) 8 then
      some ((c.rdLe a 8 + (va - dev)) % 2 ^ 64)
    else none)

/-- The 64 bytes of a fault ring entry (R350). -/
def faultEntry (f : PFault) (c : Chip) : List Byte :=
  let hv := hostVa f.ctx f.va c
  fields 64 [(0, 8, f.va), (8, 4, f.id), (12, 2, f.ctx), (14, 1, f.kind), (15, 1, f.level), (16, 4, f.queue), (20, 4, f.seq),
    (24, 1, f.engine), (25, 1, f.inst), (26, 1, f.flags + 4 * b2n hv.isSome), (28, 4, f.lo), (32, 8, hv.getD 0), (40, 8, f.time)]

/-- Entries the fault ring holds. -/
def frEntries (c : Chip) : Nat := 2 ^ c.rget MOD MOD_FR_CFG_LOG2

/-- Entries of the fault ring not consumed (R351). -/
def frHeld (c : Chip) : Nat := wrapSub 32 (c.rget MOD MOD_FR_COUNT_COUNT) (c.rget MOD MOD_FR_CONSUMED_CONSUMED)

/-- The fault ring's address. -/
def frBase (c : Chip) : Nat := c.rget MOD MOD_FR_BASE_BASE * 4096

/-- The fault ring can be written: its base is set and it lies wholly in backed frames (R361, R569). -/
def frUsable (c : Chip) : Bool := frBase c != 0 && backed (frBase c) (frEntries c * 64)

/-- A fault's entry has been written: a withdrawal is forgotten, another fault is marked. -/
def markWritten (f : PFault) (ps : List PFault) : List PFault :=
  if f.kind = 0x80 then ps.filter (fun g => g != f) else ps.map (fun g => if g = f then { g with written := true } else g)

/-- A pending fault or withdrawal written to the ring when a slot is free (R351, R355, R361). -/
def faultWrite (f : PFault) (c : Chip) : Chip :=
  if f.written || frHeld c ≥ frEntries c then c
  else if !frUsable c then c.rput MOD MOD_XLT_ERR_RING_FAULT 1
  else
    let n := c.rget MOD MOD_FR_COUNT_COUNT
    let first := frHeld c == 0
    let c := c.wrMem (frBase c + 64 * (n % frEntries c)) (faultEntry f c)
    let c := c.rput MOD MOD_FR_COUNT_COUNT (n + 1)
    let c := { c with xlt := { c.xlt with pending := markWritten f c.xlt.pending } }
    if c.rget MOD MOD_FR_CFG_IRQ_EN == 1 && first then c.raiseVector (c.rget MOD MOD_FR_CFG_VECTOR) else c

end Sys2Proof.Machine
end

