-- ==== Sys2Proof/Machine/Slice.lean ====
section
/-! DEFINITION. Replies of management commands (R76, R77) and how a slice test ends (R524, R527, R528, R536). -/

namespace Sys2Proof.Machine

open Sys2Proof

/-! ### Replies -/

/-- Reply bytes written at RESP, up to RESP_MAX (R76, R77). -/
def writeResp (m : Cmd) (data : List Byte) (c : Chip) : Chip :=
  let a := bits (m.par 16 8) 0 57
  let d := data.take (m.par 24 4)
  if m.par 16 8 = 0 then c
  else (List.range d.length).foldl (fun c i => match pageAddr m.pages (a + i) with
    | some x => c.wrByte x (nth d i 0)
    | none => c) c

/-- A management command ends with DONE and a reply (R76, R77, R81): in memory for a queue, held for the path otherwise. -/
def answer (m : Cmd) (data : List Byte) (c : Chip) : Chip :=
  let r := mkRes sDone [(0, 4, data.length)]
  if m.queue?.isSome then finish m r (writeResp m data c) else finish { m with reply := data } r c

/-! ### Slice tests -/

/-- A test of logic alone, of SRAM or memory alone, or of both (R523). -/
def isLogic (kind : Nat) : Bool := kind == 0 || kind == 1 || kind == 4 || kind == 8
/-- A test of SRAM or memory alone. -/
def isSram (kind : Nat) : Bool := kind == 6 || kind == 7 || kind ≥ 9

/-- RESULT of a test that ran (R528) (log entry 20). -/
def stVerdict (kind : Nat) (o : SliceOutcome) : Nat :=
  if o.result ≥ 2 then o.result
  else if isSram kind then b2n (o.fails != 0)
  else if isLogic kind then b2n (o.signature != o.expected)
  else b2n (o.signature != o.expected || o.fails != 0)

/-- The reply of R527, with SIGNATURE, EXPECTED and FAILS as R528 reads them (log entry 20). -/
def stReply (s : SliceTest) (o : SliceOutcome) (c : Chip) : List Byte :=
  let v := stVerdict s.kind o
  let ran := decide (v < 2)
  let fails := if isLogic s.kind then v else o.fails
  let sig := if !isSram s.kind then o.signature else if o.fails = 0 then 0 else if o.fails = 1 then crc32c (leBytes 8 o.first) else o.signature
  fields 40 [(0, 4, if ran then sig else 0), (4, 4, if ran && !isSram s.kind then o.expected else 0), (8, 1, v), (9, 1, s.kind), (10, 1, s.half),
    (12, 2, s.index), (14, 2, if ran then fails else 0), (16, 8, if v = 1 then o.first else 0), (24, 8, o.micros), (32, 8, c.time)]

/-- A slice test is over: the registers show it (R536), and its command ends with the reply. -/
def stOver (s : SliceTest) (rep : List Byte) (c : Chip) : Chip :=
  let v := leAt rep 8 1
  let c := (c.rput START MGT_ST_STATUS_ACTIVE 0).rcount START
    (if v = 0 then MGT_ST_PASS else if v = 1 then MGT_ST_FAIL else MGT_ST_NOTRUN) 1
  let c := (List.range 10).foldl (fun c i => c.rput START ⟨MGT_ST_LAST0_REPLY.off + 4 * i, 0, 32⟩ (leAt rep (4 * i) 4)) c
  let c : Chip := { c with hedge := { c.hedge with slice := none } }
  match c.findCmd s.car s.seq with
  | some m => answer m rep c
  | none => c

/-- The engine instance that a test takes out of service (R523). -/
def stEngine (s : SliceTest) : Engine := ⟨if s.kind = 2 then 3 else if s.kind = 3 then 2 else if s.kind = 4 then 4 else 0xE, s.half, s.index⟩

/-- The work of a slice of an engine, an array or a bank group goes back to it (R524). -/
def stUndo (s : SliceTest) (c : Chip) : Chip :=
  if !s.aside then c
  else if s.kind ≤ 1 then c.rput (FUR s.half) FUR_MAP_BAND_TEST 0
  else if s.kind = 2 then (if s.begun then c else c.setEngine (stEngine s) { c.engine (stEngine s) with service := true })
  else if s.kind ≤ 5 then c.setEngine (stEngine s) { c.engine (stEngine s) with service := true }
  else if s.kind = 6 then
    let c : Chip := { c with bank := { c.bank with moving := c.bank.moving.filter (fun e => !(e.1 == s.half && e.2.2)) } }
    ((c.rput (SBD s.half) SBD_STATUS_MOVE_ACTIVE 0).rput (SBD s.half) SBD_MAP_SPARE_IN_USE 0).rput (SBD s.half) SBD_MAP_TEST 0
  else c

/-- A fault on a half claims the spare that a test uses, or is a fault of the part under test (R510, R524): the test ends with RESULT 3 (log entry 20). -/
def stInterrupt (hit : SliceTest → Bool) (c : Chip) : Chip :=
  match c.hedge.slice with
  | some s =>
    if s.aside && hit s then stOver s (stReply s ⟨3, 0, 0, 0, 0, (c.time - s.at_) / 1000⟩ c) (stUndo s c) else c
  | none => c

/-- A test of one of these kinds on a half. -/
def stOn (kinds : List Nat) (h : Nat) (s : SliceTest) : Bool := kinds.contains s.kind && s.half == h

end Sys2Proof.Machine
end

