-- ==== Sys2Proof/Machine/Transcend.lean ====
section
/-! DEFINITION. The transcendental functions of R204: each result is the exact value of the function rounded once to F32. The
exact values are bracketed in fixed point with 1,024 fraction bits, far beyond what any F32 input needs to decide its
rounding; RECIP, SQRT and RSQRT are exact. -/

namespace Sys2Proof.Machine

/-- Fraction bits of the fixed-point values. -/
def fxBits : Nat := 1024

/-- 1 in fixed point. -/
def fxOne : Int := 2 ^ fxBits

/-- A product in fixed point. -/
def fxMul (a b : Int) : Int := a * b / fxOne

/-- The fixed-point value of (-1)^neg * m * 2^e. -/
def fxOf (neg : Bool) (m : Nat) (e : Int) : Int :=
  let k : Int := e + fxBits
  let a : Int := if k ≥ 0 then (m : Int) * 2 ^ k.toNat else (m : Int) / 2 ^ (-k).toNat
  if neg then -a else a

/-- Terms of the series of atanh(1/n) (sgn 1) or atan(1/n) (sgn -1). -/
def atanTerms (n2 sgn : Int) : Nat → Int → Int → Int → Int
  | 0, _, _, acc => acc
  | k + 1, t, d, acc => atanTerms n2 sgn k (sgn * t / n2) (d + 2) (acc + t / d)

/-- ln 2 = 2 atanh(1/3). -/
def fxLn2 : Int := 2 * atanTerms 9 1 340 (fxOne / 3) 1 0

/-- pi, by Machin's formula. -/
def fxPi : Int := 16 * atanTerms 25 (-1) 230 (fxOne / 5) 1 0 - 4 * atanTerms 57121 (-1) 80 (fxOne / 239) 1 0

/-- The terms of the exponential series from the n-th on. -/
def expTerms (r : Int) : Nat → Int → Int → Int → Int
  | 0, _, _, acc => acc
  | k + 1, n, t, acc => expTerms r k (n + 1) (fxMul t r / n) (acc + t)

/-- e^x for a fixed-point x, as a mantissa in [1, 2) in fixed point and a power of 2. -/
def fxExp (x : Int) : Int × Int :=
  let k := x / fxLn2
  (expTerms (x - k * fxLn2) 230 1 fxOne 0, k)

/-- e^x for 0 ≤ x in fixed point. -/
def fxExpPos (x : Int) : Nat :=
  let r := fxExp x
  (r.1 * 2 ^ r.2.toNat).toNat

/-- The terms of sin and cos: t starts at the first term, n is the next factor. -/
def sinTerms (r2 : Int) : Nat → Int → Int → Int → Int
  | 0, _, _, acc => acc
  | k + 1, n, t, acc => sinTerms r2 k (n + 2) (-(fxMul t r2) / (n * (n + 1))) (acc + t)

/-- The sum over n of (-y)^n / (n! (2n + 1)), the series of the error function. -/
def erfTerms (y : Int) : Nat → Int → Int → Int → Int
  | 0, _, _, acc => acc
  | k + 1, n, t, acc => erfTerms y k (n + 1) (-(fxMul t y) / (n + 1)) (acc + t / (2 * n + 1))

/-- The integer square root by bits, from bit k - 1 down. -/
def isqrtBits (n : Nat) : Nat → Nat → Nat
  | 0, r => r
  | k + 1, r => isqrtBits n k (if (r + 2 ^ k) * (r + 2 ^ k) ≤ n then r + 2 ^ k else r)

/-- floor of the square root. -/
def isqrt (n : Nat) : Nat := isqrtBits n (n.log2 / 2 + 1) 0

/-- The square root of num / den * 2^e rounded once to format f: enough root bits, and a sticky bit below them. -/
def sqrtRat (f : Fmt) (num den : Nat) (e : Int) : Val :=
  if num = 0 then vZero else
  let e2 := if e % 2 = 0 then e else e - 1
  let num := if e % 2 = 0 then num else num * 2
  let s : Nat := den.log2 + 256
  let q := num * 2 ^ (2 * s) / den
  let r := isqrt q
  let exact := r * r * den == num * 2 ^ (2 * s)
  decodeFmt f (encodeRat f false (if exact then 2 * r else 2 * r + 1) 1 (e2 / 2 - s - 1)).code

/-- The square root of a value rounded to format f (R204, R299). -/
def vSqrt (f : Fmt) : Val → Val
  | .nan => .nan
  | .inf n => if n then .nan else .inf false
  | .fin n m e => if m = 0 then .fin n 0 0 else if n then .nan else sqrtRat f m 1 e

/-- num / den * 2^e with a sign, rounded once to F32. -/
def rf32 (neg : Bool) (num den : Nat) (e : Int) : Val := decodeFmt .f32 (encodeRat .f32 neg num den e).code

/-- |m * 2^e| is at least n. -/
def atLeast (m : Nat) (e : Int) (n : Nat) : Bool := m * pow2 e ≥ n * pow2 (-e)

/-- e^x at a finite x (EXP). -/
def fExp (n : Bool) (m : Nat) (e : Int) : Val :=
  if m = 0 then vInt 1 else
  let r := fxExp (if atLeast m e 200 then fxOf n 200 0 else fxOf n m e)
  rf32 false r.1.toNat 1 (r.2 - fxBits)

/-- 2^x at a finite x (EXP2): the integer part is exact. -/
def fExp2 (n : Bool) (m : Nat) (e : Int) : Val :=
  let x := if atLeast m e 300 then fxOf n 300 0 else fxOf n m e
  let k := x / fxOne
  let r := x - k * fxOne
  if r = 0 then rf32 false 1 1 k else
  let y := fxExp (fxMul r fxLn2)
  rf32 false y.1.toNat 1 (y.2 + k - fxBits)

/-- ln x of a positive finite x in fixed point, with its exponent and whether the reduced argument is 1. -/
def fxLog (m : Nat) (e : Int) : Int × Int × Bool :=
  let l := Nat.log2 m
  let k : Int := e + l
  let y := fxOf false m (-(l : Int))
  let r := if 2 * y ≥ 3 * fxOne then (y / 2, k + 1) else (y, k)
  let t := (r.1 - fxOne) * fxOne / (r.1 + fxOne)
  let t2 := fxMul t t
  let s := logTerms t2 230 1 t 0
  (2 * s, r.2, r.1 == fxOne)
where
  /-- The series of atanh. -/
  logTerms (t2 : Int) : Nat → Int → Int → Int → Int
    | 0, _, _, acc => acc
    | k + 1, d, t, acc => logTerms t2 k (d + 2) (fxMul t t2) (acc + t / d)

/-- A fixed-point value over a positive fixed-point divisor, rounded once to F32. -/
def fxRound (x d : Int) : Val := if x = 0 then vZero else rf32 (decide (x < 0)) x.natAbs d.natAbs 0

/-- ln x, or log2 x, of a positive finite x. -/
def fLog (two : Bool) (m : Nat) (e : Int) : Val :=
  let r := fxLog m e
  if r.2.2 then (if two then vInt r.2.1 else fxRound (r.2.1 * fxLn2) fxOne)
  else
    let ln := r.1 + r.2.1 * fxLn2
    fxRound ln (if two then fxLn2 else fxOne)

/-- e^|x| in fixed point, |x| held at 200. -/
def expAbs (m : Nat) (e : Int) : Nat := fxExpPos (if atLeast m e 200 then fxOf false 200 0 else fxOf false m e)

/-- tanh x. -/
def fTanh (n : Bool) (m : Nat) (e : Int) : Val :=
  let y := fxExpPos (if atLeast m e 64 then fxOf false 128 0 else fxOf false m (e + 1))
  let o := fxOne.toNat
  rf32 n (y - o) (y + o) 0

/-- 1 / (1 + e^(-x)) as a ratio. -/
def sigRat (n : Bool) (m : Nat) (e : Int) : Nat × Nat :=
  let y := expAbs m e
  let o := fxOne.toNat
  if n then (o, o + y) else (y, o + y)

/-- 1 / sqrt(2 pi) in fixed point. -/
def fxInvSqrt2Pi : Int := ((isqrt (2 ^ (3 * fxBits) / (2 * fxPi).toNat) : Nat) : Int)

/-- erf x. -/
def fErf (n : Bool) (m : Nat) (e : Int) : Val :=
  if atLeast m e 8 then .fin n 1 0 else
  let x := fxOf false m e
  let y := fxMul x x
  let s := fxMul x (erfTerms y 700 0 fxOne 0)
  -- 2 / sqrt(pi) = sqrt(2) * 2 / sqrt(2 pi)
  let sq2 : Int := ((isqrt (2 * 2 ^ (2 * fxBits)) : Nat) : Int)
  let r := fxMul (fxMul s fxInvSqrt2Pi) (2 * sq2)
  rf32 n r.natAbs 1 (-(fxBits : Int))

/-- (x / 2)(1 + erf(x / sqrt 2)) = x / 2 + x^2 / sqrt(2 pi) * S(x^2 / 2). -/
def fGelu (n : Bool) (m : Nat) (e : Int) : Val :=
  if atLeast m e 16 then (if n then .fin true 0 0 else .fin false m e) else
  let x := fxOf n m e
  let x2 := fxMul x x
  let r := x / 2 + fxMul (fxMul x2 fxInvSqrt2Pi) (erfTerms (x2 / 2) 700 0 fxOne 0)
  rf32 n r.natAbs 1 (-(fxBits : Int))

/-- sin or cos of a finite x, the argument reduced by pi / 2 exactly. -/
def fSinCos (cos n : Bool) (m : Nat) (e : Int) : Val :=
  if m = 0 then (if cos then vInt 1 else .fin n 0 0) else
  let x := fxOf n m e
  let q := (2 * x + fxPi / 2) / fxPi
  let r := x - q * fxPi / 2
  let r2 := fxMul r r
  let k := (q + if cos then 1 else 0) % 4
  let v := if k % 2 = 0 then sinTerms r2 160 2 r 0 else sinTerms r2 160 1 fxOne 0
  let v := if k ≥ 2 then -v else v
  rf32 (decide (v < 0)) v.natAbs 1 (-(fxBits : Int))

/-- The function that FUNC names (R204). -/
def transc (func : Nat) (x : Val) : Val :=
  match x with
  | .nan => .nan
  | .inf n =>
    match func with
    | 0 | 1 => if n then vZero else .inf false
    | 2 | 3 | 6 => if n then .nan else .inf false
    | 4 => .fin n 0 0
    | 5 => if n then .nan else vZero
    | 7 | 11 => .fin n 1 0
    | 8 => if n then vZero else vInt 1
    | 9 | 10 => if n then .fin true 0 0 else .inf false
    | _ => .nan
  | .fin n m e =>
    match func with
    | 0 => fExp n m e
    | 1 => fExp2 n m e
    | 2 => if m = 0 then .inf true else if n then .nan else fLog false m e
    | 3 => if m = 0 then .inf true else if n then .nan else fLog true m e
    | 4 => vDivTo .f32 (vInt 1) (.fin n m e)
    | 5 => if m = 0 then .inf n else if n then .nan else sqrtRat .f32 1 m (-e)
    | 6 => vSqrt .f32 (.fin n m e)
    | 7 => if m = 0 then .fin n 0 0 else fTanh n m e
    | 8 => let r := sigRat n m e; rf32 false r.1 r.2 0
    | 9 => if m = 0 then .fin n 0 0 else fGelu n m e
    | 10 => if m = 0 then .fin n 0 0 else let r := sigRat n m e; rf32 n (m * r.1) r.2 e
    | 11 => if m = 0 then .fin n 0 0 else fErf n m e
    | 12 => fSinCos false n m e
    | _ => fSinCos true n m e

end Sys2Proof.Machine
end

