-- ==== Sys2Proof/Machine/Engine.lean ====
section
/-! DEFINITION. What every engine shares: a command runs commit unit by commit unit (R347), stalls on absent pages, runs again
after a parity error (R65, R143) and ends with an outcome. -/

namespace Sys2Proof.Machine

open Sys2Proof

/-- What one commit unit comes to: done, stalled on a page, met bad parity, ended the command, or waits for a reply (R456). -/
inductive UOut
  | ok (m : Cmd) (c : Chip)
  | stall (p : XPage) (c : Chip)
  | parity (h o addr : Nat) (c : Chip)
  | stop (r : Res) (m : Cmd) (c : Chip)
  | wait (m : Cmd) (c : Chip)

/-- A stored parity error of a bank (R266): more than 4 in 24 hours move its group onto the spare, which a slice test gives up (R524), or
raise a capacity risk when the spare is in use. -/
def bankError (h o : Nat) (c : Chip) : Chip :=
  let bank := o / 64 % 256
  let k := h * 256 + bank
  let l := ((((c.bank.errs.find? (fun e => e.1 == k)).map (fun e => e.2)).getD []).filter (fun t => c.time < t + 86400000000000)) ++ [c.time]
  let c : Chip := { c with bank := { c.bank with errs := c.bank.errs.filter (fun e => e.1 != k) ++ [(k, l)] } }
  let g := bank / 16
  let c := if l.length ≤ 4 then c else stInterrupt (stOn [6] h) c
  if l.length ≤ 4 || (c.rget (SBD h) SBD_MAP_SPARE_IN_USE == 1 && c.rget (SBD h) SBD_MAP_SPARED_GROUP == g) ||
      c.bank.moving.any (fun e => e.1 == h && e.2.1 == g) then c
  else if c.rget (SBD h) SBD_MAP_SPARE_IN_USE = 1 || c.bank.moving.any (fun e => e.1 == h) then
    if l.length = 5 then c.logEvent 0x0003 2 0x08 h 0 g 0 else c
  else { c with bank := { c.bank with moving := c.bank.moving ++ [(h, (g, false))] } }.rput (SBD h) SBD_STATUS_MOVE_ACTIVE 1

/-- A read of a word with bad parity (R264): counted, and captured while SBD_ERR_ADDR is free. -/
def parityRegs (h o : Nat) (c : Chip) : Chip :=
  let b := SBD h
  let c : Chip := { c with sbdSlip := c.sbdSlip.filter (fun w => w != sbdKey h o / 4) }
  let c := bankError h o ((c.rcount b SBD_PARITY_STORED 1).rput b SBD_ERR_STORED 1)
  if c.rget b SBD_ERR_ADDR_VALID = 1 then c else (c.rput b SBD_ERR_ADDR_OFFSET o).rput b SBD_ERR_ADDR_VALID 1

/-- The unit of a command that ended on a parity error is read again, and poisoned if it is still bad (R265). -/
def parityPoison (h o : Nat) (c : Chip) : Chip :=
  let u := sbdKey h o / 64
  if c.sbdBad.any (fun w => w * 4 / 64 == u) then
    let c := { c with sbdBad := c.sbdBad.filter (fun w => w * 4 / 64 != u), sbdPoison := insertNat u c.sbdPoison }
    (c.rput (SBD h) SBD_ERR_POISON_SET 1).logEvent 0x0011 2 0x08 h 0 (o / 64 * 64) 3
  else c

/-- The error register of a command's engine that says it was run again (R148, R214, R245, R551, R316). -/
def rerunReg (m : Cmd) (c : Chip) : Chip :=
  match m.cls with
  | 1 => c.rput (FUR m.half) FUR_ERR_RERUN 1
  | 2 => c.rput (HAR m.half m.inst) HAR_ERR_RERUN 1
  | 3 => c.rput (DRL m.half 0) DRL_ERR_RERUN 1
  | 4 => c.rput (DMA m.half m.inst) DMA_ERR_RERUN 1
  | 5 => c.rput (INF m.half 0) INF_GLN_ERR_RERUN 1
  | _ => c

/-- The outcome that ends a command on a parity error (R65, R81, R143). -/
def parityRes (m : Cmd) (addr src : Nat) : Res :=
  let r := mkRes (if m.idempotent then sRetryEx else sUncorr) [(0, 8, addr), (8, 1, src)]
  if m.reruns > 0 then { r with detail := setDflag r.detail 4 } else r

/-- A command runs again from its start (R65): three runs in all (log entry 61). -/
def canRerun (m : Cmd) : Bool := m.idempotent && m.reruns < 2

/-- The command at the start of a further run; only the run that ends the command counts (R111) (log entry 61). -/
def again (m : Cmd) : Cmd := { m with prog := 0, notes := {}, har := [], got := [], reruns := m.reruns + 1 }

/-- A command runs its commit units from where it stands, at most n of them; `fin` gives the outcome after the last (log entry 74). -/
def runUnits (total : Nat) (unit : Nat → Cmd → Chip → UOut) (fin : Cmd → Chip → Res) : Nat → Cmd → Chip → Chip
  | 0, m, c => c.putCmd m
  | n + 1, m, c =>
    if m.prog ≥ total then withdrawFaults (finish m (fin m c) c)
    else match unit m.prog m c with
    | .ok m c => runUnits total unit fin n { m with prog := m.prog + 1 } c.land
    | .stall p c => stallAt m p (c.putCmd m)
    | .parity h o addr c =>
      let c := parityRegs h o c
      if canRerun m then runUnits total unit fin n (again m) (rerunReg m c)
      else withdrawFaults (finish m (parityRes m addr 3) (parityPoison h o c))
    | .stop r m c => withdrawFaults (finish m r c)
    | .wait m c => c.putCmd m

/-- Units a command may take in one go: every run to its end (log entry 74). -/
def runFuel (total : Nat) : Nat := 3 * (total + 1)

/-- The engine instance of a command (R23). -/
def Cmd.engine (m : Cmd) : Engine := ⟨m.cls, m.half, m.inst⟩

/-- The instances a command runs on have their clocks (R136, R476), and its arrays have ended the commands they held before (R334). -/
def clocked (m : Cmd) (c : Chip) : Bool :=
  (m.claims ++ [m.engine]).all (fun e => (c.engine e).awake && c.cmds.all (fun x => x.gord == m.gord || !(e.cls == 1 && x.uses e)))

/-- The command a row names: carried by queue q with SEQ, in execution, with the given opcode, and not stalled (log entries 5, 74). -/
def running (q seq cls op : Nat) (c : Chip) : Option Cmd :=
  (c.findCmd (.queue q) seq).filter (fun m => decide (m.phase = .executing) && m.cls == cls && m.op == op && m.stall.isNone && (m.cls == 3 || clocked m c))

/-- The first bad unit among several parts of operands (descriptor, offset, length). -/
def firstBad (c : Chip) (m : Cmd) (l : List (Desc × Nat × Nat)) : Option Bad :=
  l.findSome? (fun x => if x.1.present then opBad c m x.1 x.2.1 x.2.2 else none)

/-- Meeting every poisoned or uncorrectable part in turn; a parity error is left for the caller. -/
def takeAll (l : List (Desc × Nat × Nat)) (m : Cmd) (c : Chip) : Cmd × Chip :=
  l.foldl (fun r x =>
    if x.1.present then
      match opBad r.2 m x.1 x.2.1 x.2.2 with
      | some b => takeBad b r.1 r.2
      | none => r
    else r) (m, c)

/-- A parity error held by an engine instance meets the next command there (R143, R165, R212, R243, R310), as one of a Gleaner's buffer
meets the command it worked for: it runs again, or ends (log entry 61). -/
def meetUpset (e : Engine) (addr src : Nat) (m : Cmd) (c : Chip) : Cmd × Chip × Bool :=
  if (c.engine e).upset || m.upset then
    let c := c.setEngine e { c.engine e with upset := false }
    let m := { m with upset := false }
    if canRerun m then (again m, rerunReg m c, false)
    else (m, withdrawFaults (finish m (parityRes m addr src) c), true)
  else (m, c, false)

/-- A command whose engine row is applied: an upset of its instance first, then its units (log entry 74). -/
def runCmd (e : Engine) (addr total : Nat) (unit : Nat → Cmd → Chip → UOut) (fin : Cmd → Chip → Res) (limit : Nat)
    (m : Cmd) (c : Chip) : Chip :=
  let r := meetUpset e addr (if m.cls = 5 then 1 else 3) m c
  if r.2.2 then r.2.1 else runUnits total unit fin limit r.1 r.2.1

end Sys2Proof.Machine
end

