-- ==== Sys2Proof/Machine/Chain.lean ====
section
/-! DEFINITION. Chain blocks (R78, R191 to R206): the stage words, the checks before issue, and the run of one step. -/

namespace Sys2Proof.Machine

open Sys2Proof

/-- A stage word (R195): KIND, SRC, DST, the flags byte and the four bytes of IMM. -/
structure Stage where
  kind : Nat
  src : Nat
  dst : Nat
  fl : Nat
  b4 : Nat
  b5 : Nat
  imm : Nat
  deriving DecidableEq, Repr

/-- Flag bit i of a stage. -/
def Stage.f (s : Stage) (i : Nat) : Bool := bitAt s.fl i
/-- ONCE (R195). -/
def Stage.once (s : Stage) : Bool := s.f 5
/-- PRED (R195). -/
def Stage.pred (s : Stage) : Nat := bits s.fl 6 2
/-- The low three flag bits: STREAM, OP, CMP or ROP. -/
def Stage.lo3 (s : Stage) : Nat := bits s.fl 0 3
/-- Register and OP of byte 4 of compare and mask stages. -/
def Stage.regB (s : Stage) : Nat := bits s.b4 0 5
/-- OP of byte 4 of compare and mask stages. -/
def Stage.op (s : Stage) : Nat := bits s.b4 5 3
/-- K of bytes 6 and 7, in BF16. -/
def Stage.k (s : Stage) : Nat := bits s.imm 16 16

/-- A chain block with its operands: C of an epilogue stands as `out`, and `epi` is set with the class of its drain. -/
structure ChainBlk where
  stages : List Stage
  nstages : Nat
  masking : Nat
  in0 : Desc
  in1 : Desc
  out : Desc
  aux0 : Desc
  aux1 : Desc
  raw : List (List Byte)
  epi : Bool
  epiInt : Bool
  deriving DecidableEq, Repr

/-- The stage word at offset o (R78). -/
def parseStage (b : List Byte) (o : Nat) : Stage :=
  { kind := leAt b o 1, src := leAt b (o + 1) 1 % 32, dst := leAt b (o + 2) 1 % 32, fl := leAt b (o + 3) 1,
    b4 := leAt b (o + 4) 1, b5 := leAt b (o + 5) 1, imm := leAt b (o + 4) 4 }

/-- The 32 bytes of a descriptor with the bits that R69 reserves in bytes 8 to 10 cleared (R205). -/
def rawDesc (b : List Byte) (o : Nat) : List Byte :=
  putLe (putLe (sliceBytes b o 32) 8 1 (leAt b (o + 8) 1 % 8)) 9 1 (leAt b (o + 9) 1 % 16)

/-- The chain of a CHAIN command (R73). -/
def chainOf (m : Cmd) : ChainBlk :=
  let b := m.bytes
  { stages := ((List.range 12).map (fun i => parseStage b (144 + 8 * i))).take (leAt b 128 1), nstages := leAt b 128 1,
    masking := leAt b 129 1, in0 := parseDesc b 16 0, in1 := parseDesc b 64 1, out := parseDesc b 96 2,
    aux0 := parseDesc b 256 3, aux1 := parseDesc b 288 4,
    raw := [rawDesc b 16, rawDesc b 64, rawDesc b 96, rawDesc b 256, rawDesc b 288], epi := false, epiInt := false }

/-- The chain of a Furrow epilogue (R73, R140, R213): OUT is C. -/
def epiOf (m : Cmd) (intClass : Bool) : ChainBlk :=
  let b := m.bytes
  let none_ := parseDesc [] 0 0
  { stages := ((List.range 12).map (fun i => parseStage b (272 + 8 * i))).take (leAt b 256 1), nstages := leAt b 256 1,
    masking := leAt b 257 1, in0 := none_, in1 := none_, out := parseDesc b 96 2, aux0 := parseDesc b 384 5,
    aux1 := parseDesc b 416 6, raw := [[], [], rawDesc b 96, rawDesc b 384, rawDesc b 416], epi := true, epiInt := intClass }

/-- The iteration shape (R192, R213). -/
def ChainBlk.shape (k : ChainBlk) : Nat × Nat × Nat :=
  if k.epi then (k.out.d0, k.out.d1, 1) else (k.in0.d0, k.in0.d1, k.in0.d2)

/-- The stream that STREAM names; the drain has none. -/
def ChainBlk.stream (k : ChainBlk) (n : Nat) : Desc :=
  match n with
  | 0 => k.in0
  | 1 => k.in1
  | 2 => k.aux0
  | _ => k.aux1

/-- The AUX that SCALE_AUX names. -/
def ChainBlk.aux (k : ChainBlk) (n : Nat) : Desc := if n = 1 then k.aux0 else k.aux1

/-- The destination of a store stage (R203). -/
def ChainBlk.dest (k : ChainBlk) (s : Stage) : Desc := if s.f 1 then k.aux1 else k.out

/-- SCALE_AUX of a store (R197). -/
def Stage.storeAux (s : Stage) : Nat := bits s.fl 2 2

/-- A load of a stream other than the drain. -/
def Stage.isLoadOf (s : Stage) (n : Nat) : Bool := s.kind == 1 && s.lo3 == n

/-- AUX n is loaded as a stream (n: 1 AUX0, 2 AUX1). -/
def ChainBlk.auxLoaded (k : ChainBlk) (n : Nat) : Bool := k.stages.any (fun s => s.isLoadOf (n + 1))

/-- AUX n serves as the scale descriptor of a load. -/
def ChainBlk.auxLoadScale (k : ChainBlk) (n : Nat) : Bool :=
  k.stages.any (fun s => s.kind == 1 && s.lo3 != 4 && (k.stream s.lo3).scaled && s.b5 == n)

/-- AUX n serves as the scale descriptor of a store. -/
def ChainBlk.auxStoreScale (k : ChainBlk) (n : Nat) : Bool :=
  k.stages.any (fun s => s.kind == 0xA && (k.dest s).scaled && s.storeAux == n)

/-- A store targets OUT (false) or AUX1 (true). -/
def ChainBlk.stores (k : ChainBlk) (aux1 : Bool) : Bool := k.stages.any (fun s => s.kind == 0xA && s.f 1 == aux1)

/-- What the checks know of a register as they pass along the chain: INT32, and the FMT and SCALE of the quantise that last
wrote it (R194, R203). -/
structure RegTy where
  int : Bool := false
  quant : Option (Nat × Nat × Nat) := none
  deriving DecidableEq, Repr

/-- A stream's shape for a broadcast mode (R198) (log entry 63). -/
def bcastShape (sh : Nat × Nat × Nat) (b : Nat) : Nat × Nat × Nat :=
  match b with
  | 0 => sh
  | 1 => (sh.1, 1, 1)
  | 2 => (sh.2.1, sh.2.2, 1)
  | _ => (1, 1, 1)

/-- A descriptor has a shape. -/
def Desc.hasShape (d : Desc) (sh : Nat × Nat × Nat) : Bool := d.d0 == sh.1 && d.d1 == sh.2.1 && d.d2 == sh.2.2

/-- The load stage's own checks (R194 to R198, R202). -/
def loadOk (k : ChainBlk) (s : Stage) (phase2 : Bool) : Bool :=
  let int := s.f 3
  if s.lo3 = 4 then k.epi && int == k.epiInt && s.pred == 0 && !s.once
  else
    let d := k.stream s.lo3
    s.lo3 < 4 && !(k.epi && s.lo3 < 2) && d.ok true && d.space != 2 && s.b4 ≤ 3 && s.b5 ≤ 2 && !(s.lo3 == 0 && s.b4 != 0) &&
      !(phase2 && s.b4 == 0) && d.hasShape (bcastShape k.shape s.b4) &&
      (if int then !d.scaled && fmtIsInt d.f else true) &&
      (!d.scaled || (s.b5 != 0 && d.scaleFits (k.aux s.b5) && (k.aux s.b5).space != 2)) &&
      s.pred == 0 && (!s.once || s.b4 ≥ 2)

/-- The store stage's own checks (R196, R203). -/
def storeOk (k : ChainBlk) (s : Stage) (a : RegTy) : Bool :=
  let d := k.dest s
  let rowsc := s.f 0
  let sh := if rowsc then (k.shape.2.1, k.shape.2.2, 1) else k.shape
  d.ok true && d.space != 2 && d.hasShape sh && s.storeAux ≤ 2 && !s.once && !(k.epi && rowsc) &&
    (!d.scaled || (!rowsc && s.pred == 0 && s.storeAux != 0 && d.scaleFits (k.aux s.storeAux) && (k.aux s.storeAux).space != 2 &&
      a.quant == some (d.fmt, d.sfmt, d.blockLog2)))

/-- One stage's checks, and the registers' types after it (R194 to R203); none when the chain is MALFORMED. -/
def stageTy (k : ChainBlk) (phase2 : Bool) (s : Stage) (ts : List RegTy) : Option (List RegTy) :=
  let t := fun (i : Nat) => nth ts i {}
  let a := t s.src
  let setD := fun (x : RegTy) => some (setNth ts s.dst x)
  let f32 := fun (i : Nat) => i < 32 && !(t i).int
  match s.kind with
  | 1 => if loadOk k s phase2 then setD ⟨if s.lo3 = 4 then k.epiInt else s.f 3, none⟩ else none
  | 2 => if a.int == s.f 2 && (!s.f 1 || (s.b4 < 32 && (t s.b4).int == a.int)) then setD {} else none
  | 3 =>
    let op := s.lo3
    if op ≤ 4 && !a.int && (op == 2 || op == 3 || f32 s.b4) && (op == 1 || op == 4 || f32 s.b5) then setD {} else none
  | 4 => if s.b4 ≤ 13 && !a.int then setD {} else none
  | 5 =>
    let sel := s.op == 2
    if s.lo3 ≤ 5 && s.op ≤ 2 && !(a.int && (s.f 3 || s.f 4)) && (s.f 3 || (t s.regB).int == a.int) &&
      (!sel || s.f 4 || (s.b5 < 32 && (t s.b5).int == a.int)) then setD {} else none
  | 6 =>
    if s.op ≤ 5 && s.dst % 4 != 0 && s.pred == 0 && s.lo3 ≤ 5 &&
      (s.op != 0 || (!(a.int && s.f 3) && (s.f 3 || (t s.regB).int == a.int))) then some ts else none
  | 7 =>
    if s.lo3 ≤ 3 && !s.once && !(k.epi && (s.f 3 || s.f 4)) && (!s.f 4 || (s.f 3 && s.b4 < 32)) then setD ⟨a.int, none⟩ else none
  | 8 => if s.lo3 ≤ 2 && !s.once && !(k.epi && s.f 3) then setD ⟨a.int, none⟩ else none
  | 9 =>
    let f := s.b4 % 16
    let sc := s.b5 % 16
    if !a.int && s.pred == 0 && !s.once && f ≥ 2 && f < 0xE && f != 0xA &&
      (sc == 0 || (sc ≥ 0xE && scaleAllowed (fmtOf f) (fmtOf sc) (s.b5 / 16))) then
      setD ⟨false, if sc ≠ 0 ∧ !s.f 0 then some (f, sc, s.b5 / 16) else none⟩
    else none
  | 0xA => if storeOk k s a then some ts else none
  | _ => none

/-- The checks along the chain. -/
def stagesTy (k : ChainBlk) : List Stage → Bool → List RegTy → Bool
  | [], _, _ => true
  | s :: ss, ph2, ts =>
    match stageTy k ph2 s ts with
    | none => false
    | some ts => stagesTy k ss (ph2 || (s.kind == 7 && s.f 4)) ts

/-- The index of the HOLD stage (R201). -/
def ChainBlk.hold (k : ChainBlk) : Option Nat :=
  ((List.range k.stages.length).find? (fun i => match k.stages[i]? with
    | some s => s.kind == 7 && s.f 4
    | none => false))

/-- Vectors of a row (R192). -/
def ChainBlk.vecs (k : ChainBlk) : Nat := ceilDiv k.shape.1 256

/-- What a chain reads and writes (R206): descriptors with the index of their raw bytes and whether they are written. -/
def ChainBlk.uses (k : ChainBlk) : List (Desc × Nat × Bool) :=
  let r := fun (b : Bool) (d : Desc) (i : Nat) (w : Bool) => if b then [(d, i, w)] else []
  r (!k.epi && k.in0.present) k.in0 0 false ++ r (!k.epi && k.in1.present) k.in1 1 false ++
    r (k.auxLoaded 1 || k.auxLoadScale 1) k.aux0 3 false ++ r (k.auxLoaded 2 || k.auxLoadScale 2) k.aux1 4 false ++
    r (k.stores false) k.out 2 true ++ r (k.stores true || k.auxStoreScale 2) k.aux1 4 true ++ r (k.auxStoreScale 1) k.aux0 3 true

/-- The range of a descriptor for overlap checks (R132, R205): its space, the half relative to the running one, first byte,
one past the last. -/
def Desc.range (d : Desc) : Nat × Nat × Nat × Nat :=
  if d.space = 1 then (1, bits d.addr 32 1, bits d.addr 0 28, bits d.addr 0 28 + d.span)
  else (0, 0, bits d.addr 0 57, bits d.addr 0 57 + d.span)

/-- Two descriptors' extents share a byte. -/
def Desc.overlaps (d e : Desc) : Bool :=
  let a := d.range
  let b := e.range
  a.1 == b.1 && a.2.1 == b.2.1 && a.2.2.1 < b.2.2.2 && b.2.2.1 < a.2.2.2

/-- No written extent overlaps a read one, identical descriptors apart (R205). -/
def ChainBlk.overlapOk (k : ChainBlk) : Bool :=
  k.uses.all (fun w => !w.2.2 || k.uses.all (fun r => r.2.2 || !w.1.overlaps r.1 || nth k.raw w.2.1 [] == nth k.raw r.2.1 []))

/-- The chain passes every check (R194 to R206, R213). -/
def ChainBlk.ok (k : ChainBlk) : Bool :=
  k.nstages ≥ 1 && k.nstages ≤ 12 && k.masking ≤ 1 && (k.epi || (k.in0.present && k.in0.ok true)) &&
    (k.epi || !k.in1.present || k.in1.ok true) &&
    [k.in0, k.in1, k.out, k.aux0, k.aux1].all (fun d => !d.present || d.space != 2) &&
    (k.stages.filter (fun s => s.kind == 7 && s.f 4)).length ≤ 1 &&
    (match k.hold with
     | some h => k.vecs ≤ 64 && (k.stages.take (h + 1)).all (fun s => s.kind != 0xA)
     | none => true) &&
    (k.stores false || k.stores true) &&
    (k.stages.filter (fun s => s.kind == 0xA && !s.f 1)).length ≤ 1 && (k.stages.filter (fun s => s.kind == 0xA && s.f 1)).length ≤ 1 &&
    !(k.auxLoaded 1 && (k.auxLoadScale 1 || k.auxStoreScale 1)) && !(k.auxLoaded 2 && (k.auxLoadScale 2 || k.auxStoreScale 2)) &&
    stagesTy k k.stages false (List.replicate 32 {}) && k.overlapOk

/-! ### Running a chain -/

/-- Register i. -/
def HState.reg (h : HState) (i : Nat) : VReg := nth h.v i {}
/-- Register i replaced. -/
def HState.setReg (h : HState) (i : Nat) (r : VReg) : HState := { h with v := setNth h.v i r }
/-- Mask i: k0 reads as all ones, and k1 to k3 hold all ones at the start of a command. -/
def HState.mask (h : HState) (i : Nat) : List Bool :=
  if i = 0 then List.replicate 256 true else
  match nth h.k (i - 1) [] with
  | [] => List.replicate 256 true
  | l => l

/-- A NaN result keeps the origin of its first NaN operand; one made from other inputs has this stage as origin (R211). -/
def nanFrom (st : Nat) (ops : List Lane) (v : Val) : Lane :=
  let p := ops.any (fun l => l.poison)
  if vIsNan v then
    match ops.find? (fun l => vIsNan l.v) with
    | some l => ⟨.nan, l.org, l.cause, p⟩
    | none => ⟨.nan, st, 1, p⟩
  else ⟨v, 0, 0, p⟩

/-- The result of a stage in F32. -/
def laneF (st : Nat) (ops : List Lane) (v : Val) : Lane := nanFrom st ops (vRound .f32 v)

/-- CMP codes (R197, R199): exact, false on NaN except NE (log entry 63). -/
def cmpVal (code : Nat) (a b : Val) : Bool :=
  match code with
  | 0 => vEq a b
  | 1 => !vEq a b
  | 2 => vLt a b
  | 3 => vLt a b || vEq a b
  | 4 => vLt b a
  | _ => vLt b a || vEq a b

/-- MAX (R199): NaN if either is NaN, +0 over -0. -/
def maxVal (a b : Val) : Val :=
  if vIsNan a || vIsNan b then .nan else if vLt a b then b else if vLt b a then a
  else if vIsZero a && vNeg? a then b else a

/-- MIN (R199): NaN if either is NaN, -0 under +0. -/
def minVal (a b : Val) : Val :=
  if vIsNan a || vIsNan b then .nan else if vLt a b then a else if vLt b a then b
  else if vIsZero a && vNeg? b then b else a

/-- The integer of a lane. -/
def vToInt : Val → Int
  | .fin n m e => let k : Int := (m * pow2 e / pow2 (-e) : Nat); if n then -k else k
  | _ => 0

/-- An integer held at the INT32 range. -/
def satInt32 (i : Int) : Int := if i > 2147483647 then 2147483647 else if i < -2147483648 then -2147483648 else i

/-- ROP on two running values (R200): F32 rounded; INT32 sums are exact until they are written. -/
def ropVal (int : Bool) (rop : Nat) (a b : Val) : Val :=
  match rop with
  | 1 => maxVal a b
  | 2 => minVal a b
  | _ => if int then vInt (vToInt a + vToInt b) else vRound .f32 (vAdd a b)

/-- The identity an inactive lane enters as (R200). -/
def ropId (int : Bool) (rop : Nat) : Val :=
  match rop with
  | 1 => if int then vInt (-2147483648) else .inf true
  | 2 => if int then vInt 2147483647 else .inf false
  | _ => vZero

/-- Two lanes combined (log entry 63). -/
def ropLane (st : Nat) (int : Bool) (rop : Nat) (a b : Lane) : Lane := nanFrom st [a, b] (ropVal int rop a.v b.v)

/-- One level of the pairwise tree. -/
def pairUp (f : Lane → Lane → Lane) : List Lane → List Lane
  | a :: b :: l => f a b :: pairUp f l
  | l => l

/-- The fixed pairwise tree over 256 lanes (R200). -/
def treeLanes (f : Lane → Lane → Lane) : Nat → List Lane → Lane
  | 0, l => l.headD {}
  | n + 1, l => treeLanes f n (pairUp f l)

/-- The prefix combinations of a scan: inclusive, or exclusive (log entry 63). -/
def scanLanes (f : Lane → Lane → Lane) (excl : Bool) : Lane → List Lane → List Lane × Lane
  | acc, [] => ([], acc)
  | acc, x :: xs =>
    let y := f acc x
    let r := scanLanes f excl y xs
    ((if excl then acc else y) :: r.1, r.2)

/-- An INT32 value as it is written to a register (R200). -/
def satLane (int : Bool) (l : Lane) : Lane := if int then { l with v := vInt (satInt32 (vToInt l.v)) } else l

/-- Where a step stands: (x, y, z) and the number of lanes that are not tail lanes. -/
structure StepAt where
  x : Nat
  y : Nat
  z : Nat
  live : Nat
  first : Bool
  last : Bool
  /-- The step's x in a destination that takes the split layout (R213). -/
  sx : Nat
  deriving DecidableEq, Repr

/-- The x at which a step writes a destination: the split layout holds only in the Seedbed. -/
def StepAt.dx (p : StepAt) (d : Desc) : Nat := if d.space = 1 then p.sx else p.x

/-- A predicated result written to D (R196). -/
def writeD (k : ChainBlk) (s : Stage) (h : HState) (int : Bool) (ls : List Lane) : HState :=
  let old := h.reg s.dst
  let mk := h.mask s.pred
  let out := (List.range 256).map (fun i =>
    if s.pred = 0 || nth mk i true then nth ls i {} else if k.masking = 0 then nth old.lanes i {} else {})
  h.setReg s.dst ⟨out, int, []⟩

/-- The element index a load reads for a lane (R198). -/
def loadIx (s : Stage) (p : StepAt) (l : Nat) : Nat × Nat × Nat :=
  match s.b4 with
  | 0 => (256 * p.x + l, p.y, p.z)
  | 1 => (256 * p.x + l, 0, 0)
  | 2 => (p.y, p.z, 0)
  | _ => (0, 0, 0)

/-- One element read by a load stage (R103, R197). -/
def loadLane (c : Chip) (m : Cmd) (k : ChainBlk) (st : Nat) (s : Stage) (i : Nat × Nat × Nat) : Lane :=
  let d := k.stream s.lo3
  let v := if s.f 3 then elemVal c m d d i.1 i.2.1 i.2.2 else vRound .f32 (elemVal c m d (k.aux s.b5) i.1 i.2.1 i.2.2)
  let bad := (elemBad c m d i.1 i.2.1 i.2.2).isSome ||
    (d.scaled && (elemBad c m (k.aux s.b5) (i.1 / d.block) i.2.1 i.2.2).isSome)
  if bad then { poison := true } else if vIsNan v then ⟨.nan, st, 2, false⟩ else ⟨v, 0, 0, false⟩

/-- The lanes a load stage delivers: tail lanes load +0. -/
def loadLanes (c : Chip) (m : Cmd) (k : ChainBlk) (drain : List Lane) (st : Nat) (s : Stage) (p : StepAt) : List Lane :=
  if s.lo3 = 4 then drain else
  (List.range 256).map (fun l => if l < p.live then loadLane c m k st s (loadIx s p l) else {})

/-- The inputs of a reduce or scan (R200): lanes that are neither tail lanes nor masked. -/
def activeLanes (h : HState) (s : Stage) (p : StepAt) (int : Bool) (st : Nat) (ls : List Lane) : List Lane :=
  let mk := h.mask s.pred
  let rop := if s.kind = 7 ∧ s.lo3 = 3 then 0 else s.lo3
  (List.range 256).map (fun i =>
    if i < p.live && (s.pred == 0 || nth mk i true) then
      let a := nth ls i {}
      if s.kind = 7 ∧ s.lo3 = 3 then
        (if int then { a with v := vInt (vToInt a.v * vToInt a.v) } else laneF st [a] (vMul a.v a.v))
      else a
    else { v := ropId int rop })

/-- The blocks of a list. -/
def blocksOf {α : Type} (n : Nat) : Nat → List α → List (List α)
  | 0, _ => []
  | f + 1, l => if l.isEmpty then [] else l.take n :: blocksOf n f (l.drop n)

/-- Quantise (R102, R203): D and its scale side. -/
def quantLanes (f sf : Fmt) (n : Nat) (deq : Bool) (live st : Nat) (ls : List Lane) : List Lane × List (Nat × Option Lane) :=
  let bl := blocksOf n 256 (ls.take live)
  let r := bl.map (fun b =>
    let p := b.any (fun l => l.poison)
    let q := quantBlock sf f (b.map (fun l => l.v))
    let codes := q.2.1.map (fun cd =>
      let v := decodeFmt f cd
      if deq then
        let v := scaleVal sf q.1 v
        (if vIsNan v then ⟨.nan, ((b.find? (fun l => vIsNan l.v)).getD {}).org, ((b.find? (fun l => vIsNan l.v)).getD {}).cause, p⟩
         else ⟨vRound .f32 v, 0, 0, p⟩ : Lane)
      else ⟨v, 0, 0, p⟩)
    let nan := if q.2.2 then b.find? (fun l => vIsNan l.v) else if p then some { poison := true } else none
    (codes, (q.1, nan)))
  let lanes := r.flatMap (fun x => x.1)
  (lanes ++ List.replicate (256 - lanes.length) ({} : Lane), if deq then [] else r.map (fun x => x.2))

/-- The value IMM gives to a scale stage's second operand. -/
def scaleOperand (h : HState) (s : Stage) (i : Nat) : Lane :=
  if s.f 1 then nth (h.reg s.b4).lanes i {} else { v := decodeFmt .f32 s.imm }

/-- One stage other than a store, in one step (R193, R197, R199 to R203) (log entry 63). -/
def runStage (c : Chip) (m : Cmd) (k : ChainBlk) (drain : List Lane) (p : StepAt) (st : Nat) (s : Stage) (h : HState) : HState :=
  let a := h.reg s.src
  let la := fun (i : Nat) => nth a.lanes i {}
  let lr := fun (r i : Nat) => nth (h.reg r).lanes i {}
  let all := fun (f : Nat → Lane) => (List.range 256).map f
  match s.kind with
  | 1 => h.setReg s.dst ⟨loadLanes c m k drain st s p, if s.lo3 = 4 then k.epiInt else s.f 3, []⟩
  | 2 => writeD k s h false (all (fun i =>
      let b := scaleOperand h s i
      laneF st [la i, b] (if s.f 0 then vAdd (la i).v b.v else vMul (la i).v b.v)))
  | 3 => writeD k s h false (all (fun i =>
      let x := la i
      let y := lr s.b4 i
      let z := lr s.b5 i
      let sg := fun (v : Val) => if s.f 3 then vNeg v else v
      match s.lo3 with
      | 0 => laneF st [x, y, z] (vAdd (sg (vMul x.v y.v)) z.v)
      | 1 => laneF st [x, y] (sg (vMul x.v y.v))
      | 2 => laneF st [x, z] (vAdd x.v z.v)
      | 3 => laneF st [x, z] (vSub x.v z.v)
      | _ => laneF st [x, y] (vDivTo .f32 x.v y.v)))
  | 4 => writeD k s h false (all (fun i => laneF st [la i] (transc s.b4 (la i).v)))
  | 5 => writeD k s h false (all (fun i =>
      let x := la i
      let y := if s.f 3 then { v := decodeFmt .bf16 s.k } else lr s.regB i
      let z := if s.f 4 then { v := decodeFmt .bf16 s.k } else lr s.b5 i
      match s.op with
      | 0 => laneF st [x, y] (maxVal x.v y.v)
      | 1 => laneF st [x, y] (minVal x.v y.v)
      | _ =>
        let w := if cmpVal s.lo3 x.v y.v then x else z
        { w with v := vRound .f32 w.v, poison := w.poison || x.poison || y.poison }))
  | 6 =>
    let n := s.src % 4
    let o := s.b5 % 4
    let r := (List.range 256).map (fun i =>
      let p1 := nth (h.mask n) i true
      let p2 := nth (h.mask o) i true
      match s.op with
      | 0 => cmpVal s.lo3 (la i).v (if s.f 3 then decodeFmt .bf16 s.k else (lr s.regB i).v)
      | 1 => p1 && p2
      | 2 => p1 || p2
      | 3 => p1 && !p2
      | 4 => !p1
      | _ => vIsNan (la i).v)
    { h with k := setNth h.k (s.dst % 4 - 1) r }
  | 7 =>
    let rop := if s.lo3 = 3 then 0 else s.lo3
    let tot := treeLanes (ropLane st a.int rop) 8 (activeLanes h s p a.int st a.lanes)
    let run := if s.f 3 && !p.first then kget (fun _ => ({ v := ropId a.int rop } : Lane)) h.run st else { v := ropId a.int rop }
    let t := if s.f 3 then satLane a.int (ropLane st a.int rop run tot) else satLane a.int tot
    let h := if s.f 4 then { h with buf := h.buf ++ [h.reg s.b4] } else h
    let h := { h with run := kinsert st t h.run }
    writeD k s h a.int (List.replicate 256 t)
  | 8 =>
    let id : Lane := { v := ropId a.int s.lo3 }
    let start := if s.f 3 && !p.first then kget (fun _ => id) h.run st else id
    let r := scanLanes (ropLane st a.int s.lo3) (s.f 4) start (activeLanes h s p a.int st a.lanes)
    let h := { h with run := kinsert st (satLane a.int r.2) h.run }
    writeD k s h a.int (r.1.map (satLane a.int))
  | 9 =>
    let f := fmtOf (s.b4 % 16)
    let sc := s.b5 % 16
    if sc = 0 then
      h.setReg s.dst ⟨all (fun i => let cv := encodeVal f (la i).v; { la i with v := decodeFmt f cv.code }), false, []⟩
    else
      let r := quantLanes f (fmtOf sc) (2 ^ (s.b5 / 16)) (s.f 0) p.live st a.lanes
      h.setReg s.dst ⟨r.1, false, r.2⟩
  | _ => h

/-- The NaN event of a Harrow lane written at element (i0, i1, i2) (R114, R211); a Furrow epilogue gives the Furrow's
coordinates. -/
def laneEv (c : Chip) (m : Cmd) (k : ChainBlk) (l : Lane) (i0 i1 i2 cause : Nat) : NanEv :=
  if k.epi then
    let w := if m.tandem then 1024 else 512
    ⟨cause, l.org, i1 / 128 % 65536, i0 / w % 65536, i1 % 128, i0 % w, c.time⟩
  else ⟨cause, l.org, i1 % 65536, i0 / 256 % 65536, i2 % 65536, i0 % 256, c.time⟩

/-- One lane stored to an element of a destination (R103 to R106, R110); its coordinates are those of element `at_`. -/
def storeLane (m : Cmd) (k : ChainBlk) (d : Desc) (ix at_ : Nat × Nat × Nat) (l : Lane) (count : Bool) (r : Cmd × Chip) : Cmd × Chip :=
  let cv := encodeVal d.f l.v
  let c := elemStore r.2 m d ix.1 ix.2.1 ix.2.2 cv.code
  if l.poison then
    let s := elemSpan d ix.1
    (r.1, opPoison c m d (d.rowOff ix.2.1 ix.2.2 + s.1) s.2.2)
  else ({ r.1 with notes := if count then r.1.notes.conv cv (laneEv c m k l at_.1 at_.2.1 at_.2.2 l.cause) else r.1.notes }, c)

/-- The scale codes of one vector stored (R203); a NaN scale is a NaN event of cause 5. -/
def storeScales (m : Cmd) (k : ChainBlk) (d s : Desc) (p : StepAt) (side : List (Nat × Option Lane)) (r : Cmd × Chip) : Cmd × Chip :=
  (List.range side.length).foldl (fun r j =>
    let sc := nth side j (0, none)
    let i := 256 * p.dx s / d.block + j
    let c := elemStore r.2 m s i p.y p.z sc.1
    match sc.2 with
    | none => (r.1, c)
    | some l =>
      if l.poison then (r.1, opPoison c m s (s.rowOff p.y p.z + (elemSpan s i).1) (elemSpan s i).2.2)
      else ({ r.1 with notes := r.1.notes.addNan (laneEv c m k l ((256 * p.x / d.block + j) * d.block) p.y p.z 5) }, c)) r

/-- One store stage in one step (R196, R203). -/
def runStore (m : Cmd) (k : ChainBlk) (p : StepAt) (s : Stage) (h : HState) (r : Cmd × Chip) : Cmd × Chip :=
  let d := k.dest s
  let a0 := h.reg s.src
  let a : VReg := if h.rowPoison then
      { a0 with lanes := a0.lanes.map (fun l => { l with poison := true }), side := a0.side.map (fun x => (x.1, some { poison := true })) }
    else a0
  let mk := h.mask s.pred
  if s.f 0 then
    if p.last then storeLane m k d (p.y, p.z, 0) (0, p.y, p.z) (nth a.lanes 0 {}) true r else r
  else
    let r := (List.range p.live).foldl (fun r i =>
      if s.pred = 0 || nth mk i true then
        storeLane m k d (256 * p.dx d + i, p.y, p.z) (256 * p.x + i, p.y, p.z) (nth a.lanes i {}) (!d.scaled) r
      else if k.masking = 0 then r
      else storeLane m k d (256 * p.dx d + i, p.y, p.z) (256 * p.x + i, p.y, p.z) {} true r) r
    if d.scaled then storeScales m k d (k.aux s.storeAux) p a.side r else r

/-- The stages of one phase in one step; loads read what stood at the step's start. -/
def runStages (c0 : Chip) (m ms : Cmd) (k : ChainBlk) (drain : List Lane) (p : StepAt) (phaseFirst : Bool) :
    List (Nat × Stage) → HState → Cmd × Chip → HState × (Cmd × Chip)
  | [], h, r => (h, r)
  | (i, s) :: ss, h, r =>
    if s.once && !phaseFirst then runStages c0 m ms k drain p phaseFirst ss h r
    else if s.kind = 0xA then runStages c0 m ms k drain p phaseFirst ss h (runStore ms k p s h r)
    else runStages c0 m ms k drain p phaseFirst ss (runStage c0 m k drain p i s h) r

/-- The stages with their numbers. -/
def ChainBlk.numbered (k : ChainBlk) : List (Nat × Stage) := (List.range k.stages.length).zip k.stages

/-- The parts of operands that the loads of some stages read in one step. -/
def stepReads (k : ChainBlk) (p : StepAt) (ss : List (Nat × Stage)) : List (Desc × Nat × Nat) :=
  ss.flatMap (fun x =>
    let s := x.2
    if s.kind = 1 ∧ s.lo3 ≠ 4 then
      let d := k.stream s.lo3
      let lo := loadIx s p 0
      let n := if s.b4 ≤ 1 then p.live else 1
      let o := d.rowOff lo.2.1 lo.2.2 + d.w * lo.1 / 8
      let e := d.rowOff lo.2.1 lo.2.2 + (d.w * (lo.1 + n) + 7) / 8
      let sc := if d.scaled then
          let t := k.aux s.b5
          [(t, t.rowOff lo.2.1 lo.2.2 + lo.1 / d.block, (lo.1 + n - 1) / d.block - lo.1 / d.block + 1)]
        else []
      (d, o, e - o) :: sc
    else [])

/-- The parts that the stores of some stages write in one step. -/
def stepWrites (k : ChainBlk) (p : StepAt) (ss : List (Nat × Stage)) : List (Desc × Nat × Nat) :=
  ss.flatMap (fun x =>
    let s := x.2
    if s.kind = 0xA then
      let d := k.dest s
      if s.f 0 then
        (if p.last then [(d, d.rowOff p.z 0 + (elemSpan d p.y).1, (elemSpan d p.y).2.2)] else [])
      else
        let i := 256 * p.dx d
        let o := d.rowOff p.y p.z + d.w * i / 8
        let e := d.rowOff p.y p.z + (d.w * (i + p.live) + 7) / 8
        let sc := if d.scaled then
            let t := k.aux s.storeAux
            [(t, t.rowOff p.y p.z + i / d.block, (p.live + d.block - 1) / d.block)]
          else []
        (d, o, e - o) :: sc
    else [])

/-- Page needs of parts of operands. -/
def partNeeds (wr : Bool) (l : List (Desc × Nat × Nat)) : List (Nat × Nat × Nat × Bool) :=
  l.filterMap (fun x => if x.1.space = 0 then some (bits x.1.addr 0 57 + x.2.1, x.2.2, x.1.idx, wr) else none)

end Sys2Proof.Machine
end

