-- ==== Sys2Proof/Machine/Fabric.lean ====
section
/-! DEFINITION. The fabric's paths (R446 to R453) and transactions (R457 to R459): routing, sending, the origin's transactions and the
outcome of their replies. -/

namespace Sys2Proof.Machine

open Sys2Proof

/-! ### Nodes and routing -/

/-- This module's node identifier (R447). -/
def Chip.node (c : Chip) : Nat := c.rget AIH AIH_NODE_ID_NODE

/-- Low bit and width of a coordinate of the topology in force (R447). -/
def coordFld (c : Chip) (dim : Nat) : Nat × Nat :=
  let x := c.rget AIH AIH_TOPO_CUR_X_BITS
  let y := c.rget AIH AIH_TOPO_CUR_Y_BITS
  let z := c.rget AIH AIH_TOPO_CUR_Z_BITS
  match dim with
  | 0 => (0, x)
  | 1 => (x, y)
  | _ => (x + y, z)

/-- A coordinate of a node. -/
def coord (c : Chip) (n dim : Nat) : Nat := let f := coordFld c dim; bits n f.1 f.2

/-- The group of a node: the bits above its coordinates. -/
def nodeGroup (c : Chip) (n : Nat) : Nat := let f := coordFld c 2; n / 2 ^ (f.1 + f.2)

/-- The size of a dimension. -/
def dimSize (c : Chip) (dim : Nat) : Nat :=
  match dim with
  | 0 => c.rget AIH AIH_TOPO_CUR_X_SIZE
  | 1 => c.rget AIH AIH_TOPO_CUR_Y_SIZE
  | _ => c.rget AIH AIH_TOPO_CUR_Z_SIZE

/-- Dimensions that the topology uses (R446). -/
def topoDims (kind : Nat) : List Nat := if kind ≤ 1 then [0] else if kind = 2 then [0, 1] else [0, 1, 2]

/-- A port is UP with the given uses in force (R439). -/
def portUp (c : Chip) (p : Nat) (uses : List Nat) : Bool :=
  c.rget (AIHP p) AIH_PORT_STATUS_STATE == 4 && uses.contains (c.rget (AIHP p) AIH_PORT_STATUS_USE)

/-- Steps from a to b going up (or down) a ring of n. -/
def ringDist (n a b : Nat) (up : Bool) : Nat := if up then (b + n - a % n) % n else (a + n - b % n) % n

/-- A port of a dimension and way carries a packet for d: it is UP, and d does not lie strictly between s and its peer (R448). -/
def wayOk (c : Chip) (kind dim s d : Nat) (up : Bool) : Option Nat :=
  let p := 2 * dim + (if up then 0 else 1)
  if !portUp c p [1] then none else
  let peer := coord c (c.rget (AIHP p) AIH_PORT_PEER_NODE) dim
  let between :=
    if kind = 0 then (if up then decide (s < d) && decide (d < peer) else decide (peer < d) && decide (d < s))
    else decide (ringDist (dimSize c dim) s d up < ringDist (dimSize c dim) s peer up)
  if between then none else some p

/-- What routing answers (R448): deliver here, a port, or unreachable. -/
inductive Route
  | here | port (p : Nat) | none
  deriving DecidableEq, Repr

/-- Routing within a group, in dimension order (R448, R449). -/
def routeIn (c : Chip) (d : Nat) : Route :=
  let kind := c.rget AIH AIH_TOPO_CUR_KIND
  match (topoDims kind).find? (fun i => coord c d i != coord c c.node i) with
  | none => .none
  | some i =>
    let a := coord c c.node i
    let b := coord c d i
    let up := if kind = 0 then decide (a < b) else decide (ringDist (dimSize c i) a b true ≤ ringDist (dimSize c i) a b false)
    match wayOk c kind i a b up with
    | some p => .port p
    | none => if kind = 0 then .none else match wayOk c kind i a b (!up) with
      | some p => .port p
      | none => .none

/-- Routing of a packet (R448). -/
def route (c : Chip) (d : Nat) : Route :=
  if d = c.node then .here
  else if nodeGroup c d ≠ nodeGroup c c.node then
    let u := (rangeFrom 2 7).filter (fun p => portUp c p [2, 3])
    if u.isEmpty then routeIn c (c.rget AIH AIH_GATEWAY_CUR_NODE)
    else .port (nth u (crc32c (leBytes 3 d) % u.length) 0)
  else routeIn c d

/-! ### Sending -/

/-- An Aihal port's link state. -/
def Chip.aport (c : Chip) (p : Nat) : APort := nth c.fab.ports p {}

/-- An Aihal port's link state replaced. -/
def Chip.setAport (c : Chip) (p : Nat) (x : APort) : Chip := { c with fab := { c.fab with ports := setNth c.fab.ports p x } }

/-- Payload bytes of a packet. -/
def pktBytes : Packet → Nat
  | .access a => a.data.length
  | .reply r => r.data.length
  | .coll m => m.data.length
  | .mgmt b => b.length
  | .yoke _ => 0
  | .unreach _ _ => 0
  | .watchMsg _ => 0

/-- A frame leaves by a port: into a datagram, into the replay buffer and onto the link, or behind a full buffer (R443, R451). -/
def sendOn (p : Nat) (f : TxFrame) (c : Chip) : Chip :=
  let b := AIHP p
  let c := c.rcount b AIH_PORT_TX_BYTES (pktBytes f.pkt)
  if c.rget b AIH_PORT_STATUS_USE = 3 then c.emit (.datagram p f)
  else
    let a := c.aport p
    if a.replay.length < 4096 && a.queue.isEmpty && c.rget b AIH_PORT_STATUS_STATE == 4 then
      let f := { f with seq := a.txSeq }
      (c.setAport p { a with txSeq := (a.txSeq + 1) % 65536, replay := a.replay ++ [f] }).emit (.frame p f)
    else c.setAport p { a with queue := a.queue ++ [f] }

/-- A packet sent from this module or through it: false when no way leads to its destination (log entry 76). -/
def sendFrame (f : TxFrame) (c : Chip) : Bool × Chip :=
  match route c f.dst with
  | .here => (true, { c with fab := { c.fab with own := c.fab.own ++ [f] } })
  | .port p => (true, sendOn p f c)
  | .none => (false, c)

/-- A packet of this module (log entry 53). -/
def sendPkt (cls dst : Nat) (p : Packet) (c : Chip) : Bool × Chip := sendFrame ⟨0, cls, c.node, dst, p⟩ c

/-- The node of a logical rank through the rank table (R452); none when the entry is not valid or not backed (R569). -/
def rankNode (c : Chip) (rank : Nat) : Option Nat :=
  let a := c.rget AIH AIH_RANK_BASE_CUR_BASE * 4096 + 4 * rank
  if c.rget AIH AIH_RANK_BASE_CUR_BASE = 0 || !backed a 4 then none
  else
    let e := c.rdLe a 4
    if bitAt e 31 then some (bits e 0 24) else none

/-! ### Transactions at the origin -/

/-- Traffic class of a request. -/
def reqClass : Nat := 0

/-- A packet with its sequence number, this module's rank, node and job (R453, R457). -/
def stampPkt (c : Chip) (seq : Nat) : Packet → Packet
  | .access a => .access { a with rank := c.rget AIH AIH_SELF_RANK_CUR_RANK, node := c.node, job := c.rget AIH AIH_JOB_CUR_JOB, seq := seq }
  | .yoke o => .yoke { o with rank := c.rget AIH AIH_SELF_RANK_CUR_RANK, node := c.node, job := c.rget AIH AIH_JOB_CUR_JOB, txn := seq }
  | .coll m => .coll { m with rank := c.rget AIH AIH_SELF_RANK_CUR_RANK, node := c.node, job := c.rget AIH AIH_JOB_CUR_JOB, seq := seq }
  | p => p

/-- What starting a transaction comes to. -/
inductive Started
  | sent (id : Nat)
  | noRank
  | lost
  | full
  deriving DecidableEq, Repr

/-- A transaction starts (R452, R457): it is numbered for its target and sent; a rank that is not valid sends nothing, and one that no path reaches is a
lost peer; at most 4,096 to one target are outstanding. -/
def startTxn (f : TxnFor) (rank : Nat) (p : Packet) (c : Chip) : Started × Chip :=
  match rankNode c rank with
  | none => (.noRank, c)
  | some n =>
    if (c.fab.txns.filter (fun t => t.rank == rank)).length ≥ 4096 then (.full, c)
    else
      let seq := kget (fun _ => 0) c.fab.seqs rank
      let p := stampPkt c seq p
      let id := c.fab.nextId
      let r := sendPkt reqClass n p c
      if !r.1 then (.lost, c)
      else
        let fb := r.2.fab
        (.sent id, { r.2 with fab := { fb with nextId := id + 1, seqs := kset (fun _ => 0) fb.seqs rank ((seq + 1) % 2 ^ 32),
                                               txns := fb.txns ++ [{ id := id, rank := rank, seq := seq, for_ := f, pkt := p }] } })

/-- A transaction is over. -/
def dropTxn (id : Nat) (c : Chip) : Chip := { c with fab := { c.fab with txns := c.fab.txns.filter (fun t => t.id != id) } }

/-- PEER_LOST with the rank and group (R81). -/
def peerLostRes (rank group : Nat) : Res := mkRes sPeerLost [(0, 4, rank), (4, 2, group)]

/-- A command whose transaction failed, or was refused, takes that outcome; its other transactions are given up (R456, R459). -/
def failCmd (m : Cmd) (r : Res) (c : Chip) : Chip :=
  let c := { c with fab := { c.fab with txns := c.fab.txns.filter (fun t => match t.for_ with
    | .cmd k s _ => !(decide (k = m.car) && s == m.seq)
    | _ => true) } }
  let failed := r.status == sPeerLost || r.status == sRetryEx || r.status == sTimeout
  let c := if m.cls == 4 && failed then c.rput (DMA m.half m.inst) DMA_ERR_REMOTE_FAIL 1 else c
  let r := match m.res with
    | some x => if x.status ≤ 1 then r else x
    | none => r
  withdrawFaults (finish { m with txns := [], stall := none } r c)

/-- A collective has found a peer lost (R465), or was refused; it ends with the command's next step. -/
def markColl (g n : Nat) (f : Coll → Coll) (c : Chip) : Chip :=
  { c with fab := { c.fab with colls := c.fab.colls.map (fun x => if x.group = g ∧ x.cseq = n then f x else x) } }

/-- A watch message sent as an ADD did not reach its target, or was refused (R371, R383): the registering context is told, here or
at the module of a rank that registered the watch from afar. -/
def watchLost (m : YMsg) (rank : Option Nat) (c : Chip) : Chip :=
  match rank with
  | none => undelivered m c
  | some r =>
    let c := c.rput (YOK (bits m.sem 17 1)) YOK_ERR_MSG_UNDELIVERED 1
    match c.fab.origins.find? (fun o => o.rank == r) with
    | some o => (sendPkt 1 o.node (.watchMsg { m with wstatus := 2 }) c).2
    | none => c

/-- A transaction ends without a reply (R459), or its message cannot reach its target (R371, R381). -/
def failTxn (t : Txn) (r : Res) (c : Chip) : Chip :=
  let c := dropTxn t.id c
  match t.for_ with
  | .cmd k s _ =>
    match c.findCmd k s with
    | some m => failCmd m r c
    | none => c
  | .coll g n => markColl g n (fun x => { x with lost := some (x.lost.getD t.rank) }) c
  | .watchAdd m r => watchLost m r c
  | .parent h o _ => parentLost (barKey h o) c

/-- The detail a reply's outcome takes at the origin: the status with its own detail, and REASON 5 or 6 as the target gave it. -/
def replyRes (r : Reply) : Res := ⟨r.status, r.detail⟩

/-- The reply to a transaction reaches its origin (R457). A busy reply leaves it to the end-to-end timeout (R458). -/
def takeReply (r : Reply) (c : Chip) : Chip :=
  match c.fab.txns.find? (fun t => t.rank == r.rank && t.seq == r.seq) with
  | none => c
  | some t =>
    if r.busy then c
    else match t.for_ with
    | .cmd k s tile =>
      let c := dropTxn t.id c
      match c.findCmd k s with
      | none => c
      | some m =>
        let m := { m with txns := m.txns.filter (fun i => i != t.id), dup := m.dup || r.dup }
        if m.cls = 6 then finish m (replyRes r) c
        else if r.status = sDone then c.putCmd { m with got := m.got ++ [(tile, r.poison || r.status != sDone, r.data)] }
        else if r.status = sPoisoned ∨ r.status = sUncorr then
          let d := parseDesc m.bytes 16 0
          let a := if d.space = 2 then d.addr else (parseDesc m.bytes 64 1).addr
          c.putCmd { m with got := m.got ++ [(tile, r.poison || r.status != sDone, r.data)],
                            notes := m.notes.sawBad (r.status == sUncorr) (a, leAt r.detail 8 1) }
        else failCmd m (replyRes r) c
    | .coll g n =>
      let c := dropTxn t.id c
      if r.status = sDone then c else markColl g n (fun x => { x with fail := some (replyRes r) }) c
    | .watchAdd m w => if r.status = sDone then dropTxn t.id c else watchLost m w (dropTxn t.id c)
    | .parent h o g =>
      let c := dropTxn t.id c
      if r.status = sDone then
        match c.bar (barKey h o) with
        | some b => if b.hold && b.gen == g then barRun barFuel [.complete (barKey h o)] c else c
        | none => c
      else parentLost (barKey h o) c

/-- An unreachable reply reaches the origin: its transaction completes as a lost peer (R448). -/
def unreachTxn (id : Nat) (c : Chip) : Chip :=
  match c.fab.txns.find? (fun t => t.id == id) with
  | some t => failTxn t (peerLostRes t.rank 0) c
  | none => c

/-- Resends allowed (R459): AIH_E2E.RESENDS, limited so that the timeouts together stay within 1 ms. -/
def e2eResends (c : Chip) : Nat :=
  let t := max 1 (c.rget AIH AIH_E2E_CUR_TIMEOUT_US)
  min (c.rget AIH AIH_E2E_CUR_RESENDS) (1000 / t - 1)

/-- Every port in use has reached its replay limit (R445). -/
def allFailed (c : Chip) : Bool :=
  let u := (List.range 9).filter (fun p => c.rget (AIHP p) AIH_PORT_STATUS_USE != 0)
  !u.isEmpty && u.all (fun p => c.rget (AIHP p) AIH_PORT_STATUS_STATE == 5)

/-- No reply within the end-to-end timeout (R459) (log entry 7). -/
def timeoutTxn (id : Nat) (c : Chip) : Chip :=
  match c.fab.txns.find? (fun t => t.id == id) with
  | none => c
  | some t =>
    if t.resends < e2eResends c then
      let r := match rankNode c t.rank with
        | some n => sendPkt reqClass n t.pkt c
        | none => (false, c)
      let t' := { t with resends := t.resends + 1, unreach := !r.1, exhausted := !r.1 && allFailed c }
      let c := r.2.rcount AIH AIH_RESENDS 1
      { c with fab := { c.fab with txns := c.fab.txns.map (fun x => if x.id = id then t' else x) } }
    else if t.exhausted then failTxn t (mkRes sRetryEx []) c
    else if t.unreach then failTxn t (peerLostRes t.rank 0) c
    else failTxn t (mkRes sTimeout []) c

/-! ### The target -/

/-- The sequence state held for an origin. -/
def Chip.origin (c : Chip) (rank : Nat) : Option Origin := c.fab.origins.find? (fun o => o.rank == rank)

/-- The sequence state of an origin replaced or added. -/
def Chip.setOrigin (c : Chip) (o : Origin) : Chip :=
  let l := c.fab.origins.filter (fun x => x.rank != o.rank) ++ [o]
  { c with fab := { c.fab with origins := l } }.rput AIH AIH_SEQ_STATUS_ORIGINS l.length

/-- A place for an origin (R458): the one held, a new one, or one whose origin has sent nothing for 2 ms; none when busy. -/
def placeOrigin (rank node : Nat) (c : Chip) : Option Origin × Chip :=
  match c.origin rank with
  | some o => (some { o with node := node, last := c.time }, c)
  | none =>
    if c.fab.origins.length < 16384 then (some ⟨rank, node, c.time, []⟩, c)
    else
      let r := c.pick (c.fab.origins.filter (fun o => o.last + 2000000 ≤ c.time))
      match r.1 with
      | none => (none, r.2)
      | some v => (some ⟨rank, node, c.time, []⟩, { r.2 with fab := { r.2.fab with origins := r.2.fab.origins.filter (fun o => o.rank != v.rank) } })

/-- The outcome of a transaction remembered with the last 4,096 (R457). -/
def Origin.remember (o : Origin) (seq : Nat) (r : Option Reply) (t : Nat) : Origin :=
  let l := o.seen.filter (fun s => s.seq != seq) ++ [⟨seq, r, t⟩]
  { o with seen := l.drop (l.length - 4096) }

/-- A reply of this module to a transaction. -/
def mkReply (c : Chip) (seq : Nat) (r : Res) (data : List Byte) (poison : Bool) : Reply :=
  ⟨c.rget AIH AIH_SELF_RANK_CUR_RANK, seq, r.status, r.detail, data, poison, false, false⟩

/-- The fabric's part in a transaction that arrives (R457, R458): repeated outcomes, busy, or `act`, which gives the reply or none
while it is pending. -/
def receiveTxn (rank node seq : Nat) (act : Chip → Option Reply × Chip) (c : Chip) : Chip :=
  let p := placeOrigin rank node c
  match p.1 with
  | none => (sendPkt 1 node (.reply { mkReply c seq doneRes [] false with busy := true }) p.2).2
  | some o =>
    match o.seen.find? (fun s => s.seq == seq) with
    | some s =>
      let c := (p.2.setOrigin o).rcount AIH AIH_DUPS 1
      match s.reply with
      | some r => (sendPkt 1 node (.reply { r with dup := true }) c).2
      | none => c
    | none =>
      let r := act (p.2.setOrigin (o.remember seq none c.time))
      match r.1 with
      | some y => (sendPkt 1 node (.reply y) (r.2.setOrigin (o.remember seq (some y) c.time))).2
      | none => r.2

/-- A pending remote operation is answered (R382, R384). -/
def answerTxn (rank seq : Nat) (r : Res) (c : Chip) : Chip :=
  match c.origin rank with
  | some o =>
    let y := mkReply c seq r [] false
    (sendPkt 1 o.node (.reply y) (c.setOrigin (o.remember seq (some y) c.time))).2
  | none => c

/-! ### What the Yoke units send -/

/-- A remote ADD of 1 (R370) (log entry 76). -/
def addFrame (sem : Nat) : YokeFrame :=
  { rank := 0, node := 0, job := 0, txn := 0, op := 1, sem := sem, value := 1, compare := 0, tkind := 0, target := 0, bar := 0, ctx := 0,
    q := 0, seq := 0 }

/-- One thing a Yoke unit sends to another module (R370, R380 to R382). -/
def flushOut (o : YOut) (c : Chip) : Chip :=
  let out := fun (c : Chip) (h : Nat) => c.rcount (YOK h) YOK_REMOTE_OUT 1
  match o with
  | .reply rank txn st dt => answerTxn rank txn ⟨st, dt⟩ c
  | .watchMsg rank m =>
    if m.tkind = 4 ∧ m.wstatus = 0 then
      match startTxn (.watchAdd m (some rank)) (m.target % 2 ^ 20) (.yoke (addFrame (m.compare % 2 ^ 18))) c with
      | (.sent _, c) => out c (bits m.sem 17 1)
      | (_, c) => watchLost m (some rank) c
    else match c.origin rank with
      | some o => (sendPkt 1 o.node (.watchMsg m) (out c (bits m.sem 17 1))).2
      | none => c
  | .remoteAdd rank sem m =>
    match startTxn (.watchAdd m none) rank (.yoke (addFrame sem)) c with
    | (.sent _, c) => out c (bits m.sem 17 1)
    | (_, c) => undelivered m c
  | .enter rank bar h obj gen =>
    match startTxn (.parent h obj gen) rank (.yoke { addFrame 0 with op := 10, value := 0, bar := bar }) c with
    | (.sent _, c) => out c h
    | (_, c) => parentLost (barKey h obj) c

/-- Everything the Yoke units have to send leaves them. -/
def flushYoke (c : Chip) : Chip :=
  let l := c.yoke.outs
  l.foldl (fun c o => flushOut o c) { c with yoke := { c.yoke with outs := [] } }

end Sys2Proof.Machine
end

