-- ==== Sys2Proof/Machine/Dma.lean ====
section
/-! DEFINITION. The DMA movers (R73, R103, R348, R406, R456, R551, R573): COPY, FILL, GATHER, SCATTER and ATOMIC. -/

namespace Sys2Proof.Machine

open Sys2Proof

/-! ### Tiles -/

/-- A DMA mover command (R73): its operands, its scale descriptors and its index. -/
structure DmaOp where
  op : Nat
  src : Desc
  dst : Desc
  ssc : Desc
  dsc : Desc
  idx : Desc
  deriving DecidableEq, Repr

/-- The parameters of a COPY, FILL, GATHER or SCATTER. -/
def dmaOp (m : Cmd) : DmaOp :=
  let b := m.bytes
  match m.op with
  | 1 => ⟨1, parseDesc b 16 0, parseDesc b 64 1, parseDesc b 96 2, parseDesc b 128 3, parseDesc b 96 2⟩
  | 2 => ⟨2, parseDesc b 16 0, parseDesc b 16 0, parseDesc b 16 0, parseDesc b 16 0, parseDesc b 16 0⟩
  | n => ⟨n, parseDesc b 16 0, parseDesc b 96 2, parseDesc b 16 0, parseDesc b 96 2, parseDesc b 64 1⟩

/-- Elements of a DMA tile (R348): whole bytes or whole blocks, at most 4 KiB. -/
def tileElems (d : Desc) : Nat :=
  let g := if d.scaled then d.block else if d.w = 6 then 4 else if d.w = 4 then 2 else 1
  32768 / (d.w * g) * g

/-- Tiles of a row. -/
def tilesPerRow (d : Desc) : Nat := ceilDiv d.d0 (tileElems d)

/-- Tiles of a command. -/
def DmaOp.tiles (o : DmaOp) : Nat := tilesPerRow o.dst * o.dst.d1 * o.dst.d2

/-- A DMA tile: its flattened destination row, first element and element count. -/
structure DTile where
  row : Nat
  e0 : Nat
  n : Nat
  deriving DecidableEq, Repr

/-- Tile t of a destination (R348). -/
def DmaOp.tile (o : DmaOp) (t : Nat) : DTile :=
  let p := tilesPerRow o.dst
  let e0 := t % p * tileElems o.dst
  ⟨t / p, e0, min (tileElems o.dst) (o.dst.d0 - e0)⟩

/-- The (i1, i2) of a flattened row. -/
def Desc.row2 (d : Desc) (r : Nat) : Nat × Nat := (r % d.d1, r / d.d1)

/-- Rows of a descriptor. -/
def Desc.nrows (d : Desc) : Nat := d.d1 * d.d2

/-- Byte offset and byte count of elements [e0, e0 + n) of a flattened row. -/
def Desc.part (d : Desc) (r e0 n : Nat) : Nat × Nat :=
  let rr := d.row2 r
  let lo := d.w * e0 / 8
  (d.rowOff rr.1 rr.2 + lo, ceilDiv (d.w * (e0 + n)) 8 - lo)

/-- What feeds a tile (R573): its source elements, or a row without a source: written as zeros, as poison, or not at all. -/
inductive TileSrc
  | elems (l : List (Nat × Nat × Nat))
  | zero | poisoned | nothing
  deriving DecidableEq, Repr

/-- The index at position p of IDX. -/
def DmaOp.index (o : DmaOp) (c : Chip) (m : Cmd) (p : Nat) : Int := sext 32 (elemCode c m o.idx p 0 0)

/-- An index lies outside its table (R573). -/
def outOf (n : Nat) (i : Int) : Bool := decide (i < 0) || decide (i ≥ (n : Int))

/-- The IDX elements that a tile reads: that of its row, or all of them for a SCATTER. -/
def DmaOp.idxUsed (o : DmaOp) (t : DTile) : List Nat :=
  match o.op with
  | 3 => [t.row]
  | 4 => List.range o.idx.d0
  | _ => []

/-- The parts of IDX that a tile reads. -/
def DmaOp.idxParts (o : DmaOp) (t : DTile) : List (Desc × Nat × Nat) :=
  (o.idxUsed t).map (fun p => (o.idx, 4 * p, 4))

/-- Elements [e0, e0 + n) of a source row. -/
def DmaOp.rowElems (o : DmaOp) (t : DTile) (r : Nat) : TileSrc :=
  let rr := o.src.row2 r
  .elems ((List.range t.n).map (fun j => (t.e0 + j, rr.1, rr.2)))

/-- The source of a tile (R73, R573). -/
def DmaOp.feed (o : DmaOp) (c : Chip) (m : Cmd) (t : DTile) : TileSrc :=
  match o.op with
  | 1 =>
    .elems ((List.range t.n).map (fun j =>
      let f := t.row * o.dst.d0 + t.e0 + j
      (f % o.src.d0, f / o.src.d0 % o.src.d1, f / (o.src.d0 * o.src.d1))))
  | 3 =>
    if (elemBad c m o.idx t.row 0 0).isSome then .poisoned
    else
      let i := o.index c m t.row
      if outOf o.src.nrows i then .zero else o.rowElems t i.toNat
  | 4 =>
    match (List.range o.idx.d0).reverse.find? (fun p =>
        (elemBad c m o.idx p 0 0).isNone && decide (o.index c m p = (t.row : Int))) with
    | some p => o.rowElems t p
    | none => .nothing
  | _ => .zero

/-- Some index that a tile reads lies outside its table. -/
def DmaOp.rangeErr (o : DmaOp) (c : Chip) (m : Cmd) (t : DTile) : Bool :=
  let n := if o.op = 3 then o.src.nrows else o.dst.nrows
  (o.idxUsed t).any (fun p => (elemBad c m o.idx p 0 0).isNone && outOf n (o.index c m p))

/-- The parts of the source, and of its scales, that elements read. -/
def DmaOp.srcParts (o : DmaOp) (l : List (Nat × Nat × Nat)) : List (Desc × Nat × Nat) :=
  l.flatMap (fun i =>
    let s := elemSpan o.src i.1
    let e := (o.src, o.src.rowOff i.2.1 i.2.2 + s.1, s.2.2)
    if o.src.scaled then
      let z := elemSpan o.ssc (i.1 / o.src.block)
      [e, (o.ssc, o.ssc.rowOff i.2.1 i.2.2 + z.1, z.2.2)]
    else [e])

/-- The parts of the destination, and of its scales, that a tile writes. -/
def DmaOp.dstParts (o : DmaOp) (t : DTile) : List (Desc × Nat × Nat) :=
  let d := o.dst.part t.row t.e0 t.n
  (o.dst, d.1, d.2) ::
    (if o.dst.scaled then
      let s := o.dsc.part t.row (t.e0 / o.dst.block) (ceilDiv t.n o.dst.block)
      [(o.dsc, s.1, s.2)]
    else [])

/-- Page needs of parts of local operands. -/
def localNeeds (wr : Bool) (l : List (Desc × Nat × Nat)) : List (Nat × Nat × Nat × Bool) :=
  (l.filter (fun x => x.1.space == 0)).map (fun x => (x.1.addr % 2 ^ 57 + x.2.1, x.2.2, x.1.idx, wr))

/-! ### Remote operands -/

/-- Byte ranges with neighbours that touch or overlap joined. -/
def joinRanges : List (Nat × Nat) → List (Nat × Nat)
  | [] => []
  | r :: rest =>
    match joinRanges rest with
    | [] => [r]
    | q :: qs => if r.1 ≤ q.1 && q.1 ≤ r.1 + r.2 then (r.1, max (r.1 + r.2) (q.1 + q.2) - r.1) :: qs else r :: q :: qs

/-- The byte ranges of a REMOTE source that a tile reads, as offsets from ADDR (log entry 54). -/
def DmaOp.ranges (o : DmaOp) (l : List (Nat × Nat × Nat)) : List (Nat × Nat) :=
  joinRanges ((o.srcParts l).filterMap (fun x => if x.1.idx = o.src.idx then some (x.2.1, x.2.2) else none))

/-- The byte at offset off among ranges whose bytes are joined in data. -/
def rangeByte (data : List Byte) : List (Nat × Nat) → Nat → Nat → Byte
  | [], _, _ => 0
  | r :: rs, base, off => if r.1 ≤ off && off < r.1 + r.2 then nth data (base + (off - r.1)) 0 else rangeByte data rs (base + r.2) off

/-- The window offset of a REMOTE descriptor (R70). -/
def Desc.winOff (d : Desc) : Nat := bits d.addr 0 44

/-- The rank of a REMOTE descriptor (R70). -/
def Desc.rank (d : Desc) : Nat := bits d.addr 44 20

/-- An access to a window: its kind, ranges, data and poison; the origin's fields are stamped when it is sent (log entry 54). -/
def winAccess (d : Desc) (kind : Nat) (rs : List (Nat × Nat)) (data : List Byte) (lastBits : Nat) (poison : Bool) : RemoteAccess :=
  { rank := 0, node := 0, job := 0, seq := 0, kind := kind, win := d.win, ranges := rs.map (fun r => (d.winOff + r.1, r.2)), data := data,
    lastBits := lastBits, poison := poison, aop := 0, fmt := d.fmt, operand := 0, compare := 0 }

/-- The transactions of a command are given up. -/
def dropTxns (m : Cmd) (c : Chip) : Chip :=
  { c with fab := { c.fab with txns := c.fab.txns.filter (fun t => match t.for_ with
    | .cmd k s _ => !(decide (k = m.car) && s == m.seq)
    | _ => true) } }

/-- A transaction of a mover's command (R456): sent and recorded, refused for want of room, or lost (log entry 54). -/
def sendAccess (tile rank : Nat) (a : RemoteAccess) (m : Cmd) (c : Chip) (next : Cmd → Chip → UOut) : UOut :=
  match startTxn (.cmd m.car m.seq tile) rank (.access a) c with
  | (.sent id, c) => next { m with txns := m.txns ++ [id] } (c.rcount (DMA m.half m.inst) DMA_REMOTE_TX 1)
  | (.full, c) => .wait m c
  | (.noRank, c) => .stop (peerLostRes rank 0) { m with txns := [] } (dropTxns m c)
  | (.lost, c) => .stop (peerLostRes rank 0) { m with txns := [] } (dropTxns m (c.rput (DMA m.half m.inst) DMA_ERR_REMOTE_FAIL 1))

/-! ### One tile -/

/-- A source element as read: its code, value, the CAUSE it brings as a NaN, and whether it lies in bad data. -/
structure SrcEl where
  code : Nat
  v : Val
  cause : Nat
  bad : Bool
  deriving DecidableEq, Repr

/-- The bytes of a source operand: brought by a transaction, or local. -/
def DmaOp.bytesAt (o : DmaOp) (c : Chip) (m : Cmd) (rs : List (Nat × Nat)) (data : List Byte) (off n : Nat) : List Byte :=
  if o.src.space = 2 then (List.range n).map (fun i => rangeByte data rs 0 (off + i)) else opBytes c m o.src off n

/-- Strict reading of E2M1 into S4 (R107). -/
def DmaOp.strict (o : DmaOp) (c : Chip) (m : Cmd) : Bool := o.src.strict || cfgGet c m MOD MOD_FMT_CTL_CUR_FORCE_STRICT == 1

/-- A source element (R101, R107). -/
def DmaOp.read (o : DmaOp) (c : Chip) (m : Cmd) (rs : List (Nat × Nat)) (data : List Byte) (poison : Bool) (i : Nat × Nat × Nat) : SrcEl :=
  let s := elemSpan o.src i.1
  let code := bits (leNat (o.bytesAt c m rs data (o.src.rowOff i.2.1 i.2.2 + s.1) s.2.2)) s.2.1 o.src.w
  let v0 := readElem o.src.f (o.strict c m) o.dst.f code
  let v := if o.src.scaled then scaleVal (fmtOf o.src.sfmt) (scaleCode c m o.src o.ssc i.1 i.2.1 i.2.2) v0 else v0
  let minus0 := vIsNan v0 && !vIsNan (decodeFmt o.src.f code)
  ⟨code, v, if minus0 then 3 else 2, poison || (o.srcParts [i]).any (fun x => x.1.space != 2 && (opBad c m x.1 x.2.1 x.2.2).isSome)⟩

/-- Source and destination are copied bit by bit (R103). -/
def DmaOp.bitCopy (o : DmaOp) : Bool := o.src.fmt == o.dst.fmt && !o.src.scaled && !o.dst.scaled

/-- The NaN event of a destination element (R113, R114). -/
def dmaEv (c : Chip) (e i1 i2 cause : Nat) : NanEv := ⟨cause, 0x90, i1 % 65536, e / 256 % 65536, i2 % 65536, e % 256, c.time⟩

/-- What a tile writes: element codes with their poison, and the scale codes of its blocks with theirs; and the notes. -/
structure TileOut where
  codes : List (Nat × Bool)
  scales : List (Nat × Bool)
  notes : Notes
  deriving DecidableEq, Repr

/-- The conversion of a tile's elements (R102 to R107, R110). -/
def DmaOp.convert (o : DmaOp) (c : Chip) (t : DTile) (l : List SrcEl) (n0 : Notes) : TileOut :=
  let rr := o.dst.row2 t.row
  if o.bitCopy then ⟨l.map (fun x => (x.code, x.bad)), [], n0⟩
  else if o.dst.scaled then
    let bs := blocksOf o.dst.block (l.length + 1) l
    (List.range bs.length).foldl (fun (acc : TileOut) j =>
      let b := nth bs j []
      let q := quantBlock (fmtOf o.dst.sfmt) o.dst.f (b.map (fun x => x.v))
      let bad := b.any (fun x => x.bad)
      let cause := 5
      { codes := acc.codes ++ q.2.1.map (fun x => (x, bad)), scales := acc.scales ++ [(q.1, bad)],
        notes := if q.2.2 && !bad then acc.notes.addNan (dmaEv c (t.e0 + j * o.dst.block) rr.1 rr.2 cause) else acc.notes }) ⟨[], [], n0⟩
  else
    (List.range l.length).foldl (fun (acc : TileOut) j =>
      let x := nth l j ⟨0, vZero, 2, false⟩
      let cv := encodeVal o.dst.f x.v
      { acc with codes := acc.codes ++ [(cv.code, x.bad)],
                 notes := if x.bad then acc.notes else acc.notes.conv cv (dmaEv c (t.e0 + j) rr.1 rr.2 x.cause) }) ⟨[], [], n0⟩

/-- Element codes stored from element e0 of a row, those derived from bad data poisoned. -/
def storeCodes (d : Desc) (r e0 : Nat) (l : List (Nat × Bool)) (m : Cmd) (c : Chip) : Chip :=
  let rr := d.row2 r
  (List.range l.length).foldl (fun c j =>
    let x := nth l j (0, false)
    let c := elemStore c m d (e0 + j) rr.1 rr.2 x.1
    if x.2 then
      let s := elemSpan d (e0 + j)
      opPoison c m d (d.rowOff rr.1 rr.2 + s.1) s.2.2
    else c) c

/-- The packed bytes of element codes, from bit 0 upward (R70). -/
def packCodes (w : Nat) (l : List Nat) : List Byte :=
  leBytes (ceilDiv (w * l.length) 8) ((List.range l.length).foldl (fun a j => a + 2 ^ (w * j) * nth l j 0) 0)

/-- A whole line written at its home slice by a requester port (R405): it continues a stream of that port, which does not allocate once
it is long enough, or starts one (log entry 43). -/
def streamLine (port a : Nat) (c : Chip) : Chip :=
  let s := c.home a
  let b := SYC s.1 s.2
  if c.rget b SYC_CTL_STREAM_EN = 0 then c
  else
    let k := s.1 * 16 + s.2
    match c.host.streams.find? (fun x => x.1 == k && x.2.1 / 8 == port && x.2.2.1 == a / 4096) with
    | some x =>
      let y := (x.1, x.2.1, a / 4096 + 1, x.2.2.2 + 1)
      let c' : Chip := { c with host := { c.host with streams := c.host.streams.filter (fun z => z.1 != x.1 || z.2.1 != x.2.1) ++ [y] } }
      if x.2.2.2 ≥ max 2 (c.rget b SYC_CTL_STREAM_THRESH) then c'.rcount b SYC_STREAM_LINES 1 else c'
    | none =>
      let mine := c.host.streams.filter (fun x => x.1 == k && x.2.1 / 8 == port)
      let i := match (List.range 8).find? (fun i => !mine.any (fun x => x.2.1 % 8 == i)) with
        | some i => i
        | none => (mine.headD (0, 0, 0, 0)).2.1 % 8
      { c with host := { c.host with streams := c.host.streams.filter (fun z => z.1 != k || z.2.1 != port * 8 + i) ++ [(k, port * 8 + i, a / 4096 + 1, 1)] } }

/-- The whole lines of frame space that a tile's output covers, at their slices' streaming detectors (log entry 43). -/
def streamTile (o : DmaOp) (m : Cmd) (t : DTile) (c : Chip) : Chip :=
  if o.dst.space ≠ 0 then c
  else
    let p := o.dst.part t.row t.e0 t.n
    let lo := (o.dst.addr + p.1 + 255) / 256
    let hi := (o.dst.addr + p.1 + p.2) / 256
    (rangeFrom lo (hi - lo)).foldl (fun c l =>
      match opLoc c m o.dst (l * 256 - o.dst.addr) with
      | .frame a => streamLine (m.half * 16 + m.inst) a c
      | _ => c) c

/-- Counters of a committed tile (R551). -/
def tileCount (o : DmaOp) (m : Cmd) (nsrc : Nat) (t : DTile) (c : Chip) : Chip :=
  let c := streamTile o m t c
  let b := DMA m.half m.inst
  ((c.rcount b DMA_RD_BYTES (ceilDiv (nsrc * o.src.w) 8)).rcount b DMA_WR_BYTES (ceilDiv (t.n * o.dst.w) 8)).rcount b DMA_TILES 1

/-- A tile's output committed: into local memory, or as a transaction (R456). -/
def DmaOp.commit (o : DmaOp) (i : Nat) (t : DTile) (out : TileOut) (nsrc : Nat) (m : Cmd) (c : Chip) : UOut :=
  let m := { m with notes := out.notes }
  let scales := fun (m : Cmd) (c : Chip) => if o.dst.scaled then storeCodes o.dsc t.row (t.e0 / o.dst.block) out.scales m c else c
  if o.dst.space = 2 then
    let p := o.dst.part t.row t.e0 t.n
    let a := winAccess o.dst 0 [p] (packCodes o.dst.w (out.codes.map (fun x => x.1))) ((o.dst.w * t.n + 7) % 8 + 1) (out.codes.any (fun x => x.2))
    sendAccess i o.dst.rank a m c (fun m c => .ok m (tileCount o m nsrc t (scales m c)))
  else .ok m (tileCount o m nsrc t (scales m (storeCodes o.dst t.row t.e0 out.codes m c)))

/-- The first Seedbed word with bad parity that parts meet. -/
def partsBadWord (c : Chip) (m : Cmd) (l : List (Desc × Nat × Nat)) : Option (Nat × Nat) :=
  l.findSome? (fun x => match opBad c m x.1 x.2.1 x.2.2 with
    | some (.parity h o) => some (h, o)
    | _ => none)

/-- The ADDR of the first byte of a tile's output (R81). -/
def DmaOp.outAddr (o : DmaOp) (t : DTile) : Nat := o.dst.addr + (o.dst.part t.row t.e0 t.n).1

/-- A tile whose source elements are known. -/
def DmaOp.move (o : DmaOp) (i : Nat) (t : DTile) (l : List (Nat × Nat × Nat)) (m : Cmd) (c : Chip) : UOut :=
  let parts := (o.srcParts l).filter (fun x => x.1.space != 2)
  match needBad m (localNeeds false parts ++ localNeeds true (o.dstParts t)) with
  | some p => .stall p c
  | none =>
    match partsBadWord c m parts with
    | some (h, w) => .parity h w (o.outAddr t) c
    | none =>
      let run := fun (data : List Byte) (poison : Bool) =>
        let rs := o.ranges l
        let els := l.map (o.read c m rs data poison)
        let r := takeAll parts m c
        o.commit i t (o.convert r.2 t els r.1.notes) l.length r.1 r.2
      if o.src.space = 2 then
        match m.got.find? (fun g => g.1 == i) with
        | some g =>
          match run g.2.2 g.2.1 with
          | .ok m c => .ok { m with got := m.got.filter (fun g => g.1 != i) } c
          | r => r
        | none =>
          if m.txns.isEmpty then sendAccess i o.src.rank (winAccess o.src 1 (o.ranges l) [] 8 false) m c (fun m c => .wait m c)
          else .wait m c
      else run [] false

/-- A tile of zeros or of a pattern. -/
def DmaOp.fillTile (o : DmaOp) (i : Nat) (t : DTile) (code : Nat) (m : Cmd) (c : Chip) : UOut :=
  match needBad m (localNeeds true (o.dstParts t)) with
  | some p => .stall p c
  | none => o.commit i t ⟨List.replicate t.n (code % 2 ^ o.dst.w, false), [], m.notes⟩ 0 m c

/-- Every unit of a row's part in a tile poisoned (R573). -/
def DmaOp.poisonTile (o : DmaOp) (i : Nat) (t : DTile) (m : Cmd) (c : Chip) : UOut :=
  match needBad m (localNeeds true (o.dstParts t)) with
  | some p => .stall p c
  | none => o.commit i t ⟨List.replicate t.n (0, true), [], m.notes⟩ 0 m c

/-- One DMA tile (R348); the unit after the last waits for the transactions outstanding (R44). -/
def DmaOp.unit (o : DmaOp) (i : Nat) (m : Cmd) (c : Chip) : UOut :=
  if i ≥ o.tiles then (if m.txns.isEmpty then .ok m c else .wait m c)
  else
    let t := o.tile i
    if o.op = 2 then o.fillTile i t (m.par 48 8) m c
    else
      let ip := o.idxParts t
      match needBad m (localNeeds false ip) with
      | some p => .stall p c
      | none =>
        match partsBadWord c m ip with
        | some (h, w) => .parity h w (o.outAddr t) c
        | none =>
          let r := takeAll ip m c
          let c1 := if o.rangeErr c m t then r.2.rput (DMA m.half m.inst) DMA_ERR_INDEX_RANGE 1 else r.2
          match o.feed c m t with
          | .elems l => o.move i t l r.1 c1
          | .zero => o.fillTile i t 0 r.1 c1
          | .poisoned => o.poisonTile i t r.1 c1
          | .nothing => .ok r.1 c1

/-- A mover runs at most `limit` units of a command. -/
def dmaRun (limit : Nat) (m : Cmd) (c : Chip) : Chip :=
  let o := dmaOp m
  let b := DMA m.half m.inst
  let c := c.cycles [(b, DMA_CYC_STALL_EXT)]
  runCmd m.engine (o.outAddr (o.tile 0)) (o.tiles + 1) o.unit (fun m c => endRes c m []) limit m c

/-! ### Atomics -/

/-- The outcome of an atomic on one value (R406): what is stored, and for F32 and BF16 the CAUSE of a NaN. AOP: 0 ADD, 1 MIN,
2 MAX, 3 AND, 4 OR, 5 XOR, 6 CMPXCHG, 7 SWAP, 8 and 9 the unsigned MIN and MAX. -/
def atomApply (aop : Nat) (f : Fmt) (w old operand compare : Nat) : Nat × Nat :=
  let o := operand % 2 ^ w
  match f with
  | .f32 | .bf16 =>
    let r := vAdd (decodeFmt f old) (decodeFmt f o)
    ((encodeVal f r).code, if vIsNan r then (if vIsNan (decodeFmt f old) || vIsNan (decodeFmt f o) then 2 else 1) else 0)
  | _ =>
    (match aop with
     | 0 => (old + o) % 2 ^ w
     | 1 => if sext w o < sext w old then o else old
     | 2 => if sext w o > sext w old then o else old
     | 3 => old &&& o
     | 4 => old ||| o
     | 5 => old ^^^ o
     | 6 => if old = compare % 2 ^ w then o else old
     | 7 => o
     | 8 => min o old
     | _ => max o old, 0)

/-- An atomic at a frame-space address (R406, R407): every host copy is recalled first; poison leaves the sector unchanged. -/
def atomAt (a aop : Nat) (f : Fmt) (w operand compare : Nat) (c : Chip) : Chip × Nat × Nat × Option Nat :=
  let s := c.home a
  let c := (c.recall (a / 64)).rcount (SYC s.1 s.2) SYC_ATOMICS 1
  let old := c.rdLe a (w / 8)
  if c.memBad.contains (a / 64) then (memUncorr a c, old, 0, some sUncorr)
  else if c.poisoned a then (c, old, 0, some sPoisoned)
  else
    let r := atomApply aop f w old operand compare
    (c.wrMem a (leBytes (w / 8) r.1), old, r.2, none)

/-- Element e of an ATOMIC (R73) (log entry 64). -/
def atomUnit (e : Nat) (m : Cmd) (c : Chip) : UOut :=
  let t := parseDesc m.bytes 16 0
  let s := parseDesc m.bytes 96 1
  if e ≥ t.count then (if m.txns.isEmpty then .ok m c else .wait m c)
  else
    let ix := fun (d : Desc) => (e % d.d0, e / d.d0 % d.d1, e / (d.d0 * d.d1))
    let off := t.rowOff (ix t).2.1 (ix t).2.2 + t.w / 8 * (ix t).1
    let sp := if t.count = 1 then [] else [(s, s.rowOff (ix s).2.1 (ix s).2.2 + t.w / 8 * (ix s).1, t.w / 8)]
    match partsBadWord c m sp with
    | some (h, w) => .parity h w (t.addr + off) c
    | none =>
      let bad := (firstBad c m sp).isSome
      let operand := if t.count = 1 then m.par 56 8 else elemCode c m s (ix s).1 (ix s).2.1 (ix s).2.2
      let r := takeAll sp m c
      let m := r.1
      let c := r.2
      let b := DMA m.half m.inst
      if t.space = 2 then
          let a := { winAccess t 2 [(off, t.w / 8)] [] 8 bad with aop := m.par 48 1, operand := operand, compare := m.par 64 8 }
          sendAccess e t.rank a m c (fun m c => .ok m (c.rcount b DMA_TILES 1))
      else
        match opLoc c m t off with
        | .frame a =>
          if bad then .ok m (opPoison c m t off (t.w / 8))
          else
            let x := atomAt a (m.par 48 1) t.f t.w operand (m.par 64 8) c
            let m := { m with got := if t.count = 1 then [(0, false, leBytes 8 x.2.1)] else [] }
            let m := match x.2.2.2 with
              | some st => { m with notes := m.notes.sawBad (st == sUncorr) ((t.addr + off) / 64 * 64, c.srcOf a) }
              | none => if x.2.2.1 = 0 then m else { m with notes := m.notes.addNan (dmaEv c (ix t).1 (ix t).2.1 (ix t).2.2 x.2.2.1) }
            .ok m ((x.1.rcount b DMA_WR_BYTES (t.w / 8)).rcount b DMA_RD_BYTES (if t.count = 1 then 0 else t.w / 8))
        | _ => .ok m c

/-- An ATOMIC runs at most `limit` units. RETURN brings the prior value back in the detail (R81). -/
def atomRun (limit : Nat) (m : Cmd) (c : Chip) : Chip :=
  let t := parseDesc m.bytes 16 0
  runCmd m.engine t.addr (t.count + 1) atomUnit
    (fun m c => endRes c m (if bitAt (m.par 49 1) 0 then [(0, 8, leAt (nth m.got 0 (0, false, [])).2.2 0 8)] else [])) limit m c

/-! ### The rows -/

/-- A COPY, FILL, GATHER or SCATTER that its mover runs to its end or until it waits. -/
def dmaStep (op q seq : Nat) (c : Chip) : Chip :=
  match running q seq 4 op c with
  | some m => dmaRun (runFuel ((dmaOp m).tiles + 1)) m c
  | none => c

/-- DMA_COPY (R103). -/
def dmaCopyStep (q seq : Nat) (c : Chip) : Chip := dmaStep 1 q seq c
/-- DMA_FILL (R103). -/
def dmaFillStep (q seq : Nat) (c : Chip) : Chip := dmaStep 2 q seq c
/-- DMA_GATHER (R573). -/
def dmaGatherStep (q seq : Nat) (c : Chip) : Chip := dmaStep 3 q seq c
/-- DMA_SCATTER (R573). -/
def dmaScatterStep (q seq : Nat) (c : Chip) : Chip := dmaStep 4 q seq c
/-- DMA_ATOMIC (R406). -/
def dmaAtomicStep (q seq : Nat) (c : Chip) : Chip :=
  match running q seq 4 5 c with
  | some m => atomRun (runFuel ((parseDesc m.bytes 16 0).count + 1)) m c
  | none => c

end Sys2Proof.Machine
end

