-- ==== Sys2Proof/Machine/Furrow.lean ====
section
/-! DEFINITION. The Furrow (R118 to R145) and wide precision from narrow passes (R149 to R166): GEMM and GEMM_SPLIT. -/

namespace Sys2Proof.Machine

open Sys2Proof

/-! ### The operation's parts -/

/-- The operand class of a format (R121): terms per cycle, and whether it is an integer class. -/
def furClass (fmt : Nat) (scaled : Bool) : Option (Nat × Bool) :=
  match fmtOf fmt with
  | .e2m1 | .s4 => some (32, false)
  | .int4 => some (32, !scaled)
  | .e5m2 | .e4m3 | .e3m2 | .e2m3 => some (16, false)
  | .int8 => some (16, !scaled)
  | .bf16 | .f16 => some (8, false)
  | _ => none

/-- A GEMM or GEMM_SPLIT command's parameters (R73). -/
structure FurOp where
  a : Desc
  b : Desc
  cc : Desc
  asc : Desc
  bsc : Desc
  accum : Bool
  tandemF : Nat
  level : Nat
  epi : Bool
  alpha : Val
  alphaBits : Nat
  deriving DecidableEq, Repr

/-- The parameters of a GEMM or GEMM_SPLIT (R73). ALPHA of +0 is read as 1.0 (R127). -/
def furOp (m : Cmd) : FurOp :=
  let al := m.par 196 4
  { a := parseDesc m.bytes 16 0, b := parseDesc m.bytes 64 1, cc := parseDesc m.bytes 96 2, asc := parseDesc m.bytes 128 3,
    bsc := parseDesc m.bytes 160 4, accum := bitAt (m.par 192 1) 0, tandemF := bits (m.par 192 1) 1 2, level := m.par 193 1,
    epi := m.par 194 2 == 3, alpha := if al = 0 then vInt 1 else decodeFmt .f32 al, alphaBits := al }

/-- The split layout holds (R137). -/
def FurOp.split (f : FurOp) : Bool := f.tandemF != 1

/-- Columns of a tile as this model steps through them: both arrays' in the split layout. -/
def FurOp.tileW (f : FurOp) : Nat := if f.split then 1024 else 512

/-- Rows of tiles, and tiles (R126). -/
def FurOp.tilesM (f : FurOp) : Nat := ceilDiv f.cc.d1 128
/-- Tiles of the operation. -/
def FurOp.tiles (f : FurOp) : Nat := f.tilesM * ceilDiv f.cc.d0 f.tileW

/-- The operand class in force. -/
def FurOp.cls (f : FurOp) : Nat × Bool := (furClass f.a.fmt f.a.scaled).getD (8, false)

/-- A descriptor that takes bit 32 of ADDR as 0 (R138). -/
def Desc.strip (d : Desc) : Desc := { d with addr := setBits d.addr 32 1 0 }

/-- Half and local row of output column n in the split layout (R138) (log entry 64). -/
def splitCol (n : Nat) : Nat × Nat := (n / 512 % 2, 512 * (n / 1024) + n % 512)

/-- The command as the half that holds A sees it: East counts as the running half in the split layout (R138). -/
def FurOp.ma (f : FurOp) (m : Cmd) : Cmd := if f.split then { m with half := 0 } else m

/-- Where row n of B lies: the command as its half sees it, the descriptors, and the row. -/
def FurOp.bAt (f : FurOp) (m : Cmd) (d : Desc) (n : Nat) : Cmd × Desc × Nat :=
  if f.split then ({ m with half := (splitCol n).1 }, d.strip, (splitCol n).2) else (m, d, n)

/-- Rows of a tile. -/
def FurOp.tileRows (f : FurOp) (t : Nat) : List Nat :=
  (rangeFrom (128 * (t % f.tilesM)) 128).filter (fun r => r < f.cc.d1)

/-- Columns of a tile in the order the drain emits a row: 128 values a cycle from each array, East first (R127, R145). -/
def FurOp.tileCols (f : FurOp) (t : Nat) : List Nat :=
  let j := t / f.tilesM
  let l := if f.split then
      (List.range 4).flatMap (fun b => rangeFrom (1024 * j + 128 * b) 128 ++ rangeFrom (1024 * j + 512 + 128 * b) 128)
    else rangeFrom (512 * j) 512
  l.filter (fun n => n < f.cc.d0)

/-- The ADDR of element (row, col) of C. -/
def FurOp.cAddr (f : FurOp) (row col : Nat) : Nat :=
  let n := if f.split then (splitCol col).2 else col
  (if f.split then f.cc.strip else f.cc).addr + row * f.cc.s1 + n * f.cc.w / 8

/-- The parts of A that rows read, with the command that reads them. -/
def FurOp.aParts (f : FurOp) (m : Cmd) (r : Nat) : List (Cmd × Desc × Nat × Nat) :=
  (f.ma m, f.a, r * f.a.s1, f.a.rowBytes) :: (if f.a.scaled then [(f.ma m, f.asc, r * f.asc.s1, f.asc.rowBytes)] else [])

/-- The parts of B that a column reads. -/
def FurOp.bParts (f : FurOp) (m : Cmd) (n : Nat) : List (Cmd × Desc × Nat × Nat) :=
  let x := f.bAt m f.b n
  let y := f.bAt m f.bsc n
  (x.1, x.2.1, x.2.2 * f.b.s1, f.b.rowBytes) :: (if f.b.scaled then [(y.1, y.2.1, y.2.2 * f.bsc.s1, f.bsc.rowBytes)] else [])

/-- The part of C that an element's prior value reads. -/
def FurOp.cPart (f : FurOp) (m : Cmd) (r n : Nat) : Cmd × Desc × Nat × Nat :=
  let x := f.bAt m f.cc n
  let s := elemSpan x.2.1 x.2.2
  (x.1, x.2.1, r * f.cc.s1 + s.1, s.2.2)

/-- What the parts of a tile meet first. -/
def partsBad (c : Chip) (l : List (Cmd × Desc × Nat × Nat)) : Option Bad :=
  l.findSome? (fun x => opBad c x.1 x.2.1 x.2.2.1 x.2.2.2)

/-- The first word with bad parity among parts: half and offset. -/
def partsParity (c : Chip) (l : List (Cmd × Desc × Nat × Nat)) : Option (Nat × Nat) :=
  l.findSome? (fun x => match opBad c x.1 x.2.1 x.2.2.1 x.2.2.2 with
    | some (.parity h o) => some (h, o)
    | _ => none)

/-- The poison that parts meet is noted. -/
def partsTake (l : List (Cmd × Desc × Nat × Nat)) (m : Cmd) (c : Chip) : Cmd × Chip :=
  l.foldl (fun r x => match opBad r.2 x.1 x.2.1 x.2.2.1 x.2.2.2 with
    | some b => takeBad b r.1 r.2
    | none => r) (m, c)

/-! ### Accumulation -/

/-- Terms of one step added exactly (R123): a list of exact products. -/
def exactSum : List Val → Val
  | [] => vZero
  | x :: xs => xs.foldl vAdd x

/-- A running accumulator: its value, and CAUSE once it is NaN. -/
abbrev FAcc := Val × Nat

/-- One step of a floating class (R123). -/
def accStep (acc : FAcc) (ts : List (Val × Val)) : FAcc :=
  let v := vRound .f32 (vAdd acc.1 (exactSum (ts.map (fun p => vMul p.1 p.2))))
  if vIsNan acc.1 then acc
  else if vIsNan v then (.nan, if ts.any (fun p => vIsNan p.1 || vIsNan p.2) then 2 else 1)
  else (v, 0)

/-- The steps of a K run, T terms each, the last one filled with zeros (R126). -/
def accRun (t : Nat) : Nat → FAcc → List (Val × Val) → FAcc
  | 0, acc, _ => acc
  | n + 1, acc, l =>
    if l.isEmpty then acc
    else
      let s := l.take t
      accRun t n (accStep acc (s ++ List.replicate (t - s.length) (vZero, vZero))) (l.drop t)

/-- The accumulator of an output element (R123, R124). -/
def dotAcc (int : Bool) (t : Nat) (l : List (Val × Val)) : FAcc :=
  if int then (vInt (l.foldl (fun s p => s + vToInt p.1 * vToInt p.2) 0), 0)
  else accRun t l.length (vZero, 0) l

/-- Row r of A as exact values with their scales (R101). -/
def FurOp.aRow (f : FurOp) (c : Chip) (m : Cmd) (r : Nat) : List Val :=
  (List.range f.a.d0).map (fun k => elemVal c (f.ma m) f.a f.asc k r 0)

/-- Row n of B. -/
def FurOp.bRow (f : FurOp) (c : Chip) (m : Cmd) (n : Nat) : List Val :=
  let x := f.bAt m f.b n
  let y := f.bAt m f.bsc n
  (List.range f.b.d0).map (fun k => elemVal c x.1 x.2.1 y.2.1 k x.2.2 0)

/-! ### GEMM_SPLIT -/

/-- The largest magnitude's exponent, plus 1 (R152); 0 for a row of zeros. -/
def rowExp (l : List Val) : Int :=
  let mu := l.foldl (fun mx v => match v with
    | .fin _ m e => if m = 0 then mx else max mx (some (log2Rat (m * pow2 e) (pow2 (-e)))) 
    | _ => mx) (none : Option Int)
  match mu with
  | some e => e + 1
  | none => 0

/-- A row holds a NaN or an infinity (R153). -/
def rowSpecial (l : List Val) : Bool := l.any (fun v => match v with
  | .fin _ _ _ => false
  | _ => true)

/-- Slice p of a value at level L under exponent E (R154, R163). -/
def sliceOf (lv : Nat) (e : Int) (p : Nat) : Val → Int
  | .fin n m ex =>
    let d0 := m * pow2 (ex + 7 * lv - e) / pow2 (-(ex + 7 * lv - e))
    let d := min d0 (2 ^ (7 * lv) - 1)
    let s : Int := (d / 2 ^ (7 * (lv - p)) % 128 : Nat)
    if n then -s else s
  | _ => 0

/-- The passes of a level (R155). -/
def passes (lv : Nat) : List (Nat × Nat) :=
  (rangeFrom 2 lv).flatMap (fun s => (rangeFrom 1 (s - 1)).map (fun p => (p, s - p)))

/-- R of R156 for one element. -/
def recombine (lv : Nat) (ea eb : Int) (l : List (Val × Val)) : Int :=
  (passes lv).foldl (fun r pq =>
    r + (l.foldl (fun s x => s + sliceOf lv ea pq.1 x.1 * sliceOf lv eb pq.2 x.2) 0) * (2 ^ (7 * (lv + 1 - pq.1 - pq.2)) : Nat)) 0

/-- The pieces of an F32 element (R157): special values as 0. -/
def pieces (v : Val) : Val × Val :=
  match v with
  | .fin n _ _ =>
    let hi := match vRound .bf16 v with
      | .inf _ => (if n then vNeg (decodeFmt .bf16 0x7F7F) else decodeFmt .bf16 0x7F7F)
      | w => w
    (hi, vRound .bf16 (vSub v hi))
  | _ => (vZero, vZero)

/-- The level-3 accumulator: the three passes of each chunk of 4,096, hi·lo, lo·hi and hi·hi (R157). -/
def dot3 : Nat → FAcc → List (Val × Val) → FAcc
  | 0, acc, _ => acc
  | n + 1, acc, l =>
    if l.isEmpty then acc
    else
      let ch := (l.take 4096).map (fun x => (pieces x.1, pieces x.2))
      let run := fun (a : FAcc) (s : List (Val × Val)) => accRun 8 s.length a s
      let a := run acc (ch.map (fun x => (x.1.1, x.2.2)))
      let a := run a (ch.map (fun x => (x.1.2, x.2.1)))
      dot3 n (run a (ch.map (fun x => (x.1.1, x.2.1)))) (l.drop 4096)

/-- The product of a row and a column of which one holds a special value (R153): the IEEE 754 value of the exact sum. -/
def specialDot (l : List (Val × Val)) : FAcc :=
  let v := exactSum (l.map (fun p => vMul p.1 p.2))
  match v with
  | .nan => (.nan, if l.any (fun p => vIsNan p.1 || vIsNan p.2) then 2 else 1)
  | w => (w, 0)

/-- A row holds a non-zero finite element below the range check's bound (R158). -/
def rowFlag (lv : Nat) (l : List Val) : Bool :=
  let e := rowExp l
  let b : Int := if lv = 3 then -118 else e - (7 * (lv : Int) - 23)
  l.any (fun v => match v with
    | .fin _ m ex => m != 0 && decide (log2Rat (m * pow2 ex) (pow2 (-ex)) < b)
    | _ => false)

/-- The range check of the scan (R158): NOTE 2 when a row is flagged. -/
def rangeNote (f : FurOp) (c : Chip) (m : Cmd) : Option (Nat × Nat × Nat × Nat) :=
  let fa := (List.range f.cc.d1).filter (fun r => rowFlag f.level (f.aRow c m r))
  let fb := (List.range f.cc.d0).filter (fun n => rowFlag f.level (f.bRow c m n))
  if fa.isEmpty && fb.isEmpty then none else some (2, fa.length, fa.headD 0xFFFFFFFF, fb.length)

/-! ### One element -/

/-- The exact product of an output element before ALPHA, with the STAGE and CAUSE of a NaN (R123, R124, R145, R153 to R157,
R166). -/
def FurOp.product (f : FurOp) (isSplit : Bool) (ar br : List Val) : Val × Nat × Nat :=
  let l := ar.zip br
  if isSplit then
    if rowSpecial ar || rowSpecial br then
      let a := specialDot l
      (a.1, 0x81, a.2)
    else if f.level = 3 then
      let a := dot3 l.length (vZero, 0) l
      (a.1, 0x80, a.2)
    else
      let ea := rowExp ar
      let eb := rowExp br
      let r := recombine f.level ea eb l
      (.fin (decide (r < 0)) r.natAbs (ea + eb - 7 * (f.level + 1)), 0x81, 0)
  else
    let a := dotAcc f.cls.2 f.cls.1 l
    (a.1, 0x80, a.2)

/-- The drain's v for an element (R127): exact, with the STAGE and CAUSE of a NaN. -/
def FurOp.drain (f : FurOp) (p : Val × Nat × Nat) (prior : Option Val) : Val × Nat × Nat :=
  let v := vMul f.alpha p.1
  let v := match prior with
    | some q => vAdd v q
    | none => v
  if vIsNan p.1 then (.nan, p.2.1, p.2.2)
  else if vIsNan v then (.nan, 0x81, if vIsNan f.alpha || (prior.map vIsNan).getD false then 2 else 1)
  else (v, 0, 0)

/-- The NaN event of an output element (R114). -/
def FurOp.ev (c : Chip) (m : Cmd) (row col stage cause : Nat) : NanEv :=
  let w := if m.tandem then 1024 else 512
  ⟨cause, stage, row / 128 % 65536, col / w % 65536, row % 128, col % w, c.time⟩

/-- One element of C written by the drain (R127, R129). -/
def FurOp.putC (f : FurOp) (isSplit : Bool) (c0 : Chip) (ar br : List Val) (poisoned : Bool) (row col : Nat) (r : Cmd × Chip) : Cmd × Chip :=
  let m := r.1
  let x := f.bAt m f.cc col
  let prior := if f.accum then some (elemVal c0 x.1 x.2.1 x.2.1 x.2.2 row 0) else none
  let d := f.drain (f.product isSplit ar br) prior
  let cv := encodeVal f.cc.f d.1
  let c := elemStore r.2 x.1 x.2.1 x.2.2 row 0 cv.code
  let pb := poisoned || (f.accum && (partsBad c0 [f.cPart m row col]).isSome)
  if pb then
    let p := f.cPart m row col
    (m, opPoison c p.1 p.2.1 p.2.2.1 p.2.2.2)
  else ({ m with notes := m.notes.conv cv (FurOp.ev c m row col d.2.1 d.2.2) }, c)

/-! ### Epilogues -/

/-- The chain's destinations with bit 32 taken as 0 in the split layout (R138, R213). -/
def FurOp.epiChain (f : FurOp) (m : Cmd) : ChainBlk :=
  let k := epiOf m f.cls.2
  let s := fun (w : Bool) (d : Desc) => if f.split && w && d.space == 1 then d.strip else d
  { k with out := s true k.out, aux0 := s (k.auxStoreScale 1) k.aux0, aux1 := s (k.stores true || k.auxStoreScale 2) k.aux1 }

/-- The vectors of a tile row: half, x of its first column, and x in the split layout (R140, R213). -/
def FurOp.vecs (f : FurOp) (t : Nat) : List (Nat × Nat × Nat) :=
  let j := t / f.tilesM
  let l := if f.split then [(0, 4 * j, 2 * j), (1, 4 * j + 2, 2 * j), (0, 4 * j + 1, 2 * j + 1), (1, 4 * j + 3, 2 * j + 1)]
    else [(0, 2 * j, 2 * j), (0, 2 * j + 1, 2 * j + 1)]
  l.filter (fun v => 256 * v.2.1 < f.cc.d0)

/-- The step of a drain vector. -/
def FurOp.stepAt (f : FurOp) (row : Nat) (v : Nat × Nat × Nat) : StepAt :=
  ⟨v.2.1, row, 0, min 256 (f.cc.d0 - 256 * v.2.1), true, true, v.2.2⟩

/-- The drain's lane for an output element (R140): F32 of ALPHA × acc, or the saturated integer. -/
def FurOp.lane (f : FurOp) (isSplit : Bool) (ar br : List Val) (poisoned : Bool) : Lane :=
  let p := f.product isSplit ar br
  if f.cls.2 && !isSplit then { v := vInt (satInt32 (vToInt p.1)), poison := poisoned }
  else
    let d := f.drain p none
    ⟨vRound .f32 d.1, d.2.1, d.2.2, poisoned⟩

/-- The pages that the epilogue of a tile needs. -/
def FurOp.epiNeeds (f : FurOp) (m : Cmd) (t : Nat) : List (Nat × Nat × Nat × Bool) :=
  let k := f.epiChain m
  (f.tileRows t).flatMap (fun r => (f.vecs t).flatMap (fun v =>
    partNeeds false (stepReads k (f.stepAt r v) k.numbered) ++ partNeeds true (stepWrites k (f.stepAt r v) k.numbered)))

/-- The Seedbed and frame reads of the epilogue of a tile. -/
def FurOp.epiParts (f : FurOp) (m : Cmd) (t : Nat) : List (Cmd × Desc × Nat × Nat) :=
  let k := f.epiChain m
  (f.tileRows t).flatMap (fun r => (f.vecs t).flatMap (fun v =>
    (stepReads k (f.stepAt r v) k.numbered).map (fun x => (f.ma m, x.1, x.2.1, x.2.2))))

/-- One drain vector runs through the chain of its half's Harrow (R213) (log entry 64). -/
def FurOp.epiVec (f : FurOp) (k : ChainBlk) (lanes : List Lane) (row : Nat) (v : Nat × Nat × Nat) (r : Cmd × Chip) : Cmd × Chip :=
  let m := r.1
  let hs := if m.har.isEmpty then [({} : HState), {}] else m.har
  let ms := if f.split then { m with half := v.1 } else m
  let x := runStages r.2 (f.ma m) ms k lanes (f.stepAt row v) true k.numbered (nth hs v.1 {}) r
  ({ x.2.1 with har := setNth hs v.1 x.1 }, x.2.2)

/-! ### Tiles -/

/-- One tile computed and drained (R126 to R129, R140, R156). -/
def furTile (f : FurOp) (isSplit : Bool) (t : Nat) (m : Cmd) (c : Chip) : UOut :=
  let rows := f.tileRows t
  let cols := f.tileCols t
  let parts := rows.flatMap (fun r => f.aParts m r) ++ cols.flatMap (fun n => f.bParts m n) ++
    (if f.accum then rows.flatMap (fun r => cols.map (fun n => f.cPart m r n)) else []) ++ (if f.epi then f.epiParts m t else [])
  match (if f.epi then needBad m (f.epiNeeds m t) else none) with
  | some p => .stall p c
  | none =>
    match partsParity c parts with
    | some (h, o) =>
      .parity h o (f.cAddr (rows.headD 0) (cols.headD 0))
        (((if f.split then [0, 1] else [m.half]).foldl (fun c h => c.rput (FUR h) FUR_ERR_FEED_PARITY 1) c))
    | none =>
      let r := partsTake parts m c
      let c0 := r.2
      let as := rows.map (fun x => (x, f.aRow c0 m x, (partsBad c0 (f.aParts m x)).isSome))
      let bs := cols.map (fun x => (x, f.bRow c0 m x, (partsBad c0 (f.bParts m x)).isSome))
      let bOf := fun (n : Nat) => (bs.find? (fun b => b.1 == n)).getD (n, [], false)
      let r := as.foldl (fun r a =>
        if f.epi then
          let k := f.epiChain m
          (f.vecs t).foldl (fun r v =>
            let lanes := (List.range 256).map (fun i =>
              if 256 * v.2.1 + i < f.cc.d0 then
                let b := bOf (256 * v.2.1 + i)
                f.lane isSplit a.2.1 b.2.1 (a.2.2 || b.2.2)
              else {})
            f.epiVec k lanes a.1 v r) r
        else bs.foldl (fun r b => f.putC isSplit c0 a.2.1 b.2.1 (a.2.2 || b.2.2) a.1 b.1 r) r) r
      let c := (if f.split then [0, 1] else [m.half]).foldl (fun c h => c.rcount (FUR h) FUR_TILES 1) r.2
      let c := (r.1.claims.filter (fun e => e.cls == 2)).foldl (fun c e => c.rcount (HAR e.half e.idx) HAR_STEPS (rows.length * ((f.vecs t).length / (if f.split then 2 else 1)))) c
      .ok r.1 c

/-- The scan of a GEMM_SPLIT (R151, R152, R158), which reads every row once. -/
def furScan (f : FurOp) (m : Cmd) (c : Chip) : UOut :=
  let parts := (List.range f.cc.d1).flatMap (fun r => f.aParts m r) ++ (List.range f.cc.d0).flatMap (fun n => f.bParts m n)
  match partsParity c parts with
  | some (h, o) =>
    .parity h o (f.cAddr 0 0) ((if f.split then [0, 1] else [m.half]).foldl (fun c h => c.rput (FUR h) FUR_ERR_FEED_PARITY 1) c)
  | none =>
    let r := partsTake parts m c
    .ok { r.1 with notes := { r.1.notes with note := rangeNote f r.2 r.1 } } r.2

/-- Units of a Furrow command: the tiles, behind the scan of a GEMM_SPLIT. -/
def furUnit (f : FurOp) (isSplit : Bool) (i : Nat) (m : Cmd) (c : Chip) : UOut :=
  if isSplit then (if i = 0 then furScan f m c else furTile f true (i - 1) m c) else furTile f false i m c

/-- Units of the command. -/
def FurOp.units (f : FurOp) (isSplit : Bool) : Nat := f.tiles + b2n isSplit

/-- The cycle counters of a Furrow (R148). -/
def furCycles (h : Nat) (c : Chip) : Chip :=
  c.cycles [(FUR h, FUR_CYC_COMPUTE), (FUR h, FUR_CYC_STALL_BANK),
    (FUR h, FUR_CYC_STALL_PLANE), (FUR h, FUR_CYC_STALL_EXT)]

/-- A Furrow command runs at most `limit` of its units. Two shares report the half that retired last, which the module's
timing decides (R139). -/
def furRun (limit : Nat) (m : Cmd) (c : Chip) : Chip :=
  let f := furOp m
  let isSplit := m.op == 2
  let hs := if m.both then (m.claims.filter (fun e => e.cls == 1)).map (fun e => e.half) else [m.half]
  let c := hs.foldl (fun c h => furCycles h c) c
  let d := c.draw
  let m := if m.both && !m.tandem then { m with half := nth hs (d.1 % hs.length) m.half } else m
  let e : Engine := match hs.find? (fun h => (c.engine ⟨1, h, 0⟩).upset) with
    | some h => ⟨1, h, 0⟩
    | none => ⟨1, m.half, 0⟩
  runCmd e (f.cAddr 0 0) (f.units isSplit) (furUnit f isSplit) (fun m c => endRes c m []) limit m d.2

/-- GEMM (R123): the command runs until it ends or stalls. -/
def gemmStep (q seq : Nat) (c : Chip) : Chip :=
  match running q seq 1 1 c with
  | some m => furRun (runFuel ((furOp m).units false)) m c
  | none => c

/-- GEMM_SPLIT (R151). -/
def gemmSplitStep (q seq : Nat) (c : Chip) : Chip :=
  match running q seq 1 2 c with
  | some m => furRun (runFuel ((furOp m).units true)) m c
  | none => c

end Sys2Proof.Machine
end

