-- ==== Sys2Proof/Machine/Attn.lean ====
section
/-! DEFINITION. Attention (R167 to R190). -/

namespace Sys2Proof.Machine

open Sys2Proof

/-- An ATTN command's parameters (R73). -/
structure AttnOp where
  q : Desc
  k : Desc
  v : Desc
  o : Desc
  side : Desc
  mask : Desc
  ks : Desc
  vs : Desc
  qs : Desc
  kind : Nat
  gleaner : Bool
  stats : Bool
  scale : Val
  left : Nat
  right : Nat
  pos0 : Nat
  deriving DecidableEq, Repr

/-- The parameters (R73); a SCORE_SCALE of +0 is 1/√d (R174). -/
def attnOp (m : Cmd) : AttnOp :=
  let b := m.bytes
  let q := parseDesc b 16 0
  let sc := m.par 196 4
  let root := if q.d0 = 64 then 0x3E000000 else if q.d0 = 128 then 0x3DB504F3 else 0x3D800000
  { q := q, k := parseDesc b 64 1, v := parseDesc b 96 2, o := parseDesc b 128 3, side := parseDesc b 160 4,
    mask := parseDesc b 224 5, ks := parseDesc b 256 6, vs := parseDesc b 288 7, qs := parseDesc b 320 8,
    kind := m.par 192 1, gleaner := bitAt (m.par 193 1) 0, stats := bitAt (m.par 193 1) 1,
    scale := decodeFmt .f32 (if sc = 0 then root else sc), left := m.par 200 4, right := m.par 204 4, pos0 := m.par 208 8 }

/-- Head dimension. -/
def AttnOp.d (a : AttnOp) : Nat := a.q.d0
/-- Query rows. -/
def AttnOp.r (a : AttnOp) : Nat := a.q.d1
/-- Query heads. -/
def AttnOp.hq (a : AttnOp) : Nat := a.q.d2
/-- Query heads of a key-value head. -/
def AttnOp.per (a : AttnOp) : Nat := a.q.d2 / a.k.d2
/-- Positions. -/
def AttnOp.n (a : AttnOp) : Nat := a.k.d1
/-- Blocks of positions. -/
def AttnOp.blocks (a : AttnOp) : Nat := ceilDiv a.k.d1 512

/-- 8-bit elements of the decode path. -/
def eightBit (f : Fmt) : Bool := match f with
  | .e5m2 | .e4m3 | .int8 => true
  | _ => false

/-- The command takes the decode path (R186). -/
def AttnOp.decode (a : AttnOp) : Bool :=
  a.gleaner && a.r * a.hq ≤ 16 * a.k.d2 && a.k.space == 0 && a.v.space == 0 && eightBit a.k.f && eightBit a.v.f &&
    a.k.s1 == a.d && a.v.s1 == a.d && !a.q.scaled

/-- The weight format is BF16 (R169). -/
def AttnOp.bfWeights (a : AttnOp) : Bool := match a.v.f with
  | .bf16 | .f16 => true
  | _ => false

/-! ### Masks -/

/-- Entries of the block list of a row's tile for a head (R177): block and CAUSAL_IN, up to the entry that ends it. -/
def AttnOp.list (a : AttnOp) (c : Chip) (m : Cmd) (tile h : Nat) : List (Nat × Bool) :=
  let e := (List.range a.mask.d0).map (fun i => elemCode c m a.mask i tile (if a.mask.d2 = 1 then 0 else h))
  (e.takeWhile (fun x => x != 0xFFFFFFFF)).map (fun x => (x % 2 ^ 31, bitAt x 31))

/-- Block numbers rise strictly and lie below the block count (R177). -/
def AttnOp.listOk (a : AttnOp) (l : List (Nat × Bool)) : Bool :=
  (l.zip (l.drop 1)).all (fun p => p.1.1 < p.2.1) && l.all (fun x => x.1 < a.blocks)

/-- Position j is unmasked for row i of head h (R176 to R178). -/
def AttnOp.open_ (a : AttnOp) (c : Chip) (m : Cmd) (lst : List (Nat × Bool)) (i h j : Nat) : Bool :=
  let p := a.pos0 + i
  match a.kind with
  | 0 => true
  | 1 => decide (j ≤ p)
  | 2 => decide (p ≤ j + a.left) && decide (j ≤ p + a.right)
  | 3 => match lst.find? (fun x => x.1 == j / 512) with
    | some x => !x.2 || decide (j ≤ p)
    | none => false
  | _ => bitAt (elemCode c m a.mask (j / 8) i (if a.mask.d2 = 1 then 0 else h)) (j % 8)

/-- The parts of MASK that a row of a head reads. -/
def AttnOp.maskParts (a : AttnOp) (i h : Nat) : List (Desc × Nat × Nat) :=
  let hh := if a.mask.d2 = 1 then 0 else h
  if a.kind = 3 then [(a.mask, a.mask.rowOff (i / 128) hh, a.mask.rowBytes)]
  else if a.kind = 4 then [(a.mask, a.mask.rowOff i hh, a.mask.rowBytes)] else []

/-- Unmasked positions of a row of a head. -/
def AttnOp.unmasked (a : AttnOp) (c : Chip) (m : Cmd) (i h : Nat) : List Nat :=
  let lst := if a.kind = 3 then a.list c m (i / 128) h else []
  (List.range a.n).filter (fun j => a.open_ c m lst i h j)

/-- The parts of K and V that position j of key-value head g reads. -/
def AttnOp.kvParts (a : AttnOp) (v : Bool) (j g : Nat) : List (Desc × Nat × Nat) :=
  let d := if v then a.v else a.k
  let s := if v then a.vs else a.ks
  (d, d.rowOff j g, d.rowBytes) :: (if d.scaled then [(s, s.rowOff j g, s.rowBytes)] else [])

/-- The parts of Q that a row of a head reads. -/
def AttnOp.qParts (a : AttnOp) (i h : Nat) : List (Desc × Nat × Nat) :=
  (a.q, a.q.rowOff i h, a.q.rowBytes) :: (if a.q.scaled then [(a.qs, a.qs.rowOff i h, a.qs.rowBytes)] else [])

/-! ### Scores, weights and states -/

/-- The dot product's class of Q and K (R168). -/
def AttnOp.qkCls (a : AttnOp) : Nat × Bool := (furClass a.k.fmt a.k.scaled).getD (8, false)

/-- The score of position j (R167, R168), with whether a NaN operand took part (log entry 62). -/
def AttnOp.score (a : AttnOp) (c : Chip) (m : Cmd) (qr : List Val) (j g : Nat) : Val × Bool :=
  let kr := (List.range a.d).map (fun x => elemVal c m a.k a.ks x j g)
  let s := dotAcc a.qkCls.2 a.qkCls.1 (qr.zip kr)
  (vRound .f32 (vMul a.scale s.1), qr.any vIsNan || kr.any vIsNan || vIsNan a.scale)

/-- wfmt (R169). -/
def AttnOp.wfmt (a : AttnOp) (e : Val) : Val :=
  if a.bfWeights then vRound .bf16 e else vRound .e4m3 (vMul (vInt 256) e)

/-- A block state (R167): m, l and o. -/
structure BState where
  m : Val
  l : Val
  o : List Val
  deriving DecidableEq, Repr

/-- The hexp of R167 (R204). -/
def hexp (v : Val) : Val := vRound .f32 (transc 0 v)

/-- The value accumulation of one column (R168): the positions in ascending order, T_P at a time. -/
def valAcc (t : Nat) : Nat → Val → List (Val × Val) → Val
  | 0, acc, _ => acc
  | n + 1, acc, l =>
    if l.isEmpty then acc
    else valAcc t n (vRound .f32 (vAdd acc (exactSum ((l.take t).map (fun p => vMul p.1 p.2))))) (l.drop t)

/-- The state of one block, its positions with their scores in ascending order (R167) (log entry 62). -/
def AttnOp.blockState (a : AttnOp) (c : Chip) (m : Cmd) (g : Nat) (ps : List (Nat × Val)) : BState :=
  let mx := ps.foldl (fun x p => maxVal x p.2) (.inf true)
  let ws := ps.map (fun p => a.wfmt (hexp (vRound .f32 (vSub p.2 mx))))
  let o := (List.range a.d).map (fun col =>
    valAcc (if a.bfWeights then 8 else 16) ps.length vZero (ws.zip (ps.map (fun p => elemVal c m a.v a.vs col p.1 g))))
  ⟨mx, vRound .f32 (exactSum ws), o⟩

/-- merge of R170. -/
def mergeState (x y : BState) : BState :=
  let mx := maxVal x.m y.m
  let al := hexp (vRound .f32 (vSub x.m mx))
  let be := hexp (vRound .f32 (vSub y.m mx))
  let f := fun (u v : Val) => vRound .f32 (vAdd (vRound .f32 (vMul u al)) (vRound .f32 (vMul v be)))
  ⟨mx, f x.l y.l, (x.o.zip y.o).map (fun p => f p.1 p.2)⟩

/-- One level of the merge tree. -/
def mergeLevel : List BState → List BState
  | x :: y :: l => mergeState x y :: mergeLevel l
  | l => l

/-- merge_tree (R170) (log entry 62). -/
def mergeTree : Nat → List BState → BState
  | 0, l => l.headD ⟨.inf true, vZero, []⟩
  | n + 1, l => match l with
    | [x] => x
    | l => mergeTree n (mergeLevel l)

/-! ### Rows -/

/-- What a row of a head comes to (R167, R180, R181): the d values of O before rounding with their divisor, MAX, SUM, SFLAGS,
UNMASKED and the CAUSE of a NaN row. -/
structure RowOut where
  o : List (Val × Val)
  mx : Val
  sum : Val
  flags : Nat
  unmasked : Nat
  cause : Nat
  deriving DecidableEq, Repr

/-- A row of a head computed; `seen` holds its unmasked positions in ascending order (log entry 62). -/
def AttnOp.row (a : AttnOp) (c : Chip) (m : Cmd) (i h : Nat) (seen : List Nat) : RowOut :=
  let g := h / a.per
  let qr := (List.range a.d).map (fun x => elemVal c m a.q a.qs x i h)
  let sc := seen.map (fun j => (j, a.score c m qr j g))
  let u := sc.filter (fun x => x.2.1 != .inf true)
  let vAt := fun (j col : Nat) => elemVal c m a.v a.vs col j g
  let vNan := u.any (fun x => (List.range a.d).any (fun col => vIsNan (vAt x.1 col)))
  let inf := u.filter (fun x => x.2.1 == .inf false)
  let one := vInt 1
  if u.any (fun x => vIsNan x.2.1) || vNan then
    ⟨List.replicate a.d (.nan, one), .nan, .nan, 4, seen.length, if vNan || u.any (fun x => vIsNan x.2.1 && x.2.2) then 2 else 1⟩
  else if inf.length ≥ 1 then
    ⟨(List.range a.d).map (fun col => (exactSum (inf.map (fun x => vAt x.1 col)), vInt inf.length)), .inf false, vInt inf.length, 2,
      seen.length, 1⟩
  else if u.isEmpty then ⟨List.replicate a.d (vZero, one), .inf true, vZero, 1, seen.length, 0⟩
  else
    let bs := (List.range a.blocks).filterMap (fun b =>
      let ps := (u.filter (fun x => x.1 / 512 == b)).map (fun x => (x.1, x.2.1))
      if ps.isEmpty then none else some (a.blockState c m g ps))
    let s := mergeTree 20 bs
    ⟨s.o.map (fun x => (x, s.l)), s.m, if a.bfWeights then s.l else vRound .f32 (vScaleP2 s.l (-8)), 0, seen.length, 1⟩
where
  /-- A value times a power of two. -/
  vScaleP2 (v : Val) (k : Int) : Val := match v with
    | .fin n m e => .fin n m (e + k)
    | w => w

/-- The tiles of a key-value head: (first row, head) in ascending row order, then ascending head order (R183). -/
def AttnOp.tilesOf (a : AttnOp) (g : Nat) : List (Nat × Nat) :=
  (List.range (ceilDiv a.r 128)).flatMap (fun t => (List.range a.per).map (fun x => (128 * t, g * a.per + x)))

/-- The groups that write together (R183, R189): tiles of one key-value head. -/
def AttnOp.groups (a : AttnOp) : List (List (Nat × Nat)) :=
  (List.range a.k.d2).flatMap (fun g =>
    if a.decode then [a.tilesOf g] else blocksOf 8 (a.tilesOf g).length (a.tilesOf g))

/-- Rows of a group: (row, head). -/
def AttnOp.groupRows (a : AttnOp) (ts : List (Nat × Nat)) : List (Nat × Nat) :=
  ts.flatMap (fun t => ((rangeFrom t.1 128).filter (fun i => i < a.r)).map (fun i => (i, t.2)))

/-- The NaN event of an element of ATTN (R114, R182). -/
def AttnOp.ev (a : AttnOp) (c : Chip) (i h col cause : Nat) : NanEv :=
  let n := h * a.d + col
  ⟨cause, 0x81, i / 128 % 65536, n / 512 % 65536, i % 128, n % 512, c.time⟩

/-- A row of a head written to O and SIDE (R167, R180 to R182). -/
def AttnOp.put (a : AttnOp) (i h : Nat) (w : RowOut) (bad : Bool) (r : Cmd × Chip) : Cmd × Chip :=
  let r := (List.range a.d).foldl (fun r col =>
    let x := nth w.o col (vZero, vInt 1)
    let v := if vIsNan x.1 then .nan else vDivTo a.o.f x.1 x.2
    let cv := encodeVal a.o.f v
    let c := elemStore r.2 r.1 a.o col i h cv.code
    if bad then (r.1, c)
    else ({ r.1 with notes := r.1.notes.conv cv (a.ev c i h (if w.flags = 4 then 0 else col) w.cause) }, c)) r
  let c := r.2
  let m := if w.flags = 1 && !bad then
      let n := match r.1.notes.note with
        | some (1, k, f, _) => (1, k + 1, min f (h * a.r + i), 0)
        | _ => (1, 1, h * a.r + i, 0)
      { r.1 with notes := { r.1.notes with note := some n } }
    else r.1
  if !a.side.present then (m, c) else
  let o := a.side.rowOff h 0 + 16 * i
  let c := if a.stats then
      opStore c m a.side o (leBytes 4 (encodeVal .f32 w.mx).code ++ leBytes 4 (encodeVal .f32 w.sum).code)
    else c
  (m, opStore c m a.side (o + 8) (leBytes 4 w.flags ++ leBytes 4 w.unmasked))

/-- The O and SIDE elements of a row poisoned (R190). -/
def AttnOp.poisonRow (a : AttnOp) (m : Cmd) (i h : Nat) (c : Chip) : Chip :=
  let c := opPoison c m a.o (a.o.rowOff i h) a.o.rowBytes
  if a.side.present then opPoison c m a.side (a.side.rowOff h 0 + 16 * i) 16 else c

/-- The parts of K at a row's unmasked positions, and of V at those whose score is not −∞ (R179). -/
def AttnOp.readParts (a : AttnOp) (c : Chip) (m : Cmd) (i h : Nat) (seen : List Nat) : List (Desc × Nat × Nat) :=
  let g := h / a.per
  let qr := (List.range a.d).map (fun x => elemVal c m a.q a.qs x i h)
  seen.flatMap (fun j =>
    a.kvParts false j g ++ (if (a.score c m qr j g).1 == .inf true then [] else a.kvParts true j g))

/-- One group computed and written (R189, R190). -/
def attnGroup (a : AttnOp) (ts : List (Nat × Nat)) (m : Cmd) (c : Chip) : UOut :=
  let rows := a.groupRows ts
  let maskParts := rows.flatMap (fun x => a.maskParts x.1 x.2)
  match needBad m (partNeeds false maskParts) with
  | some p => .stall p c
  | none =>
    let seen := rows.map (fun x => (x.1, x.2, a.unmasked c m x.1 x.2))
    let kvParts := seen.flatMap (fun x => x.2.2.flatMap (fun j => a.kvParts false j (x.2.1 / a.per) ++ a.kvParts true j (x.2.1 / a.per)))
    match needBad m (partNeeds false kvParts) with
    | some p => .stall p c
    | none =>
      let qParts := rows.flatMap (fun x => a.qParts x.1 x.2)
      let parts := maskParts ++ qParts ++ seen.flatMap (fun x => a.readParts c m x.1 x.2.1 x.2.2)
      let first := rows.headD (0, 0)
      match parts.findSome? (fun x => match opBad c m x.1 x.2.1 x.2.2 with
          | some (.parity h o) => some (h, o)
          | _ => none) with
      | some (h, o) => .parity h o (a.o.addr + a.o.rowOff first.1 first.2) (c.rput (FUR m.half) FUR_ERR_FEED_PARITY 1)
      | none =>
        let r := takeAll parts m c
        if r.1.notes.uncorr.isSome then .stop (endRes r.2 r.1 []) r.1 r.2
        else
          let bad := (firstBad c m parts).isSome
          let c0 := r.2
          let r := seen.foldl (fun r x => a.put x.1 x.2.1 (a.row c0 m x.1 x.2.1 x.2.2) bad r) r
          .ok r.1 (if bad then rows.foldl (fun c x => a.poisonRow m x.1 x.2 c) r.2 else r.2)

/-- The lists of a block-sparse mask are read before any block (R177). -/
def attnLists (a : AttnOp) (m : Cmd) (c : Chip) : UOut :=
  let hs := if a.mask.d2 = 1 then [0] else List.range a.hq
  let at_ := (List.range (ceilDiv a.r 128)).flatMap (fun t => hs.map (fun h => (t, h)))
  let parts := at_.flatMap (fun x => a.maskParts (128 * x.1) x.2)
  match needBad m (partNeeds false parts) with
  | some p => .stall p c
  | none =>
    match parts.findSome? (fun x => match opBad c m x.1 x.2.1 x.2.2 with
        | some (.parity h o) => some (h, o)
        | _ => none) with
    | some (h, o) => .parity h o a.o.addr (c.rput (FUR m.half) FUR_ERR_FEED_PARITY 1)
    | none =>
      if at_.all (fun x => a.listOk (a.list c m x.1 x.2)) then .ok m c else .stop malformedRes m c

/-- The units of an ATTN: its groups, behind the reading of block lists. -/
def attnUnit (a : AttnOp) (i : Nat) (m : Cmd) (c : Chip) : UOut :=
  if a.kind = 3 then (if i = 0 then attnLists a m c else attnGroup a (nth a.groups (i - 1) []) m c)
  else attnGroup a (nth a.groups i []) m c

/-- Units of the command. -/
def AttnOp.units (a : AttnOp) : Nat := a.groups.length + (if a.kind = 3 then 1 else 0)

/-- An ATTN runs at most `limit` of its units. -/
def attnRun (limit : Nat) (m : Cmd) (c : Chip) : Chip :=
  let a := attnOp m
  let c := if a.decode then c
    else (furCycles m.half c).cycles [(FUR m.half, FUR_TILES)]
  let c := m.claims.foldl (fun c e => if e.cls = 2 then c.cycles [(HAR e.half e.idx, HAR_CYC_BUSY)] else c) c
  runCmd ⟨1, m.half, 0⟩ a.o.addr a.units (attnUnit a) (fun m c => endRes c m []) limit m c

/-- ATTN (R167). -/
def attnStep (q seq : Nat) (c : Chip) : Chip :=
  match running q seq 1 3 c with
  | some m => attnRun (runFuel (attnOp m).units) m c
  | none => c

end Sys2Proof.Machine
end

