-- ==== Sys2Proof/Machine/Access.lean ====
section
/-! DEFINITION. The log of accesses that are ignored or rejected (R542, R548), when the module serves accesses (R519), and the firmware
slots as MGT_FW shows them (R515). -/

namespace Sys2Proof.Machine

open Sys2Proof

/-- PATH of MOD_ACC_ERR (R548). -/
def pathCode : Path → Nat
  | .host _ => 0
  | .pcx p => 1 + p
  | .smbus => 3
  | .net => 4
  | .mailbox _ => 5
  | .queue _ => 6

/-- Why an access was ignored or rejected: KIND of MOD_ACC_ERR (R548). -/
inductive AccKind
  | narrow | locked | reserved | rejected | other
  deriving DecidableEq, Repr

/-- The code of a KIND. -/
def AccKind.code : AccKind → Nat
  | .narrow => 1 | .locked => 2 | .reserved => 3 | .rejected => 4 | .other => 5

/-- An access that is ignored and logged, or rejected and logged (R542); space 1 is the doorbell range. -/
def accLog (space off : Nat) (k : AccKind) (p : Path) (c : Chip) : Chip :=
  let c := c.rcount MOD MOD_ACC_COUNT_COUNT 1
  if c.rget MOD MOD_ACC_ERR_VALID = 1 then c
  else ((((c.rput MOD MOD_ACC_ERR_OFFSET off).rput MOD MOD_ACC_ERR_KIND k.code).rput MOD MOD_ACC_ERR_PATH (pathCode p)).rput MOD
    MOD_ACC_ERR_SPACE space).rput MOD MOD_ACC_ERR_VALID 1

/-- The module has reached READY (R517): accesses are served under their own chapters (R519). -/
def Chip.up (c : Chip) : Bool := c.rget MOD MOD_STATUS_READY == 1

/-- What a write by a path to a register's offset comes to before READY: a register outside the management region is not
reached (R519). -/
def reached (off : Nat) (c : Chip) : Bool := c.up || (0x10000 ≤ off && off < 0x1000000)

/-! ### Firmware slots -/

/-- Slot i of unit u holds a verified image (R515, R532). -/
def slotOk (c : Chip) (u i : Nat) : Bool :=
  c.rget MGT (match u, i with
    | 0, 0 => MGT_FW_MC_A_OK | 0, _ => MGT_FW_MC_B_OK
    | 1, 0 => MGT_FW_QP_A_OK | 1, _ => MGT_FW_QP_B_OK
    | _, 0 => MGT_FW_AIH_A_OK | _, _ => MGT_FW_AIH_B_OK) == 1

/-- The OK bit of slot i of unit u. -/
def setSlotOk (u i v : Nat) (c : Chip) : Chip :=
  c.rput MGT (match u, i with
    | 0, 0 => MGT_FW_MC_A_OK | 0, _ => MGT_FW_MC_B_OK
    | 1, 0 => MGT_FW_QP_A_OK | 1, _ => MGT_FW_QP_B_OK
    | _, 0 => MGT_FW_AIH_A_OK | _, _ => MGT_FW_AIH_B_OK) v

/-- The running image of a unit (R515). -/
def runFld (u : Nat) : Fld := if u = 0 then MGT_FW_MC_RUN else if u = 1 then MGT_FW_QP_RUN else MGT_FW_AIH_RUN

end Sys2Proof.Machine
end

