-- ==== Sys2Proof/Machine/Mem.lean ====
section
/-! DEFINITION. The memory devices (R271 to R288): slots and spares, corrected errors, marks, retirement, access paths, the patrol scrub
and low-power states. -/

namespace Sys2Proof.Machine

open Sys2Proof

/-! ### Devices -/

/-- The number of a device: region × 16 + device. -/
def devKey (d : MemDev) : Nat := (2 * b2n d.outfield + d.half) * 16 + d.dev

/-- Region of a device number. -/
def dkRegion (k : Nat) : Nat := k / 16
/-- Device within its region. -/
def dkDev (k : Nat) : Nat := k % 16
/-- A device number of Infield. -/
def dkInf (k : Nat) : Bool := k / 16 < 2
/-- Half of a device number. -/
def dkHalf (k : Nat) : Nat := k / 16 % 2

/-- Every device of a region, by number. -/
def regionDevs (r : Nat) : List Nat := (List.range (if r < 2 then 6 else 12)).map (r * 16 + ·)

/-- Every device of the module. -/
def allDevs : List Nat := [0, 1, 2, 3].flatMap regionDevs

/-- The register blocks of a device: its stack controller, or the four channels of its package (R287, R288). -/
def dkBlocks (k : Nat) : List Nat :=
  if dkInf k then [INF (dkHalf k) (dkDev k)] else (List.range 4).map (fun i => OUT (dkHalf k) (4 * dkDev k + i))

/-- The register block of an access path: its stack's, or its channel's. -/
def pathBlock (p : Nat) : Nat :=
  let k := p / 64
  if dkInf k then INF (dkHalf k) (dkDev k) else OUT (dkHalf k) (4 * dkDev k + p % 64)

/-- The unit code and instance of an access path in the event log (R501). -/
def pathUnit (p : Nat) : Nat × Nat := if dkInf (p / 64) then (0x0A, dkDev (p / 64)) else (0x0B, 4 * dkDev (p / 64) + p % 64)

/-- A field of every block of a device: the Infield field, or the Outfield field laid out alike. -/
def devPut (k : Nat) (f g : Fld) (v : Nat) (c : Chip) : Chip := (dkBlocks k).foldl (fun c b => c.rput b (if dkInf k then f else g) v) c

/-- A field of a device. -/
def devGet (c : Chip) (k : Nat) (f g : Fld) : Nat := c.rget ((dkBlocks k).headD 0) (if dkInf k then f else g)

/-- STATE of a device: 0 unpowered, 1 training, 2 in service, 5 under test, 6 out of service. -/
def devState (c : Chip) (k : Nat) : Nat := devGet c k INF_STATUS_STATE OUT_STATUS_STATE

/-- THROTTLE of a device. -/
def devThrottle (c : Chip) (k : Nat) : Nat := devGet c k INF_STATUS_THROTTLE OUT_STATUS_THROTTLE

/-- Visible slots of a device (R271). -/
def visSlots (k : Nat) : Nat := if dkInf k then 1048576 else 2097152
/-- Spare slots of a device (R271). -/
def spareSlots (k : Nat) : Nat := if dkInf k then 4096 else 8192

/-- The frame that the default plot map puts in a slot (R319), if any. -/
def defFrame (l : FrameLoc) : Option Nat :=
  if l.slot ≥ visSlots l.dk then none
  else if l.region < 2 then
    let j := l.slot * 6 + l.dev
    some ((j / 32 * 2 + l.region) * 32 + j % 32)
  else
    let j := l.slot * 12 + l.dev
    some (12582912 + (j / 32 * 2 + (l.region - 2)) * 32 + j % 32)

/-- The frame that lies in a slot. -/
def frameAt (c : Chip) (l : FrameLoc) : Option Nat :=
  match c.plot.find? (fun e => decide (e.2 = l)) with
  | some e => some e.1
  | none => (defFrame l).filter (fun f => decide (c.place f = l))

/-- A slot that a migration moves a frame into. -/
def slotTaken (c : Chip) (l : FrameLoc) : Bool := c.srv.migs.any (fun m => m.b.isNone && decide (m.dst = l))

/-- The block of 1,024 slots that a memory slice test holds, with its device (R523). -/
def testBlock (c : Chip) : Option (Nat × Nat) :=
  match c.hedge.slice with
  | some s =>
    if !s.aside then none
    else if s.kind = 9 then some (s.half * 16 + s.index / 1028, s.index % 1028)
    else if s.kind = 10 then some ((2 + s.half) * 16 + s.index / 2056, s.index % 2056)
    else none
  | none => none

/-- A slot lies in the block under test. -/
def inTest (c : Chip) (k slot : Nat) : Bool := testBlock c == some (k, slot / 1024)

/-- A spare slot of a device that holds no frame, is not fallow, not under test and no migration's destination. -/
def spareFree (c : Chip) (k i : Nat) : Bool :=
  let l : FrameLoc := ⟨dkRegion k, dkDev k, visSlots k + i⟩
  !c.srv.fallow.contains l && (frameAt c l).isNone && !slotTaken c l && !inTest c k l.slot

/-- Spare slots of a device that are free (R287). -/
def freeSpares (c : Chip) (k : Nat) : Nat :=
  let at_ := fun (l : FrameLoc) => l.dk == k && l.slot ≥ visSlots k && !inTest c k l.slot
  let used := (c.plot.filter (fun e => at_ e.2)).length
  let bad := (c.srv.fallow.filter at_).length
  let test := match testBlock c with
    | some (d, b) => if d = k && b * 1024 ≥ visSlots k then 1024 else 0
    | none => 0
  spareSlots k - used - bad - test

/-- Fallow slots of a device. -/
def fallowSlots (c : Chip) (k : Nat) : Nat := (c.srv.fallow.filter (fun l => l.dk == k)).length

/-- Index i and those after it, round a ring of n. -/
def ringFrom (i n : Nat) : List Nat := (List.range n).map (fun j => (i + j) % n)

/-- A free spare slot of a device, the module's choice (R282) (log entry 47). -/
def pickSpare (k : Nat) (c : Chip) : Option FrameLoc × Chip :=
  if freeSpares c k = 0 || c.srv.devOut.contains k then (none, c)
  else
    let d := c.draw
    (((ringFrom (d.1 % spareSlots k) (spareSlots k)).find? (fun i => spareFree c k i)).map (fun i => ⟨dkRegion k, dkDev k, visSlots k + i⟩), d.2)

/-- Frames that lie on a device. -/
def framesOn (c : Chip) (k : Nat) : Nat :=
  let gone := (c.plot.filter (fun e => (plotDef e.1).dk == k && e.2.dk != k)).length
  let come := (c.plot.filter (fun e => e.2.dk == k && (plotDef e.1).dk != k)).length
  visSlots k - gone + come

/-! ### Errors -/

/-- 24 hours in nanoseconds (log entry 51). -/
def dayNs : Nat := 86400000000000

/-- A time added to a history of the last 24 hours (log entry 51). -/
def histAdd (now : Nat) (l : List Nat) : List Nat := l.filter (fun t => now < t + dayNs) ++ [now]

/-- A corrected error of a block instance: the first of an hour is logged (R503) (log entry 51). -/
def corrEvent (unit half inst addr count : Nat) (c : Chip) : Chip :=
  let k := (unit, half * 65536 + inst, c.time / 3600000000000)
  if c.log.hourly.contains k then c
  else
    let l := c.log.hourly.filter (fun x => x.2.2 == k.2.2)
    { c with log := { c.log with hourly := l ++ [k] } }.logEvent 0x0010 1 unit half inst addr count

/-- A slot is to be retired: its frame will be moved (R282). -/
def toRetire (f : Nat) (c : Chip) : Chip := if c.retire.contains f then c else { c with retire := c.retire ++ [f] }

/-- A device is put out of service with one of its access paths (R283): its frames are to be moved elsewhere. -/
def pathFailed (p : Nat) (c : Chip) : Chip :=
  let k := p / 64
  let u := pathUnit p
  let c := c.rput (pathBlock p) (if dkInf k then INF_ERR_PATH_FAILED else OUT_ERR_PATH_FAILED) 1
  if c.srv.devOut.contains k then c
  else
    let c := devPut k INF_STATUS_STATE OUT_STATUS_STATE 6 { c with srv := { c.srv with devOut := c.srv.devOut ++ [k] } }
    c.logEvent 0x0014 3 u.1 (dkHalf k) u.2 (p % 64) (framesOn c k)

/-- A position of an access path is marked, or the path is put out of service when another is (R277) (log entry 51). -/
def markPos (p pos : Nat) (c : Chip) : Chip :=
  let k := p / 64
  let u := pathUnit p
  match c.srv.marks.find? (fun m => m.1 == p) with
  | some m => if m.2 = pos then c else pathFailed p c
  | none =>
    let c : Chip := { c with srv := { c.srv with marks := c.srv.marks ++ [(p, pos)] } }
    let c := c.rput (pathBlock p) (if dkInf k then INF_ERR_MARK_SET else OUT_ERR_MARK_SET) 1
    let c := if dkInf k then c.rput (pathBlock p) INF_STATUS_MARKS ((c.srv.marks.filter (fun m => m.1 / 64 == k)).length)
      else (c.rput (pathBlock p) OUT_STATUS_MARKED 1).rput (pathBlock p) OUT_STATUS_MARK_POS pos
    c.logEvent 0x0013 2 u.1 (dkHalf k) u.2 (p % 64) pos

/-- A read of a unit corrected at a symbol position (R279): counted against its slot and its position (R277, R282) (log entry 51). -/
def memCorrect (l : FrameLoc) (a pos : Nat) (c : Chip) : Chip :=
  let p := pathOf l a
  let k := l.dk
  let b := pathBlock p
  let u := pathUnit p
  let c := if dkInf k then (c.rput b INF_ERR_CORRECTED 1).rcount b INF_CORRECTED 1 else (c.rput b OUT_ERR_CORRECTED 1).rcount b OUT_CORRECTED 1
  let hs := histAdd c.time ((c.srv.slotErrs.find? (fun e => decide (e.1 = l))).map (fun e => e.2) |>.getD [])
  let key := p * 128 + pos
  let hp := histAdd c.time ((c.srv.posErrs.find? (fun e => e.1 == key)).map (fun e => e.2) |>.getD [])
  let sv := c.srv
  let c : Chip := { c with srv := { sv with slotErrs := sv.slotErrs.filter (fun e => !decide (e.1 = l)) ++ [(l, hs)],
                                            posErrs := sv.posErrs.filter (fun e => e.1 != key) ++ [(key, hp)] } }
  let c := corrEvent u.1 (dkHalf k) u.2 (a / 64 * 64) hs.length c
  let c := if hs.length = 9 then
      (match frameAt c l with
        | some f => toRetire f c
        | none => { c with srv := { c.srv with fallow := c.srv.fallow ++ [l] } }).logEvent 0x0010 1 u.1 (dkHalf k) u.2 l.slot hs.length
    else c
  if hp.length = 65 then (markPos p pos c).logEvent 0x0010 1 u.1 (dkHalf k) u.2 (p % 64) hp.length else c

/-- PATROL_SCRUB_READ (R279, R280): the patrol reads one unit of a slot; `fix` is a symbol it corrected, `lost` an error it could not. -/
def patrolScrubReadStep (d : MemDev) (slot unit : Nat) (r : ScrubRead) (c : Chip) : Chip :=
  let k := devKey d
  let l : FrameLoc := ⟨dkRegion k, dkDev k, slot⟩
  let p := pathOf l (unit * 64)
  let b := pathBlock p
  if devState c k ≠ 2 || devGet c k INF_CTL_SCRUB_HOURS OUT_CTL_SCRUB_HOURS == 0 || c.srv.fallow.contains l then c
  else
    let c := c.rcount b (if dkInf k then INF_SCRUB_UNITS else OUT_SCRUB_UNITS) 1
    match frameAt c l with
    | some f =>
      let a := f * 65536 + unit * 64
      let c := c.touch a
      if c.memBad.contains (a / 64) || r.lost then memUncorr a c
      else match r.fix with
        | some pos => memCorrect l a pos c
        | none => c
    | none =>
      if r.lost then { c with srv := { c.srv with fallow := c.srv.fallow ++ [l] } }
      else match r.fix with
        | some pos => memCorrect l (unit * 64) pos c
        | none => c

/-! ### What accesses do to placement -/

/-- Placement flags before any command sets them. -/
def flagDef (_ : Nat) : PFlags := {}
/-- The placement flags of a frame (R323). -/
def Chip.pflags (c : Chip) (f : Nat) : PFlags := kget flagDef c.srv.flags f
/-- The placement flags of a frame replaced. -/
def Chip.setFlags (c : Chip) (f : Nat) (x : PFlags) : Chip := { c with srv := { c.srv with flags := kset flagDef c.srv.flags f x } }

/-- Counts of a group before any access. -/
def heatDef (_ : Nat) : Nat × Nat := (0, 0)
/-- The two counts of a group (R321). -/
def Chip.counts (c : Chip) (g : Nat) : Nat × Nat := kget heatDef c.srv.heat g
/-- The heat of a group (R321). -/
def Chip.heat (c : Chip) (g : Nat) : Nat := (c.counts g).1 + (c.counts g).2

/-- Accesses counted for a group, by half (R321) (log entry 47). -/
def addHeat (g e w : Nat) (c : Chip) : Chip :=
  let x := c.counts g
  { c with srv := { c.srv with heat := kset heatDef c.srv.heat g (satAdd x.1 e 65535, satAdd x.2 w 65535) } }

/-- A Gleaner frame part counts 4 against the half of its stack, unless the frame is kept cold (R321). -/
def partHeat (f : Nat) (c : Chip) : Chip :=
  let l := c.place f
  if l.region ≥ 2 || (c.pflags f).cold then c
  else if l.region = 0 then addHeat (f / 32) 4 0 c else addHeat (f / 32) 0 4 c

/-- A migration has a frame. -/
def Mig.has (m : Mig) (f : Nat) : Bool := m.a == f || m.b == some f

/-- A migration in preparation ends without effect: abandoned, or withdrawn by a Gleaner part (R328); only the former is held against
its frames. One of a slice test is planned again at once (R525) (log entry 49). -/
def endMig (m : Mig) (abandoned : Bool) (c : Chip) : Chip :=
  let sv := c.srv
  let gone := if abandoned then (m.a, 4) :: (match m.b with
    | some b => [(b, 4)]
    | none => []) else []
  let test := decide (m.why = .testOut) || decide (m.why = .testBack)
  let left := sv.migs.filter (fun x => x.id != m.id)
  let migs := if test then left ++ [{ m with started := false, passes := 0, dirtyA := 0, dirtyB := 0, window := false, bad := [] }] else left
  let c : Chip := { c with srv := { sv with migs := migs, gone := if test then sv.gone else sv.gone ++ gone } }
  let c := c.rcount (SRV m.half) SRV_ABANDONED 1
  if abandoned then c.rput (SRV m.half) SRV_ERR_ABANDONED 1 else c

/-- A Gleaner frame part that writes a frame in preparation withdraws its migration (R328). -/
def withdrawMig (f : Nat) (c : Chip) : Chip :=
  match c.srv.migs.find? (fun m => m.started && !m.window && m.has f) with
  | some m => endMig m false c
  | none => c

/-! ### Low-power states -/

/-- Ballast holds devices out of power-down and self-refresh (R485). -/
def mayRest (c : Chip) (k : Nat) : Bool := c.up && devState c k == 2 && c.gov.bal == 0 && !c.srv.sr.contains k && !c.srv.waking.contains k

/-- MEMORY_POWER_DOWN (R285): an access path that has been idle for PD_IDLE (log entry 50). -/
def memoryPowerDownStep (d : MemDev) (path : Nat) (c : Chip) : Chip :=
  let k := devKey d
  let p := k * 64 + path
  if !mayRest c k || devGet c k INF_CTL_PD_IDLE OUT_CTL_PD_IDLE == 0 || c.srv.pd.contains p then c
  else { c with srv := { c.srv with pd := c.srv.pd ++ [p] } }

/-- A migration touches a device. -/
def migTouches (c : Chip) (m : Mig) (k : Nat) : Bool := (c.place m.a).dk == k || m.dst.dk == k

/-- MEMORY_SELF_REFRESH (R285): a device that has been idle for SR_IDLE, with no migration on it (log entry 50). -/
def memorySelfRefreshStep (d : MemDev) (c : Chip) : Chip :=
  let k := devKey d
  if !mayRest c k || devGet c k INF_CTL_SR_IDLE OUT_CTL_SR_IDLE == 0 || c.srv.migs.any (fun m => m.started && migTouches c m k) then c
  else { c with srv := { c.srv with sr := c.srv.sr ++ [k], pd := c.srv.pd.filter (fun p => p / 64 != k) } }

/-- Admission power of a device that leaves self-refresh (R486). -/
def memWatt (k : Nat) : Nat := if dkInf k then watt 12 else watt 3

/-- The device of a number. -/
def devOf (k : Nat) : MemDev := ⟨!dkInf k, dkHalf k, dkDev k⟩

/-- A device asked for leaves self-refresh, once its power is admitted (R285, R486) (log entry 50). -/
def wakeDev (k : Nat) (c : Chip) : Chip :=
  let r := admission (.mem (devOf k)) (memWatt k) c
  if r.1 then { r.2 with srv := { r.2.srv with waking := r.2.srv.waking.filter (fun x => x != k) } } else r.2

/-- Devices that requests have reached leave self-refresh as the governor admits them (log entry 50). -/
def wakeMem (c : Chip) : Chip :=
  (c.srv.waking.filter (fun k => !c.gov.waiting.any (fun w => decide (w.1 = .mem (devOf k))))).foldl (fun c k => wakeDev k c) c

/-- STATE as a device's status registers show it (R287, R288): self-refresh, or power-down when every path of the block is in it (log entry 50). -/
def shownState (c : Chip) (k chan : Nat) : Nat :=
  let s := devState c k
  if s ≠ 2 then s
  else if c.srv.sr.contains k || c.srv.waking.contains k then 4
  else if dkInf k then (if (List.range 64).all (fun i => c.srv.pd.contains (k * 64 + i)) then 3 else 2)
  else if c.srv.pd.contains (k * 64 + chan) then 3 else 2

end Sys2Proof.Machine
end

