-- ==== Sys2Proof/Machine/Gleaner.lean ====
section
/-! DEFINITION. The Gleaners (R289 to R312): scoring, weighted sums, moves, reductions, selection, updates and checks of REGION. -/

namespace Sys2Proof.Machine

open Sys2Proof

/-! ### The operation -/

/-- A Gleaner command (R73). -/
structure GlnOp where
  op : Nat
  region : Desc
  inp : Desc
  out : Desc
  aux : Desc
  scale : Nat
  count : Nat
  kind : Nat
  coef : List Nat
  deriving DecidableEq, Repr

/-- The parameters of a Gleaner command (R73). -/
def glnOp (m : Cmd) : GlnOp :=
  { op := m.op, region := parseDesc m.bytes 16 0, inp := parseDesc m.bytes 64 1, out := parseDesc m.bytes 96 2, aux := parseDesc m.bytes 160 3,
    scale := m.par 128 4, count := m.par 132 4, kind := m.par 136 1, coef := (List.range 4).map (fun i => m.par (140 + 4 * i) 4) }

/-- SCALE; +0 is read as 1.0 (R294). -/
def GlnOp.scaleV (g : GlnOp) : Val := if g.scale = 0 then vInt 1 else decodeFmt .f32 g.scale

/-- Coefficient i. -/
def GlnOp.cf (g : GlnOp) (i : Nat) : Val := decodeFmt .f32 (nth g.coef i 0)

/-- The scale descriptor of REGION: AUX for SCORE, VALUE_ACC and QUANTISE (R294, R299). -/
def GlnOp.rsc (g : GlnOp) : Desc := g.aux

/-- The frame part of REGION element (i0, i1, i2) (R290): its device page and part number, by its first byte. -/
def GlnOp.partOf (g : GlnOp) (i : Nat × Nat × Nat) : Nat × Nat :=
  let va := bits g.region.addr 0 57 + g.region.rowOff i.2.1 i.2.2 + (elemSpan g.region i.1).1
  (va / 65536, va / 256 % 64)

/-- What a command goes through in REGION, as the elements that stand for it: rows for SCORE, blocks for QUANTISE, else elements. -/
def GlnOp.items (g : GlnOp) : List (Nat × Nat × Nat) :=
  if g.op = 1 then g.region.rows.map (fun r => (0, r.1, r.2))
  else if g.op = 7 && g.kind == 6 then g.region.elems.filter (fun i => i.1 % g.region.block == 0)
  else g.region.elems

/-- Insertion of a frame part in ascending order, once. -/
def insertPart (x : Nat × Nat) : List (Nat × Nat) → List (Nat × Nat)
  | [] => [x]
  | y :: l =>
    if x.1 < y.1 || (x.1 == y.1 && x.2 < y.2) then x :: y :: l
    else if x = y then y :: l else y :: insertPart x l

/-- The frame parts of REGION in ascending order (R306) (log entry 65). -/
def GlnOp.parts (g : GlnOp) : List (Nat × Nat) := g.items.foldl (fun l i => insertPart (g.partOf i) l) []

/-- The register block that records what REGION element meets: that of its stack, or of stack 0 of the running half for a frame in
Outfield. -/
def GlnOp.blk (g : GlnOp) (c : Chip) (m : Cmd) (i : Nat × Nat × Nat) : Nat :=
  match opLoc c m g.region (g.region.rowOff i.2.1 i.2.2 + (elemSpan g.region i.1).1) with
  | .frame a => let l := c.place (a / 65536); if l.region < 2 then INF l.region l.dev else INF m.half 0
  | _ => INF m.half 0

/-- The clean of a frame (R303): host cores' lines are recalled and invalidated. -/
def cleanFrame (h f : Nat) (c : Chip) : Chip :=
  let secs := (c.host.dir.filter (fun d => d.sec / 1024 == f)).map (fun d => d.sec)
  let c := secs.foldl (fun c s => c.recall s) c
  (c.rcount (INF h 0) INF_GDS_CLEAN_FRAMES 1).rcount (INF h 0) INF_GDS_CLEAN_LINES secs.length

/-- The frames a command cleans (R303): those of REGION, and those of its other operands that lie in a stack which holds a frame of REGION. -/
def GlnOp.cleanFrames (g : GlnOp) (c : Chip) (m : Cmd) : List Nat :=
  let rp := (g.region.needs false []).map (fun p => p.vp)
  let fr := fun (p : XPage) => p.frame
  let own := (m.pages.filter (fun p => p.ok && rp.contains p.vp)).map fr
  let stack := fun (f : Nat) => let l := c.place f; (l.region, l.dev)
  let near := (m.pages.filter (fun p => p.ok && !rp.contains p.vp)).map fr
  unionNat (unionNat [] own) (near.filter (fun f => (c.place f).region < 2 && own.any (fun o => stack o == stack f)))

/-! ### Elements -/

/-- A conversion of a source element's code into a destination's format, with the CAUSE of a NaN (R103 to R107). -/
def convCode (c : Chip) (m : Cmd) (s d : Desc) (code : Nat) : Conv × Nat :=
  if s.fmt = d.fmt then (⟨code, false, false, false⟩, 0)
  else
    let v := readElem s.f (s.strict || cfgGet c m MOD MOD_FMT_CTL_CUR_FORCE_STRICT == 1) d.f code
    (encodeVal d.f v, if vIsNan v && !vIsNan (decodeFmt s.f code) then 3 else 2)

/-- The NaN event of an element written (R311, R114). -/
def glnEv (c : Chip) (row e cause : Nat) : NanEv := ⟨cause, 0xA0, row % 65536, 0, 0, e % 65536, c.time⟩

/-- REGION's flattened row of an element. -/
def GlnOp.rowNo (g : GlnOp) (i : Nat × Nat × Nat) : Nat := i.2.1 + g.region.d1 * i.2.2

/-- One element written, or poisoned when it derives from bad data (R309). -/
def glnPut (d : Desc) (ix : Nat × Nat × Nat) (cv : Conv) (bad : Bool) (ev : NanEv) (blk : Nat) (m0 : Cmd) (r : Cmd × Chip) : Cmd × Chip :=
  let c := elemStore r.2 m0 d ix.1 ix.2.1 ix.2.2 cv.code
  if bad then
    let s := elemSpan d ix.1
    (r.1, (opPoison c m0 d (d.rowOff ix.2.1 ix.2.2 + s.1) s.2.2).rput blk INF_GLN_ERR_POISON_OUT 1)
  else ({ r.1 with notes := r.1.notes.conv cv ev }, c)

/-- A whole row of an output poisoned (R309). -/
def poisonRowOf (d : Desc) (i1 i2 blk : Nat) (m0 : Cmd) (c : Chip) : Chip :=
  (opPoison c m0 d (d.rowOff i1 i2) d.rowBytes).rput blk INF_GLN_ERR_POISON_OUT 1

/-- The part of an operand that one element reads. -/
def elPart (d : Desc) (i : Nat × Nat × Nat) : Desc × Nat × Nat :=
  let s := elemSpan d i.1
  (d, d.rowOff i.2.1 i.2.2 + s.1, s.2.2)

/-- A whole row's part. -/
def rowPart (d : Desc) (i1 i2 : Nat) : Desc × Nat × Nat := (d, d.rowOff i1 i2, d.rowBytes)

/-- A row index of AUX: its value, or none when it lies in bad data. -/
def GlnOp.auxIx (g : GlnOp) (c : Chip) (m : Cmd) (p : Nat) : Option Int :=
  if (elemBad c m g.aux p 0 0).isSome then none else some (sext 32 (elemCode c m g.aux p 0 0))

/-- The last position of AUX that names a row (R298). -/
def GlnOp.posOf (g : GlnOp) (c : Chip) (m : Cmd) (row : Nat) : Option Nat :=
  (List.range g.aux.d0).reverse.find? (fun p => g.auxIx c m p == some (row : Int))

/-! ### SCORE and VALUE_ACC -/

/-- The class of REGION (R121, R168). -/
def GlnOp.cls (g : GlnOp) : Nat × Bool := (furClass g.region.fmt g.region.scaled).getD (8, false)

/-- out[j, t, z] of SCORE for one REGION row (R295): its value and the CAUSE of a NaN. -/
def GlnOp.scoreAt (g : GlnOp) (c : Chip) (m : Cmd) (j t z : Nat) : Val × Nat :=
  let qs := (List.range g.region.d0).map (fun x => elemVal c m g.inp g.inp x t z)
  let ks := (List.range g.region.d0).map (fun x => elemVal c m g.region g.rsc x j z)
  let v := vRound .f32 (vMul g.scaleV (dotAcc g.cls.2 g.cls.1 (qs.zip ks)).1)
  (v, if qs.any vIsNan || ks.any vIsNan || vIsNan g.scaleV then 2 else 1)

/-- What a REGION row of SCORE or VALUE_ACC reads: the row and its scales. -/
def GlnOp.rowReads (g : GlnOp) (i1 i2 : Nat) : List (Desc × Nat × Nat) :=
  rowPart g.region i1 i2 :: (if g.region.scaled then [rowPart g.aux i1 i2] else [])

/-- One REGION row scored against every query row (R295, R309, R311). -/
def GlnOp.scoreRow (g : GlnOp) (c0 : Chip) (i : Nat × Nat × Nat) (r : Cmd × Chip) : Cmd × Chip :=
  let j := i.2.1
  let z := i.2.2
  (List.range g.inp.d1).foldl (fun r t =>
    let m := r.1
    let bad := (firstBad c0 m (rowPart g.inp t z :: g.rowReads j z)).isSome
    let s := g.scoreAt c0 m j t z
    let r := glnPut g.out (j, t, z) (encodeVal .f32 s.1) bad (glnEv c0 (g.rowNo i) j s.2) (g.blk c0 m i) m r
    if bad then (r.1, poisonRowOf g.out t z (g.blk c0 m i) m r.2) else r) r

/-- out[c, t, z] of VALUE_ACC (R295): its value, and the first row that brings a NaN with its CAUSE. -/
def GlnOp.accAt (g : GlnOp) (c : Chip) (m : Cmd) (col t z : Nat) : Val × Nat × Nat :=
  let js := List.range g.region.d1
  let ws := js.map (fun j => elemVal c m g.inp g.inp j t z)
  let vs := js.map (fun j => elemVal c m g.region g.rsc col j z)
  let tp := if g.inp.fmt = 3 then 8 else 16
  let v := vRound .f32 (vMul g.scaleV (valAcc tp (js.length + 1) vZero (ws.zip vs)))
  match js.find? (fun j => vIsNan (nth ws j vZero) || vIsNan (nth vs j vZero)) with
  | some j => (v, j, 2)
  | none => (v, 0, if vIsNan g.scaleV then 2 else 1)

/-- VALUE_ACC at the command's end (R295, R308). -/
def GlnOp.accAll (g : GlnOp) (c0 : Chip) (r : Cmd × Chip) : Cmd × Chip :=
  ((List.range g.region.d2).flatMap (fun z => (List.range g.inp.d1).map (fun t => (t, z)))).foldl (fun r x =>
    let m := r.1
    let rows := (List.range g.region.d1).flatMap (fun j => g.rowReads j x.2)
    let bad := (firstBad c0 m (rowPart g.inp x.1 x.2 :: rows)).isSome
    let r := (List.range g.region.d0).foldl (fun r col =>
      let s := g.accAt c0 m col x.1 x.2
      glnPut g.out (col, x.1, x.2) (encodeVal .f32 s.1) bad (glnEv c0 (g.rowNo (0, s.2.1, x.2)) col s.2.2) (INF m.half 0) m r) r
    if bad then (r.1, poisonRowOf g.out x.1 x.2 (INF m.half 0) m r.2) else r) r

/-! ### Moves -/

/-- One REGION element that GATHER sends to every OUT row that names its row (R298). -/
def GlnOp.gatherEl (g : GlnOp) (c0 : Chip) (i : Nat × Nat × Nat) (r : Cmd × Chip) : Cmd × Chip :=
  (List.range g.aux.d0).foldl (fun r p =>
    if g.auxIx c0 r.1 p == some (i.2.1 : Int) then
      let m := r.1
      let rr := g.out.row2 p
      let cv := convCode c0 m g.region g.out (elemCode c0 m g.region i.1 i.2.1 i.2.2)
      glnPut g.out (i.1, rr.1, rr.2) cv.1 (elemBad c0 m g.region i.1 i.2.1 i.2.2).isSome (glnEv c0 i.2.1 i.1 cv.2) (g.blk c0 m i) m r
    else r) r

/-- The OUT rows of GATHER that no REGION row feeds: zeros for an index out of range, poison for one in bad data (R298, R309). -/
def GlnOp.gatherRest (g : GlnOp) (c0 : Chip) (r : Cmd × Chip) : Cmd × Chip :=
  (List.range g.aux.d0).foldl (fun r p =>
    let m := r.1
    let rr := g.out.row2 p
    match g.auxIx c0 m p with
    | none => (r.1, poisonRowOf g.out rr.1 rr.2 (INF m.half 0) m r.2)
    | some i =>
      if outOf g.region.d1 i then
        (List.range g.out.d0).foldl (fun r e => glnPut g.out (e, rr.1, rr.2) ⟨0, false, false, false⟩ false (glnEv c0 0 0 0) 0 m r) r
      else r) r

/-- One REGION element that SCATTER writes (R298). -/
def GlnOp.scatterEl (g : GlnOp) (c0 : Chip) (i : Nat × Nat × Nat) (r : Cmd × Chip) : Cmd × Chip :=
  match g.posOf c0 r.1 i.2.1 with
  | none => r
  | some p =>
    let m := r.1
    let rr := g.inp.row2 p
    let cv := convCode c0 m g.inp g.region (elemCode c0 m g.inp i.1 rr.1 rr.2)
    glnPut g.region i cv.1 (elemBad c0 m g.inp i.1 rr.1 rr.2).isSome (glnEv c0 i.2.1 i.1 cv.2) (g.blk c0 m i) m r

/-- An index of AUX lies outside REGION (R298). -/
def GlnOp.rangeErr (g : GlnOp) (c : Chip) (m : Cmd) : Bool :=
  (g.op == 3 || g.op == 4) && (List.range g.aux.d0).any (fun p => match g.auxIx c m p with
    | some i => outOf g.region.d1 i
    | none => false)

/-- One element that COPY writes (R300). -/
def GlnOp.copyEl (g : GlnOp) (c0 : Chip) (i : Nat × Nat × Nat) (r : Cmd × Chip) : Cmd × Chip :=
  let m := r.1
  let cv := convCode c0 m g.region g.out (elemCode c0 m g.region i.1 i.2.1 i.2.2)
  glnPut g.out i cv.1 (elemBad c0 m g.region i.1 i.2.1 i.2.2).isSome (glnEv c0 (g.rowNo i) i.1 cv.2) (g.blk c0 m i) m r

/-- One element that FILL writes (R300). -/
def GlnOp.fillEl (g : GlnOp) (c0 : Chip) (i : Nat × Nat × Nat) (r : Cmd × Chip) : Cmd × Chip :=
  let m := r.1
  glnPut g.region i ⟨elemCode c0 m g.inp 0 0 0, false, false, false⟩ (elemBad c0 m g.inp 0 0 0).isSome (glnEv c0 0 0 0) (g.blk c0 m i) m r

/-! ### UPDATE -/

/-- One F32 operation's rounding. -/
def r32 (v : Val) : Val := vRound .f32 v

/-- The step of UPDATE on one element's values (R299): the new r, and the new a where KIND writes it. -/
def updStep (kind : Nat) (c0 c1 c2 c3 r g a : Val) : Val × Val :=
  match kind with
  | 0 => (r32 (vAdd r (r32 (vMul c0 g))), a)
  | 1 => (r32 (vAdd (r32 (vMul c0 r)) (r32 (vMul c1 g))), a)
  | 2 =>
    let a' := r32 (vAdd (r32 (vMul c0 a)) g)
    (r32 (vSub (r32 (vSub r (r32 (vMul c1 a')))) (r32 (vMul c2 r))), a')
  | 3 =>
    (r32 (vAdd (r32 (vMul c0 r)) (r32 (vMul c1 g))),
     r32 (vAdd (r32 (vMul c2 a)) (r32 (vMul (r32 (vMul c3 g)) g))))
  | 4 =>
    let den := r32 (vAdd (vSqrt .f32 a) c1)
    (r32 (vSub (r32 (vSub r (r32 (vMul c0 (vDivTo .f32 g den))))) (r32 (vMul c2 r))), a)
  | _ => (minVal (maxVal r c0) c1, a)

/-- UPDATE uses IN (R299). -/
def GlnOp.usesIn (g : GlnOp) : Bool := g.kind != 5
/-- UPDATE uses AUX as a second state (R299). -/
def GlnOp.usesAux (g : GlnOp) : Bool := g.kind == 2 || g.kind == 3 || g.kind == 4
/-- UPDATE writes the second state (R299). -/
def GlnOp.writesAux (g : GlnOp) : Bool := g.kind == 2 || g.kind == 3

/-- One element updated (R299, R309). -/
def GlnOp.updateEl (g : GlnOp) (c0 : Chip) (i : Nat × Nat × Nat) (r : Cmd × Chip) : Cmd × Chip :=
  let m := r.1
  let rv := elemVal c0 m g.region g.region i.1 i.2.1 i.2.2
  let gv := if g.usesIn then elemVal c0 m g.inp g.inp i.1 i.2.1 i.2.2 else vZero
  let av := if g.usesAux then elemVal c0 m g.aux g.aux i.1 i.2.1 i.2.2 else vZero
  let parts := [elPart g.region i] ++ (if g.usesIn then [elPart g.inp i] else []) ++ (if g.usesAux then [elPart g.aux i] else [])
  let bad := (firstBad c0 m parts).isSome
  let x := updStep g.kind (g.cf 0) (g.cf 1) (g.cf 2) (g.cf 3) rv gv av
  let nanIn := vIsNan rv || vIsNan gv || vIsNan av || (List.range 4).any (fun k => vIsNan (g.cf k))
  let ev := glnEv c0 (g.rowNo i) i.1 (if nanIn then 2 else 1)
  let r := glnPut g.region i (encodeVal g.region.f x.1) bad ev (g.blk c0 m i) m r
  if g.writesAux then glnPut g.aux i (encodeVal g.aux.f x.2) bad ev (g.blk c0 m i) m r else r

/-- The elements of the block that starts at element i. -/
def GlnOp.blockEls (g : GlnOp) (i : Nat × Nat × Nat) : List (Nat × Nat × Nat) :=
  (List.range (min g.region.block (g.region.d0 - i.1))).map (fun k => (i.1 + k, i.2.1, i.2.2))

/-- One block quantised (R102, R299). -/
def GlnOp.quantBlk (g : GlnOp) (c0 : Chip) (i : Nat × Nat × Nat) (r : Cmd × Chip) : Cmd × Chip :=
  let m := r.1
  let els := g.blockEls i
  let q := quantBlock (fmtOf g.region.sfmt) g.region.f (els.map (fun e => elemVal c0 m g.inp g.inp e.1 e.2.1 e.2.2))
  let bad := (firstBad c0 m (els.map (elPart g.inp))).isSome
  let ev := glnEv c0 (g.rowNo i) i.1 5
  let blk := g.blk c0 m i
  let r := (List.range els.length).foldl (fun r k =>
    glnPut g.region (nth els k i) ⟨nth q.2.1 k 0, false, false, false⟩ bad ev blk m r) r
  let r := glnPut g.aux (i.1 / g.region.block, i.2.1, i.2.2) ⟨q.1, false, false, false⟩ bad ev blk m r
  if q.2.2 && !bad then ({ r.1 with notes := r.1.notes.addNan ev }, r.2) else r

/-! ### Reductions, selection, checksums -/

/-- One block of BLOCK_REDUCE (R296): its value and the CAUSE of a NaN. -/
def GlnOp.reduceAt (g : GlnOp) (vs : List Val) : Val × Nat :=
  let int := fmtIsInt g.region.f
  let v := match g.kind with
    | 0 => if int then vInt (satInt32 (vs.foldl (fun s x => s + vToInt x) 0)) else r32 (exactSum vs)
    | 1 => vs.tail.foldl maxVal (vs.headD vZero)
    | _ => vs.tail.foldl minVal (vs.headD vZero)
  (v, if vs.any vIsNan then 2 else 1)

/-- BLOCK_REDUCE at the command's end (R296, R308). -/
def GlnOp.reduceAll (g : GlnOp) (c0 : Chip) (r : Cmd × Chip) : Cmd × Chip :=
  g.region.rows.foldl (fun r row =>
    let m := r.1
    (List.range (ceilDiv g.region.d0 g.count)).foldl (fun r b =>
      let els := (List.range (min g.count (g.region.d0 - b * g.count))).map (fun k => (b * g.count + k, row.1, row.2))
      let s := g.reduceAt (els.map (fun e => elemVal c0 m g.region g.region e.1 e.2.1 e.2.2))
      let bad := (firstBad c0 m (els.map (elPart g.region))).isSome
      glnPut g.out (b, row.1, row.2) (encodeVal g.out.f s.1) bad (glnEv c0 (g.rowNo (0, row.1, row.2)) b s.2) (g.blk c0 m (0, row.1, row.2)) m r) r) r

/-- a ranks above b (R297): NaN above +infinity, the zeros equal. -/
def ranksAbove (a b : Val) : Bool := if vIsNan a then !vIsNan b else if vIsNan b then false else vLt b a

/-- Insertion by rank: behind every element that it does not outrank. -/
def rankInsert (x : Val × Nat × Nat) : List (Val × Nat × Nat) → List (Val × Nat × Nat)
  | [] => [x]
  | y :: l => if ranksAbove x.1 y.1 then x :: y :: l else y :: rankInsert x l

/-- A row's elements (value, code, index) in descending order, equal ones by ascending index. -/
def rankRow (l : List (Val × Nat × Nat)) : List (Val × Nat × Nat) := l.foldl (fun acc x => rankInsert x acc) []

/-- TOPK of one row (R297). -/
def GlnOp.topRow (g : GlnOp) (c0 : Chip) (row : Nat × Nat) (r : Cmd × Chip) : Cmd × Chip :=
  let m := r.1
  let int := fmtIsInt g.region.f
  let els := (List.range g.region.d0).map (fun e =>
    let code := elemCode c0 m g.region e row.1 row.2
    (decodeFmt g.region.f code, code, e))
  let top := (rankRow els).take g.count
  let bad := (opBad c0 m g.region (g.region.rowOff row.1 row.2) g.region.rowBytes).isSome
  let blk := g.blk c0 m (0, row.1, row.2)
  let ev := fun t => glnEv c0 (g.rowNo (0, row.1, row.2)) (2 * t) 2
  let r := (List.range g.count).foldl (fun r t =>
    let x : Conv × Nat := match top[t]? with
      | some x => (⟨if g.region.fmt = 1 || int then x.2.1 else (encodeVal .f32 x.1).code, false, false, !int && vIsNan x.1⟩, x.2.2)
      | none => (⟨if int then 0x80000000 else 0xFF800000, false, false, false⟩, 0xFFFFFFFF)
    let r := glnPut g.out (2 * t, row.1, row.2) x.1 bad (ev t) blk m r
    glnPut g.out (2 * t + 1, row.1, row.2) ⟨x.2, false, false, false⟩ bad (ev t) blk m r) r
  if bad then (r.1, poisonRowOf g.out row.1 row.2 blk m r.2) else r

/-- The bytes of a row, bits beyond its last element read as 0 (R97) (log entry 64). -/
def rowBits (c : Chip) (m : Cmd) (d : Desc) (i1 i2 : Nat) : List Byte :=
  leBytes d.rowBytes (leNat (opBytes c m d (d.rowOff i1 i2) d.rowBytes) % 2 ^ (d.d0 * d.w))

/-- CHECKSUM of one row (R300) (log entry 64). -/
def GlnOp.sumRow (g : GlnOp) (c0 : Chip) (row : Nat × Nat) (r : Cmd × Chip) : Cmd × Chip :=
  let m := r.1
  let bad := (opBad c0 m g.region (g.region.rowOff row.1 row.2) g.region.rowBytes).isSome
  let blk := g.blk c0 m (0, row.1, row.2)
  let r := glnPut g.out (row.1, row.2, 0) ⟨crc32c (rowBits c0 m g.region row.1 row.2), false, false, false⟩ bad (glnEv c0 0 0 0) blk m r
  if bad then (r.1, poisonRowOf g.out row.2 0 blk m r.2) else r

/-! ### Units -/

/-- What one item of a part does. -/
def GlnOp.item (g : GlnOp) (c0 : Chip) (i : Nat × Nat × Nat) (r : Cmd × Chip) : Cmd × Chip :=
  match g.op with
  | 1 => g.scoreRow c0 i r
  | 3 => g.gatherEl c0 i r
  | 4 => g.scatterEl c0 i r
  | 7 => if g.kind = 6 then g.quantBlk c0 i r else g.updateEl c0 i r
  | 8 => g.fillEl c0 i r
  | 9 => g.copyEl c0 i r
  | _ => r

/-- What the command's end does (R308) (log entry 65). -/
def GlnOp.finish (g : GlnOp) (c0 : Chip) (r : Cmd × Chip) : Cmd × Chip :=
  match g.op with
  | 2 => g.accAll c0 r
  | 3 => g.gatherRest c0 r
  | 5 => g.reduceAll c0 r
  | 6 => g.region.rows.foldl (fun r row => g.topRow c0 row r) r
  | 10 => g.region.rows.foldl (fun r row => g.sumRow c0 row r) r
  | _ => r

/-- The parts of operands that an item reads: what its elements come from. -/
def GlnOp.itemReads (g : GlnOp) (c : Chip) (m : Cmd) (i : Nat × Nat × Nat) : List (Desc × Nat × Nat) :=
  match g.op with
  | 1 => g.rowReads i.2.1 i.2.2 ++ (List.range g.inp.d1).map (fun t => rowPart g.inp t i.2.2)
  | 3 => elPart g.region i :: [rowPart g.aux 0 0]
  | 4 => rowPart g.aux 0 0 :: (match g.posOf c m i.2.1 with
    | some p => let rr := g.inp.row2 p; [elPart g.inp (i.1, rr.1, rr.2)]
    | none => [])
  | 7 => if g.kind = 6 then (g.blockEls i).map (elPart g.inp)
         else elPart g.region i :: ((if g.usesIn then [elPart g.inp i] else []) ++ (if g.usesAux then [elPart g.aux i] else []))
  | 8 => [elPart g.inp (0, 0, 0)]
  | _ => elPart g.region i :: (if g.op = 2 && g.region.scaled then [elPart g.aux (i.1 / g.region.block, i.2.1, i.2.2)] else [])

/-- The parts that the command's end reads beside those of its items. -/
def GlnOp.endReads (g : GlnOp) : List (Desc × Nat × Nat) :=
  if g.op = 2 then g.inp.rows.map (fun r => rowPart g.inp r.1 r.2) else if g.op = 3 then [rowPart g.aux 0 0] else []

/-- The ADDR of the command's first output element: OUT, or REGION where it writes REGION. -/
def GlnOp.outAddr (g : GlnOp) : Nat := if g.op = 4 || g.op = 7 || g.op = 8 || g.op = 11 then g.region.addr else g.out.addr

/-- What a frame part means for the placement of its frame (R321, R328). -/
def GlnOp.partPlace (g : GlnOp) (vp : Nat) (m : Cmd) (c : Chip) : Chip :=
  match m.pages.find? (fun p => p.vp == vp && p.ok) with
  | some p =>
    let c := partHeat p.frame (c.touch (p.frame * 65536))
    if g.op = 4 || g.op = 7 || g.op = 8 then withdrawMig p.frame c else c
  | none => c

/-- A frame part, or the command's end (R306, R308) (log entry 65). -/
def GlnOp.unit (g : GlnOp) (ps : List (Nat × Nat)) (u : Nat) (m : Cmd) (c : Chip) : UOut :=
  let its := if u < ps.length then g.items.filter (fun i => g.partOf i == nth ps u (0, 0)) else []
  let reads := if u < ps.length then its.flatMap (g.itemReads c m) else g.endReads
  match partsBadWord c m reads with
  | some (h, w) => .parity h w g.outAddr c
  | none =>
    let c := if u = 0 then
        let c := (g.cleanFrames c m).foldl (fun c f => cleanFrame m.half f c) c
        if g.rangeErr c m then c.rput (g.blk c m (0, 0, 0)) INF_GLN_ERR_INDEX_RANGE 1 else c
      else c
    let c0 := c
    let r := takeAll reads m c
    let r := if u < ps.length then its.foldl (fun r i => g.item c0 i r) r else g.finish c0 r
    let b := g.blk c m (nth its 0 (0, 0, 0))
    .ok r.1 (if u < ps.length then g.partPlace (nth ps u (0, 0)).1 m (r.2.rcount b INF_GLN_PARTS 1) else r.2)

/-- A Gleaner command runs at most `limit` units; unit counters of places in and out of the stacks are left open (log entry 65). -/
def glnRun (limit : Nat) (m : Cmd) (c : Chip) : Chip :=
  let g := glnOp m
  let ps := g.parts
  let cnt := fun (b : Nat) => [(b, INF_GLN_RD_UNITS), (b, INF_GLN_WR_UNITS), (b, INF_GLN_CARRIED), (b, INF_GLN_CYC_BUSY), (b, INF_GLN_CYC_YIELD)]
  let c := c.cycles ((cnt (g.blk c m (0, 0, 0))) ++ [(INF m.half 0, INF_GDS_FALLBACK_UNITS)])
  runCmd ⟨5, m.half, 0⟩ g.outAddr (ps.length + 1) (g.unit ps) (fun m c => endRes c m []) limit m c

/-- A Gleaner command runs to its end. -/
def glnStep (op q seq : Nat) (c : Chip) : Chip :=
  match running q seq 5 op c with
  | some m => glnRun (runFuel ((glnOp m).parts.length + 1)) m c
  | none => c

/-- SCORE (R295). -/
def scoreStep (q seq : Nat) (c : Chip) : Chip := glnStep 1 q seq c
/-- VALUE_ACC (R295). -/
def valueAccStep (q seq : Nat) (c : Chip) : Chip := glnStep 2 q seq c
/-- GATHER of the Gleaners (R298). -/
def gleanerGatherStep (q seq : Nat) (c : Chip) : Chip := glnStep 3 q seq c
/-- SCATTER of the Gleaners (R298). -/
def gleanerScatterStep (q seq : Nat) (c : Chip) : Chip := glnStep 4 q seq c
/-- BLOCK_REDUCE (R296). -/
def blockReduceStep (q seq : Nat) (c : Chip) : Chip := glnStep 5 q seq c
/-- TOPK (R297). -/
def topkStep (q seq : Nat) (c : Chip) : Chip := glnStep 6 q seq c
/-- UPDATE (R299). -/
def updateStep (q seq : Nat) (c : Chip) : Chip := glnStep 7 q seq c
/-- FILL of the Gleaners (R300). -/
def gleanerFillStep (q seq : Nat) (c : Chip) : Chip := glnStep 8 q seq c
/-- COPY of the Gleaners (R300). -/
def gleanerCopyStep (q seq : Nat) (c : Chip) : Chip := glnStep 9 q seq c
/-- CHECKSUM (R300). -/
def checksumStep (q seq : Nat) (c : Chip) : Chip := glnStep 10 q seq c
/-- SCRUB (R300): every unit of REGION is read and handled as R279 gives. -/
def scrubStep (q seq : Nat) (c : Chip) : Chip := glnStep 11 q seq c

end Sys2Proof.Machine
end

