-- ==== Sys2Proof/Machine/Harrow.lean ====
section
/-! DEFINITION. The Harrow as it runs a CHAIN command (R191 to R212). -/

namespace Sys2Proof.Machine

open Sys2Proof

/-- Steps a row takes, counting both phases of a held one. -/
def ChainBlk.rowSteps (k : ChainBlk) : Nat := if k.hold.isSome then 2 * k.vecs else k.vecs

/-- Steps of the command (R192, R201). -/
def ChainBlk.steps (k : ChainBlk) : Nat := k.rowSteps * k.shape.2.1 * k.shape.2.2

/-- The stages of step i: all of them, or those of its phase (R201). -/
def ChainBlk.stagesAt (k : ChainBlk) (i : Nat) : List (Nat × Stage) :=
  match k.hold with
  | none => k.numbered
  | some h => if i % k.rowSteps < k.vecs then k.numbered.take (h + 1) else k.numbered.drop (h + 1)

/-- Where step i stands. -/
def ChainBlk.at_ (k : ChainBlk) (i : Nat) : StepAt :=
  let x := i % k.rowSteps % k.vecs
  let r := i / k.rowSteps
  ⟨x, r % k.shape.2.1, r / k.shape.2.1, min 256 (k.shape.1 - 256 * x), x == 0, x + 1 == k.vecs, x⟩

/-- Step i belongs to phase 2 of a held row. -/
def ChainBlk.phase2 (k : ChainBlk) (i : Nat) : Bool := k.hold.isSome && i % k.rowSteps ≥ k.vecs

/-- The kept register of the HOLD stage (R201). -/
def ChainBlk.kept (k : ChainBlk) : Nat := match k.hold with
  | some h => (nth k.stages h ⟨0, 0, 0, 0, 0, 0, 0⟩).b4 % 32
  | none => 0

/-- The row total of the HOLD stage took in poison. -/
def ChainBlk.holdPoison (k : ChainBlk) (h : HState) : Bool :=
  match k.hold with
  | some i => (kget (fun _ => ({} : Lane)) h.run i).poison
  | none => false

/-- The Harrow's state as step i begins (R201). -/
def ChainBlk.enter (k : ChainBlk) (i : Nat) (h : HState) : HState :=
  let p := k.at_ i
  if k.phase2 i then
    let h := if p.first then { h with rowPoison := k.holdPoison h } else h
    h.setReg k.kept (nth h.buf p.x {})
  else if p.first then { h with buf := [], rowPoison := false } else h

/-- The ADDR of the first output element of the step or of its row. -/
def ChainBlk.outAddr (k : ChainBlk) (i : Nat) : Nat :=
  let p := k.at_ i
  match k.stages.find? (fun s => s.kind == 0xA) with
  | some s =>
    let d := k.dest s
    if s.f 0 then d.addr + d.rowOff p.z 0 + (elemSpan d p.y).1
    else d.addr + d.rowOff p.y p.z + (if k.phase2 i || k.hold.isNone then d.w * (256 * p.x) / 8 else 0)
  | none => 0

/-- One step (R193). -/
def chainUnit (k : ChainBlk) (i : Nat) (m : Cmd) (c : Chip) : UOut :=
  let p := k.at_ i
  let ss := (k.stagesAt i).filter (fun s => !s.2.once || p.first)
  let reads := stepReads k p ss
  match needBad m (partNeeds false reads ++ partNeeds true (stepWrites k p ss)) with
  | some pg => .stall pg c
  | none =>
    match reads.findSome? (fun x => match opBad c m x.1 x.2.1 x.2.2 with
        | some (.parity h o) => some (h, o)
        | _ => none) with
    | some (h, o) => .parity h o (k.outAddr i) c
    | none =>
      let r := takeAll reads m c
      let h := k.enter i (nth r.1.har 0 {})
      let x := runStages r.2 r.1 r.1 k [] p p.first ss h r
      .ok { x.2.1 with har := [x.1] } (x.2.2.rcount (HAR m.half m.inst) HAR_STEPS 1)

/-- A CHAIN runs at most `limit` of its steps. -/
def chainRun (limit : Nat) (m : Cmd) (c : Chip) : Chip :=
  let k := chainOf m
  let b := HAR m.half m.inst
  let c := c.cycles [(b, HAR_CYC_BUSY), (b, HAR_CYC_STALL_IN), (b, HAR_CYC_STALL_OUT), (b, HAR_CYC_STALL_EXT)]
  runCmd m.engine (k.outAddr 0) k.steps (chainUnit k) (fun m c => endRes c m []) limit m c

/-- CHAIN (R193). -/
def chainStep (q seq : Nat) (c : Chip) : Chip :=
  match running q seq 2 1 c with
  | some m => chainRun (runFuel (chainOf m).steps) m c
  | none => c

end Sys2Proof.Machine
end

