-- ==== Sys2Proof/Machine/Checks.lean ====
section
/-! DEFINITION. The checks of a command at acceptance (R67, R68, R73 and each engine's chapter), the extents it reads and writes
(R132, R175, R206, R257, R312, R462) and the pages it needs (R342). -/

namespace Sys2Proof.Machine

open Sys2Proof

/-! ### Extents -/

/-- An extent of a command: a descriptor, whether it is read or written, and bit 32 of ADDR as the command holds it. -/
structure Use where
  d : Desc
  rd : Bool
  wr : Bool
  rep : Nat
  deriving DecidableEq, Repr

/-- A descriptor used when b holds. -/
def useIf (b rd wr : Bool) (d : Desc) : List Use := if b && d.present then [⟨d, rd, wr, bits d.addr 32 1⟩] else []

/-- The same descriptor placed on half h of a command that counts East as its running half (R138). -/
def Desc.onHalf (d : Desc) (h : Nat) : Desc := { d with addr := setBits d.addr 32 1 h }

/-- The two shares of a descriptor in the split layout (R138): half its columns or half its rows on each half. -/
def shares (cols rd wr : Bool) (d : Desc) : List Use :=
  let e := if cols then { d with d0 := d.d0 / 2 } else { d with d1 := d.d1 / 2 }
  [⟨e.onHalf 0, rd, wr, bits d.addr 32 1⟩, ⟨e.onHalf 1, rd, wr, bits d.addr 32 1⟩]

/-- Extents of a GEMM or GEMM_SPLIT (R132, R138, R206). -/
def furUses (m : Cmd) : List Use :=
  let f := furOp m
  let split := f.split
  let b := fun (rd : Bool) (d : Desc) => if split then shares false rd false d else useIf true rd false d
  let cu := if split then shares true f.accum true f.cc else useIf true f.accum true f.cc
  let sc := m.op == 1
  let epi := if f.epi then (epiOf m f.cls.2).uses.filter (fun u => u.2.1 != 2) else []
  useIf true true false f.a ++ b true f.b ++ cu ++ useIf (sc && f.a.scaled) true false f.asc ++
    (if sc && f.b.scaled then b true f.bsc else []) ++
    epi.flatMap (fun u => if u.2.2 && split && u.1.space == 1 then shares true false true u.1 else useIf true (!u.2.2) u.2.2 u.1)

/-- Extents of an ATTN (R175). -/
def attnUses (m : Cmd) : List Use :=
  let a := attnOp m
  useIf true true false a.q ++ useIf true true false a.k ++ useIf true true false a.v ++ useIf true false true a.o ++
    useIf true false true a.side ++ useIf (a.kind ≥ 3) true false a.mask ++ useIf a.k.scaled true false a.ks ++
    useIf a.v.scaled true false a.vs ++ useIf a.q.scaled true false a.qs

/-- Extents of a DMA mover command (R257). -/
def dmaUses (m : Cmd) : List Use :=
  let o := dmaOp m
  match m.op with
  | 1 => useIf true true false o.src ++ useIf true false true o.dst ++ useIf o.src.scaled true false o.ssc ++ useIf o.dst.scaled false true o.dsc
  | 2 => useIf true false true o.dst
  | 5 =>
    let t := parseDesc m.bytes 16 0
    useIf true true true t ++ useIf (t.count != 1) true false (parseDesc m.bytes 96 1)
  | _ => useIf true true false o.src ++ useIf true true false o.idx ++ useIf true false true o.dst

/-- Extents of a Gleaner command (R294, R299, R312). -/
def glnUses (m : Cmd) : List Use :=
  let g := glnOp m
  let r := fun rd wr => useIf true rd wr g.region
  match m.op with
  | 1 | 2 => r true false ++ useIf true true false g.inp ++ useIf true false true g.out ++ useIf g.region.scaled true false g.aux
  | 3 => r true false ++ useIf true false true g.out ++ useIf true true false g.aux
  | 4 => r false true ++ useIf true true false g.inp ++ useIf true true false g.aux
  | 7 => r (g.kind != 6) true ++ useIf g.usesIn true false g.inp ++ useIf (g.usesAux || g.kind == 6) g.usesAux (g.writesAux || g.kind == 6) g.aux
  | 8 => r false true ++ useIf true true false g.inp
  | 11 => r true false
  | _ => r true false ++ useIf true false true g.out

/-- Extents of a command's descriptors. -/
def cmdUses (m : Cmd) : List Use :=
  match m.cls with
  | 1 => if m.op = 3 then attnUses m else furUses m
  | 2 => (chainOf m).uses.flatMap (fun u => useIf true (!u.2.2) u.2.2 u.1)
  | 4 => dmaUses m
  | 5 => glnUses m
  | 7 =>
    let s := parseDesc m.bytes 16 0
    if m.op ≤ 5 then useIf true true false s ++ useIf true false true (parseDesc m.bytes 64 1)
    else useIf (m.op == 16) true false s
  | _ => []

/-- Extents that the scoreboard holds (R257): those of REGION of WIN_OPEN are not declared. -/
def sbUses (m : Cmd) : List Use := if m.cls = 7 && m.op == 16 then [] else cmdUses m

/-- No written extent overlaps a read one (R173, R301). -/
def disjointUses (us : List Use) : Bool :=
  us.all (fun w => !w.wr || us.all (fun r => r.wr || !r.rd || !w.d.overlaps r.d))

/-! ### Parameters -/

/-- The range of a command's queue-control fields. -/
def Cmd.qField (m : Cmd) : Nat := bits (m.par 16 4) 0 20

/-- GEMM and GEMM_SPLIT (R73, R121, R122, R127, R128, R130, R132, R137, R140, R150). -/
def furOk (c : Chip) (m : Cmd) : Bool :=
  let f := furOp m
  let slots := m.par 194 2
  let sp := m.op == 2
  let one := f.alphaBits == 0 || f.alphaBits == 0x3F800000
  let sb := fun (d : Desc) => d.space == 1
  let shape := f.a.dims == 2 && f.b.dims == 2 && f.cc.dims == 2 && f.a.d0 == f.b.d0 && f.cc.d0 == f.b.d1 && f.cc.d1 == f.a.d1
  let descs := f.a.ok true && f.b.ok true && f.cc.ok true && sb f.a && sb f.b && sb f.cc && (f.epi || !f.cc.scaled)
  let scales := !sp && f.a.scalesOk f.asc && f.b.scalesOk f.bsc && (!f.a.scaled || sb f.asc) && (!f.b.scaled || sb f.bsc)
  let cls := furClass f.a.fmt f.a.scaled
  let int := f.cls.2 && !sp
  let formats :=
    if sp then
      let want := if f.level = 3 then 1 else 0
      (f.level == 3 || f.level == 6 || f.level == 7 || f.level == 8) && f.a.fmt == want && f.b.fmt == want && f.cc.fmt == want &&
        !f.a.scaled && !f.b.scaled && (!f.epi || f.level == 3)
    else
      f.level == 0 && cls.isSome && cls == furClass f.b.fmt f.b.scaled && scales &&
        (f.epi || (if int then f.cc.fmt == 0xA || f.cc.fmt == 1 else f.cc.fmt == 1 || f.cc.fmt == 2 || f.cc.fmt == 3)) &&
        (!int || one || (!f.epi && f.cc.fmt != 0xA))
  let pinned := match m.queue? with
    | some q => (c.queue q).pinHalf != 0
    | none => false
  let us := furUses m
  let cw := us.filter (fun u => u.wr && u.d.idx == 2)
  let rd := us.filter (fun u => u.rd && !u.wr && (u.d.idx == 0 || u.d.idx == 1 || u.d.idx == 3 || u.d.idx == 4))
  ((m.len == 4 && slots == 0) || (m.len == 7 && slots == 3)) && f.tandemF != 3 && descs && shape && formats && !(f.accum && f.epi) &&
    (!f.split || (f.cc.d0 % 1024 == 0 && !pinned)) && cw.all (fun w => rd.all (fun r => !w.d.overlaps r.d)) &&
    (!f.epi || (epiOf m int).ok)

/-- ATTN (R172, R173, R176 to R178). -/
def attnOk (m : Cmd) : Bool :=
  let a := attnOp m
  let sp := fun (d : Desc) => d.space == 0 || d.space == 1
  let scale := fun (d s : Desc) => d.scalesOk s && (!d.scaled || s.space == d.space)
  let cls := furClass a.q.fmt a.q.scaled
  let vf := match a.v.f with
    | .e5m2 | .e4m3 | .e3m2 | .e2m3 | .e2m1 | .s4 | .int8 | .int4 | .bf16 | .f16 => true
    | _ => false
  let mask := match a.kind with
    | 3 => a.mask.ok true && sp a.mask && !a.mask.scaled && a.mask.fmt == 0xA && a.mask.dims ≥ 2 && a.mask.d1 == ceilDiv a.r 128 &&
        (a.mask.d2 == 1 || a.mask.d2 == a.hq)
    | 4 => a.mask.ok true && sp a.mask && !a.mask.scaled && a.mask.fmt == 0xC && a.mask.d0 == ceilDiv a.n 8 && a.mask.d1 == a.r &&
        (a.mask.d2 == 1 || a.mask.d2 == a.hq)
    | k => decide (k ≤ 2)
  (m.len == 6 || (m.len == 5 && !a.q.scaled)) && (a.d == 64 || a.d == 128 || a.d == 256) &&
    a.q.ok true && a.q.space == 1 && a.k.ok true && sp a.k && a.v.ok true && sp a.v && a.o.ok true && a.o.space == 1 && !a.o.scaled &&
    cls.isSome && cls == furClass a.k.fmt a.k.scaled && vf && (a.o.fmt == 1 || a.o.fmt == 2 || a.o.fmt == 3) &&
    a.k.d0 == a.d && a.v.d0 == a.d && a.v.d1 == a.n && a.v.d2 == a.k.d2 && a.o.sameShape a.q && a.hq % a.k.d2 == 0 &&
    a.n ≤ 16777216 && a.pos0 + a.r ≤ 2 ^ 32 && (a.side.present || !a.stats) &&
    (!a.side.present || (a.side.ok true && a.side.space == 1 && !a.side.scaled && a.side.fmt == 0xA && a.side.d0 == 4 * a.r && a.side.d1 == a.hq && a.side.d2 == 1)) &&
    scale a.q a.qs && scale a.k a.ks && scale a.v a.vs && mask && disjointUses (attnUses m)

/-- Bytes of a thread's registers per block fit an empty core (R223, R229). -/
def launchFits (regs threads : Nat) : Bool := ceilDiv regs 8 * 8 * 32 * ceilDiv threads 32 ≤ 65536

/-- LAUNCH (R73, R223). -/
def launchOk (m : Cmd) : Bool :=
  let g := (List.range 3).map (fun i => m.par (36 + 4 * i) 4)
  let b := (List.range 3).map (fun i => m.par (48 + 2 * i) 2)
  let k := (List.range 3).map (fun i => m.par (54 + i) 1)
  let prod := fun (l : List Nat) => l.foldl (· * ·) 1
  let regs := m.par 57 1
  m.len == 1 && prod b ≥ 1 && prod b ≤ 1024 && prod k ≥ 1 && prod k ≤ 16 && prod g ≥ 1 && prod g ≤ 2 ^ 32 - 1 &&
    (List.range 3).all (fun i => nth g i 0 % nth k i 1 == 0) && regs ≥ 16 && regs ≤ 255 && m.par 60 4 ≤ 262144 && m.par 32 4 ≤ 4096 &&
    m.par 16 8 % 256 == 0 && launchFits regs (prod b)

/-- DMA mover commands (R72, R73, R103, R573). -/
def dmaOk (m : Cmd) : Bool :=
  let o := dmaOp m
  let local_ := fun (d : Desc) => d.space != 2
  let one := !(o.src.space == 2 && o.dst.space == 2)
  match m.op with
  | 1 =>
    (m.len == 3 || (m.len == 2 && !o.src.scaled && !o.dst.scaled)) && o.src.ok true && o.dst.ok true && one && o.src.count == o.dst.count &&
      o.src.scalesOk o.ssc && o.dst.scalesOk o.dsc && (!o.src.scaled || local_ o.ssc) && (!o.dst.scaled || local_ o.dsc)
  | 2 => m.len == 1 && o.dst.ok true && !o.dst.scaled
  | 5 =>
    let t := parseDesc m.bytes 16 0
    let s := parseDesc m.bytes 96 1
    m.len == 2 && t.ok true && !t.scaled && t.space != 1 && (t.fmt == 0xA || t.fmt == 1 || t.fmt == 3) && m.par 48 1 ≤ 6 &&
      (t.fmt == 0xA || m.par 48 1 == 0) &&
      (t.count == 1 || (!bitAt (m.par 49 1) 0 && s.ok true && !s.scaled && local_ s && s.fmt == t.fmt && s.count == t.count))
  | _ =>
    m.len == 2 && o.src.ok true && o.dst.ok true && o.idx.ok true && !o.src.scaled && !o.dst.scaled && !o.idx.scaled && one &&
      local_ o.idx && o.idx.fmt == 0xA && o.idx.dims == 1 && o.src.d0 == o.dst.d0 &&
      o.idx.d0 == (if m.op = 3 then o.dst.nrows else o.src.nrows)

/-- A REGION row of SCORE or VALUE_ACC lies in one line (R294). -/
def GlnOp.rowsOk (g : GlnOp) : Bool :=
  g.region.rowBytes ≤ 256 && g.region.rows.all (fun r =>
    let a := bits g.region.addr 0 57 + g.region.rowOff r.1 r.2
    a / 256 == (a + g.region.rowBytes - 1) / 256)

/-- Formats F32, F16 and BF16. -/
def isF16or32 (f : Nat) : Bool := f == 1 || f == 2 || f == 3

/-- Gleaner commands (R294, R299, R301) (log entry 64). -/
def glnOk (m : Cmd) : Bool :=
  let g := glnOp m
  let r := g.region
  let near := fun (d : Desc) => d.space == 0 || d.space == 1
  let plain := fun (d : Desc) => d.ok true && near d && !d.scaled
  let isOut := fun (d : Desc) (a b c : Nat) => d.d0 == a && d.d1 == b && d.d2 == c
  let idx := plain g.aux && g.aux.fmt == 0xA && g.aux.dims == 1
  let any := r.ok true && r.space == 0 && [g.inp, g.out, g.aux].all (fun d => !d.present || d.space != 2)
  let unscaled := !r.scaled
  let score := (match r.f with
      | .e5m2 | .e4m3 | .int8 => true
      | .bf16 | .f16 => unscaled
      | _ => false) && g.rowsOk && (unscaled || (r.scaleFits g.aux && near g.aux))
  m.len == 3 && any && disjointUses (glnUses m) &&
  (match m.op with
   | 1 => score && plain g.inp && furClass g.inp.fmt false == furClass r.fmt r.scaled && isOut g.inp r.d0 g.inp.d1 r.d2 && g.inp.d1 ≤ 16 &&
      plain g.out && g.out.fmt == 1 && isOut g.out r.d1 g.inp.d1 r.d2
   | 2 => score && plain g.inp && (g.inp.fmt == 3 || g.inp.fmt == 5) && isOut g.inp r.d1 g.inp.d1 r.d2 && g.inp.d1 ≤ 16 &&
      plain g.out && g.out.fmt == 1 && isOut g.out r.d0 g.inp.d1 r.d2
   | 3 => unscaled && r.dims == 2 && idx && plain g.out && g.out.d0 == r.d0 && g.out.nrows == g.aux.d0
   | 4 => unscaled && r.dims == 2 && idx && plain g.inp && g.inp.d0 == r.d0 && g.inp.nrows == g.aux.d0
   | 5 =>
      let int := r.fmt == 0xA || r.fmt == 0xB || r.fmt == 0xC
      unscaled && (int || (r.fmt ≥ 1 && r.fmt ≤ 5)) && g.count ≥ 1 && g.count ≤ 2 ^ 24 && g.kind ≤ 2 && plain g.out &&
        g.out.fmt == (if int then 0xA else 1) && isOut g.out (ceilDiv r.d0 g.count) r.d1 r.d2
   | 6 => unscaled && (isF16or32 r.fmt || r.fmt == 0xA) && g.count ≥ 1 && g.count ≤ 256 && plain g.out && g.out.fmt == 0xA &&
      isOut g.out (2 * g.count) r.d1 r.d2
   | 7 =>
      let same := fun (d : Desc) => plain d && d.sameShape r
      if g.kind = 6 then
        r.scaled && r.scaleFits g.aux && near g.aux && same g.inp && (g.inp.fmt == 1 || g.inp.fmt == 3)
      else
        g.kind ≤ 5 && unscaled && isF16or32 r.fmt && (!g.usesIn || (same g.inp && isF16or32 g.inp.fmt)) &&
          (!g.usesAux || (same g.aux && (if g.kind = 2 then g.aux.fmt == 1 || g.aux.fmt == 3 else isF16or32 g.aux.fmt)))
   | 8 => unscaled && plain g.inp && g.inp.fmt == r.fmt && g.inp.dims == 1 && g.inp.d0 == 1
   | 9 => unscaled && plain g.out && g.out.space == 0 && g.out.sameShape r
   | 10 => plain g.out && g.out.fmt == 0xA && isOut g.out r.d1 r.d2 1
   | _ => true)

/-- RANK.REMOTE (R74). -/
def Cmd.remote (m : Cmd) : Bool := bitAt (m.par 20 4) 31

/-- Yoke commands (R367, R378). -/
def yokeOk (m : Cmd) : Bool :=
  let tk := m.par 40 1
  let localOnly := m.op == 7 || m.op == 8 || m.op == 9 || m.op == 0xB
  m.len == 1 && !(localOnly && m.remote) &&
    (match m.op with
     | 6 => tk ≥ 1 && tk ≤ 4
     | 9 => (tk == 0 || tk == 4) && m.par 52 8 != 0
     | _ => true)

/-! ### Collectives -/

/-- A group entry (R460). -/
structure Group where
  n : Nat
  me : Nat
  members : Nat
  alg : Nat
  ctx : Nat
  deriving DecidableEq, Repr

/-- The group table's entry (R460), of the previous configuration or the one in force; none unless it is valid and backed (R569). -/
def groupAt (c : Chip) (prev : Bool) (g : Nat) : Option Group :=
  let base := cfgAt c prev AIH AIH_GROUP_BASE_CUR_BASE * 4096
  let a := base + 32 * g
  if base = 0 || !backed a 32 then none else
  let n := c.rdLe a 4
  let mem := c.rdLe (a + 8) 8
  if bitAt (c.rdLe (a + 17) 1) 0 && n ≥ 1 && n ≤ 1048576 && backed mem (4 * n) then
    some ⟨n, c.rdLe (a + 4) 4, mem, c.rdLe (a + 16) 1, c.rdLe (a + 18) 2⟩
  else none

/-- The group table's entry as a command's configuration gives it (R62). -/
def groupOf (c : Chip) (m : Cmd) (g : Nat) : Option Group := groupAt c m.usesPrev g

/-- The logical rank of member i of a group. -/
def Group.rank (g : Group) (c : Chip) (i : Nat) : Nat := bits (c.rdLe (g.members + 4 * i) 4) 0 20

/-- The members' ranks in list order. -/
def Group.ranks (g : Group) (c : Chip) : List Nat := (List.range g.n).map (g.rank c)

/-- Bytes of the staging areas (R464): the running half's Seedbed area, and the frame-space area. -/
def stageSizes (c : Chip) (h : Nat) : Nat × Nat :=
  (c.rget AIH (if h = 0 then AIH_STAGE_SBD_E_SIZE else AIH_STAGE_SBD_W_SIZE) * 65536, c.rget AIH AIH_STAGE_FRAME_SIZE_SIZE * 65536)

/-- Collectives (R460, R462, R464). -/
def collOk (c : Chip) (m : Cmd) : Bool :=
  let s := parseDesc m.bytes 16 0
  let d := parseDesc m.bytes 64 1
  match groupOf c m (m.par 96 2) with
  | none => false
  | some g =>
    let plain := fun (x : Desc) => x.ok true && !x.scaled && x.dims == 1 && x.space != 2
    let reduce := m.op ≤ 2
    let size := match m.op with
      | 2 => d.d0 * g.n == s.d0
      | 3 => d.d0 == s.d0 * g.n
      | 5 => d.d0 == s.d0 && s.d0 % g.n == 0
      | _ => d.d0 == s.d0
    let st := stageSizes c m.half
    m.len == 2 && plain s && plain d && s.fmt == d.fmt && size && m.par 100 1 ≤ 2 && (!reduce || isF16or32 s.fmt || s.fmt == 0xA) &&
      (m.op != 4 || (g.ranks c).contains (m.par 104 4)) && g.me < g.n && g.alg ≤ 2 && (d.rowBytes ≤ st.1 || d.rowBytes ≤ st.2)

/-- Aihal commands (R73, R269, R454). -/
def aihalOk (c : Chip) (m : Cmd) : Bool :=
  if m.op ≤ 5 then collOk c m
  else
    let r := parseDesc m.bytes 16 0
    m.len == 1 && (m.op == 17 || (r.ok true && !r.scaled && r.dims == 1 && r.space != 2 && !(r.space == 1 && bitAt (m.par 50 1) 2)))

/-- Surveyor hints (R73, R324). -/
def hintOk (m : Cmd) : Bool :=
  m.len == 1 && m.par 16 8 % 65536 == 0 && m.par 24 8 % 65536 == 0 && m.par 24 8 != 0 &&
    (m.op != 1 || (m.par 32 1 ≥ 1 && m.par 32 1 ≤ 4))

/-! ### Queue control and management -/

/-- Queue-control commands (R56, R73, R75, R358). -/
def qctlOk (m : Cmd) : Bool :=
  let own := match m.queue? with
    | some q => m.qField == q
    | none => false
  (m.op == 0 || m.len == 1) &&
  (match m.op with
   | 1 | 2 => m.par 26 1 ≤ 1
   | 3 => !(own && m.par 20 4 == m.seq)
   | 5 | 6 | 7 => !(m.queue?.isSome && m.par 24 2 == m.ctx)
   | 8 => m.par 32 8 % 65536 == 0 && m.par 40 8 % 65536 == 0
   | _ => true)

/-- Slices that a SELFTEST_SLICE may name (R523): the number of INDEX values of each KIND. -/
def sliceCount : Nat → Nat
  | 0 => 32 | 1 => 32 | 2 => 64 | 3 => 16 | 4 => 16 | 5 => 16 | 6 => 16 | 7 => 256 | 8 => 24 | 9 => 6168 | 10 => 24672 | _ => 0

/-- Management commands (R73, R431, R491, R506, R507, R512, R523, R544). -/
def mgmtOk (m : Cmd) : Bool :=
  (match m.op with
   | 3 => m.len ≥ 2 && m.len ≤ 5
   | _ => m.len == 1) &&
  (match m.op with
   | 2 => m.par 40 2 ≥ 1 && m.par 40 2 ≤ 64 && m.par 32 8 % 4 == 0 && m.par 32 8 + 4 * m.par 40 2 ≤ 0xF000000
   | 3 => m.par 40 2 ≥ 1 && m.par 40 2 ≤ 64 && m.par 32 8 % 4 == 0 && m.par 32 8 + 4 * m.par 40 2 ≤ 0xF000000 &&
      m.len == 1 + ceilDiv (4 * m.par 40 2) 64
   | 4 => m.par 32 1 ≤ 2
   | 5 => m.par 32 4 ≥ 1200 && m.par 32 4 ≤ 2400 && m.par 36 4 ≥ 2 && m.par 36 4 ≤ 200 && m.par 40 1 ≤ 100
   | 6 => m.par 33 1 ≤ 1 && m.par 34 2 < sliceCount (m.par 32 1)
   | 8 | 9 => m.par 44 1 ≤ 2 && m.par 45 1 ≤ 1
   | 10 =>
      let h := m.par 33 1
      let i := m.par 34 1
      (match m.par 32 1 with
       | 0 => true
       | 1 => h ≤ 1 && i ≤ 113
       | 2 => i ≤ 8 && h == i % 2
       | 3 => i ≤ 1 && h == i
       | _ => false)
   | 11 => m.par 32 1 ≤ 1
   | _ => true)

/-- The opcodes of each class (R73). -/
def opKnown (cls op : Nat) : Bool :=
  match cls with
  | 1 => op ≥ 1 && op ≤ 3
  | 2 => op == 1
  | 3 => op == 1
  | 4 => op ≥ 1 && op ≤ 5
  | 5 => op ≥ 1 && op ≤ 0xB
  | 6 => op ≥ 1 && op ≤ 0xB
  | 7 => (op ≥ 1 && op ≤ 5) || op == 0x10 || op == 0x11
  | 8 => op ≥ 1 && op ≤ 3
  | 0xE => op ≤ 8
  | 0xF => op ≥ 1 && op ≤ 0xC
  | _ => false

/-- A command's parameters pass every check that makes it MALFORMED otherwise (R68); on a management path only classes 0xE and
0xF are accepted (R88). -/
def paramsOk (c : Chip) (m : Cmd) : Bool :=
  opKnown m.cls m.op && (m.queue?.isSome || m.cls ≥ 0xE) &&
  (match m.cls with
   | 1 => if m.op = 3 then attnOk m else furOk c m
   | 2 => m.len == 5 && (chainOf m).ok
   | 3 => launchOk m
   | 4 => dmaOk m
   | 5 => glnOk m
   | 6 => yokeOk m
   | 7 => aihalOk c m
   | 8 => hintOk m
   | 0xE => qctlOk m
   | _ => mgmtOk m)

/-! ### Access -/

/-- The segment check of an extent (R70, R138, R250). -/
def Use.segErr (u : Use) (x : CtxDesc) (h : Nat) : Option Res :=
  if u.d.space = 1 then
    (segCheck x (u.d.sbdHalf h) (bits u.d.addr 0 28) u.d.span u.rep).map (fun r => accessRes r.2 r.1 u.d.idx)
  else none

/-- The half that counts as running for a command's extents: East for one in the split layout (R138). -/
def Cmd.baseHalf (m : Cmd) : Nat := if m.both then 0 else m.half

/-- FAULT_ACCESS found at acceptance (R26, R75, R250, R358, R460). -/
def accessErr (c : Chip) (m : Cmd) : Option Res :=
  let no := accessRes 0 6 0xFF
  match m.cls with
  | 0xF => if m.priv then none else some no
  | 0xE =>
    if m.priv then none
    else if m.op ≥ 1 && m.op ≤ 4 then (if queueCtx c m.qField == some m.ctx then none else some no)
    else if m.op ≥ 5 && m.op ≤ 7 then some no
    else if m.op = 8 && m.par 24 2 != m.ctx then some no
    else none
  | _ =>
    let grp := if m.cls = 7 && m.op ≤ 5 then
        (match groupOf c m (m.par 96 2) with
         | some g => if g.ctx = m.ctx then none else some no
         | none => none)
      else none
    match grp with
    | some r => some r
    | none => (cmdUses m).findSome? (fun u => u.segErr (c.ctxDesc m.ctx) m.baseHalf)

/-! ### Pages -/

/-- The pages a command needs (R342, R77, R324, R533). -/
def cmdNeeds (m : Cmd) : List XPage :=
  let ps := (cmdUses m).foldl (fun ps u => u.d.needs u.wr ps) []
  match m.cls with
  | 8 => needRange (bits (m.par 16 8) 0 57) (m.par 24 8) 0xFF false ps
  | 0xF =>
    if m.queue?.isNone then ps else
    let ps := if m.par 16 8 = 0 || m.par 24 4 == 0 then ps else needRange (bits (m.par 16 8) 0 57) (m.par 24 4) 0xFF true ps
    if m.op = 8 && m.par 32 8 != 0 then needRange (bits (m.par 32 8) 0 57) (m.par 40 4) 0xFF false ps else ps
  | _ => ps

/-- The scoreboard extents a command enters (R257, R258). -/
def cmdSbExts (c : Chip) (m : Cmd) : List SbExt :=
  (sbUses m).flatMap (fun u =>
    let x := c.ctxDesc m.ctx
    (if u.rd then u.d.sbExt x m.baseHalf false else []) ++ (if u.wr then u.d.sbExt x m.baseHalf true else []))

end Sys2Proof.Machine
end

