-- ==== Sys2Proof/Machine/Hash.lean ====
section
/-! DEFINITION. The hashes that the manual names: SHA-256 of the fabric configuration's digest (R440) and SHA-384 of a firmware image
(R531), as FIPS 180-4 defines them (PRESUMED, log entry 46). -/

namespace Sys2Proof.Machine

open Sys2Proof

/-- Round constants 0 to 19 of SHA-384; the first 64, cut to their upper halves, are those of SHA-256. -/
def shaK0 : List Nat :=
  [0x428A2F98D728AE22, 0x7137449123EF65CD, 0xB5C0FBCFEC4D3B2F, 0xE9B5DBA58189DBBC,
   0x3956C25BF348B538, 0x59F111F1B605D019, 0x923F82A4AF194F9B, 0xAB1C5ED5DA6D8118,
   0xD807AA98A3030242, 0x12835B0145706FBE, 0x243185BE4EE4B28C, 0x550C7DC3D5FFB4E2,
   0x72BE5D74F27B896F, 0x80DEB1FE3B1696B1, 0x9BDC06A725C71235, 0xC19BF174CF692694,
   0xE49B69C19EF14AD2, 0xEFBE4786384F25E3, 0x0FC19DC68B8CD5B5, 0x240CA1CC77AC9C65]

/-- Round constants 20 to 39 of SHA-384; the first 64, cut to their upper halves, are those of SHA-256. -/
def shaK1 : List Nat :=
  [0x2DE92C6F592B0275, 0x4A7484AA6EA6E483, 0x5CB0A9DCBD41FBD4, 0x76F988DA831153B5,
   0x983E5152EE66DFAB, 0xA831C66D2DB43210, 0xB00327C898FB213F, 0xBF597FC7BEEF0EE4,
   0xC6E00BF33DA88FC2, 0xD5A79147930AA725, 0x06CA6351E003826F, 0x142929670A0E6E70,
   0x27B70A8546D22FFC, 0x2E1B21385C26C926, 0x4D2C6DFC5AC42AED, 0x53380D139D95B3DF,
   0x650A73548BAF63DE, 0x766A0ABB3C77B2A8, 0x81C2C92E47EDAEE6, 0x92722C851482353B]

/-- Round constants 40 to 59 of SHA-384; the first 64, cut to their upper halves, are those of SHA-256. -/
def shaK2 : List Nat :=
  [0xA2BFE8A14CF10364, 0xA81A664BBC423001, 0xC24B8B70D0F89791, 0xC76C51A30654BE30,
   0xD192E819D6EF5218, 0xD69906245565A910, 0xF40E35855771202A, 0x106AA07032BBD1B8,
   0x19A4C116B8D2D0C8, 0x1E376C085141AB53, 0x2748774CDF8EEB99, 0x34B0BCB5E19B48A8,
   0x391C0CB3C5C95A63, 0x4ED8AA4AE3418ACB, 0x5B9CCA4F7763E373, 0x682E6FF3D6B2B8A3,
   0x748F82EE5DEFB2FC, 0x78A5636F43172F60, 0x84C87814A1F0AB72, 0x8CC702081A6439EC]

/-- Round constants 60 to 79 of SHA-384; the first 64, cut to their upper halves, are those of SHA-256. -/
def shaK3 : List Nat :=
  [0x90BEFFFA23631E28, 0xA4506CEBDE82BDE9, 0xBEF9A3F7B2C67915, 0xC67178F2E372532B,
   0xCA273ECEEA26619C, 0xD186B8C721C0C207, 0xEADA7DD6CDE0EB1E, 0xF57D4F7FEE6ED178,
   0x06F067AA72176FBA, 0x0A637DC5A2C898A6, 0x113F9804BEF90DAE, 0x1B710B35131C471B,
   0x28DB77F523047D84, 0x32CAAB7B40C72493, 0x3C9EBE0A15C9BEBC, 0x431D67C49C100D4C,
   0x4CC5D4BECB3E42B6, 0x597F299CFC657E2A, 0x5FCB6FAB3AD6FAEC, 0x6C44198C4A475817]

/-- The round constants. -/
def shaK : List Nat := shaK0 ++ shaK1 ++ shaK2 ++ shaK3

/-- Initial hash of SHA-256. -/
def sha256Init : List Nat :=
  [0x6A09E667, 0xBB67AE85, 0x3C6EF372, 0xA54FF53A, 0x510E527F, 0x9B05688C, 0x1F83D9AB, 0x5BE0CD19]

/-- Initial hash of SHA-384. -/
def sha384Init : List Nat :=
  [0xCBBB9D5DC1059ED8, 0x629A292A367CD507, 0x9159015A3070DD17, 0x152FECD8F70E5939,
   0x67332667FFC00B31, 0x8EB44A8768581511, 0xDB0C2E0D64F98FA7, 0x47B5481DBEFA4FA4]

/-- What the two hashes differ in: word width, rounds, constants and the rotation amounts of the four functions, the last of the small
ones a shift. -/
structure ShaKind where
  w : Nat
  rounds : Nat
  k : List Nat
  big0 : Nat × Nat × Nat
  big1 : Nat × Nat × Nat
  small0 : Nat × Nat × Nat
  small1 : Nat × Nat × Nat

/-- SHA-256. -/
def sha256Kind : ShaKind := ⟨32, 64, shaK.map (fun x => x / 2 ^ 32), (2, 13, 22), (6, 11, 25), (7, 18, 3), (17, 19, 10)⟩
/-- SHA-384. -/
def sha384Kind : ShaKind := ⟨64, 80, shaK, (28, 34, 39), (14, 18, 41), (1, 8, 7), (19, 61, 6)⟩

/-- x rotated right by n in w bits. -/
def rotr (w x n : Nat) : Nat := x / 2 ^ n + x % 2 ^ n * 2 ^ (w - n)

/-- The message schedule, newest word first, extended by n words. -/
def shaSched (t : ShaKind) : Nat → List Nat → List Nat
  | 0, l => l
  | n + 1, l =>
    let a := nth l 14 0
    let b := nth l 1 0
    let s0 := rotr t.w a t.small0.1 ^^^ rotr t.w a t.small0.2.1 ^^^ a / 2 ^ t.small0.2.2
    let s1 := rotr t.w b t.small1.1 ^^^ rotr t.w b t.small1.2.1 ^^^ b / 2 ^ t.small1.2.2
    shaSched t n ((nth l 15 0 + s0 + nth l 6 0 + s1) % 2 ^ t.w :: l)

/-- One round on the eight working words (log entry 46). -/
def shaRound (t : ShaKind) (v : List Nat) (kw : Nat × Nat) : List Nat :=
  match v with
  | [a, b, c, d, e, f, g, h] =>
    let s1 := rotr t.w e t.big1.1 ^^^ rotr t.w e t.big1.2.1 ^^^ rotr t.w e t.big1.2.2
    let ch := (e &&& f) ^^^ ((2 ^ t.w - 1 - e) &&& g)
    let t1 := h + s1 + ch + kw.1 + kw.2
    let s0 := rotr t.w a t.big0.1 ^^^ rotr t.w a t.big0.2.1 ^^^ rotr t.w a t.big0.2.2
    let mj := (a &&& b) ^^^ (a &&& c) ^^^ (b &&& c)
    [(t1 + s0 + mj) % 2 ^ t.w, a, b, c, (d + t1) % 2 ^ t.w, e, f, g]
  | l => l

/-- One block of 16 words (log entry 46). -/
def shaBlock (t : ShaKind) (h : List Nat) (ws : List Nat) : List Nat :=
  let sch := (shaSched t (t.rounds - 16) ws.reverse).reverse
  List.zipWith (fun a b => (a + b) % 2 ^ t.w) h ((t.k.zip sch).foldl (shaRound t) h)

/-- The big-endian number that bytes spell. -/
def beNat (l : List Byte) : Nat := l.foldl (fun x b => x * 256 + b.toNat) 0

/-- The n big-endian bytes of x. -/
def beBytes (n x : Nat) : List Byte := (leBytes n x).reverse

/-- A list cut into n shaPieces of k elements. -/
def shaPieces {α : Type} (k : Nat) : Nat → List α → List (List α)
  | 0, _ => []
  | n + 1, l => l.take k :: shaPieces k n (l.drop k)

/-- The padded message: a 1 bit, zeros and the length in bits. -/
def shaPad (t : ShaKind) (l : List Byte) : List Byte :=
  let b := 2 * t.w
  let len := t.w / 4
  let z := (b - (l.length + 1 + len) % b) % b
  l ++ [BitVec.ofNat 8 0x80] ++ List.replicate z 0 ++ beBytes len (8 * l.length)

/-- The hash words of a message. -/
def shaWords (t : ShaKind) (init : List Nat) (l : List Byte) : List Nat :=
  let p := shaPad t l
  (shaPieces (2 * t.w) (p.length / (2 * t.w)) p).foldl (fun h b => shaBlock t h ((shaPieces (t.w / 8) 16 b).map beNat)) init

/-- SHA-256 (log entry 46). -/
def sha256 (l : List Byte) : List Byte := (shaWords sha256Kind sha256Init l).flatMap (beBytes 4)

/-- SHA-384: the first 48 bytes of its eight words (log entry 46). -/
def sha384 (l : List Byte) : List Byte := ((shaWords sha384Kind sha384Init l).flatMap (beBytes 8)).take 48

end Sys2Proof.Machine
end

