-- ==== Sys2Proof/Machine/Epoch.lean ====
section
/-! DEFINITION. Configuration epochs (R58 to R62): the commit, adoption at command boundaries, and the mixed window. -/

namespace Sys2Proof.Machine

open Sys2Proof

/-- The shadow registers and their mirrors (R547), as offsets from REG_BASE of 32-bit words. -/
def shadowMap : List (Nat × Nat) :=
  [(0x2100, 0x2104), (0x2110, 0x2114)] ++ (List.range 16).map (fun i => (0x90F0010 + 4 * i, 0x90F0110 + 4 * i)) ++
    (List.range 4).map (fun i => (0x10010 + 4 * i, 0x10110 + 4 * i))

/-- The epoch after another (R59). -/
def nextEpoch (e : Nat) : Nat := if e + 1 ≥ 65536 then 1 else e + 1

/-- The mixed window closes (R61): every engine releases the previous configuration and the notification is sent (log entry 75). -/
def closeWindow (c : Chip) : Chip :=
  let c := (c.rput MOD MOD_CFG_STATUS_MIXED 0).rput MOD MOD_CFG_EPOCH_PREVIOUS 0
  let c : Chip := { c with prevCfg := [], eng := c.eng.map (fun e => (e.1, { e.2 with holdsPrev := false })) }
  if c.rget MOD MOD_CFG_NOTIFY_ENABLE = 1 then notifyAdd (c.rget MOD MOD_CFG_NOTIFY_SEM) c else c

/-- An engine adopts CURRENT (R60): it keeps the previous configuration unless it is losing its power (log entry 75). -/
def adopt (keep : Bool) (e : Engine) (c : Chip) : Chip :=
  let x := c.engine e
  if x.adopted then (if keep then c else c.setEngine e { x with holdsPrev := false })
  else
    let n := c.rget MOD MOD_CFG_STATUS_PENDING - 1
    let c := (c.setEngine e { x with adopted := true, holdsPrev := keep }).rput MOD MOD_CFG_STATUS_PENDING n
    if n = 0 then closeWindow c else c

/-- CFG_DIGEST (R440): of the fabric configuration in force. -/
def cfgDigest (c : Chip) : List Byte :=
  let r := fun (f : Fld) => (c.reg (AIH + f.off)).toNat
  (sha256 (leBytes 8 (r AIH_TOPO_CUR_KIND) ++ leBytes 4 (r AIH_GATEWAY_CUR_NODE) ++ leBytes 4 (r AIH_E2E_CUR_TIMEOUT_US) ++
    leBytes 4 (r AIH_ENCAP_CUR_IPV6))).take 16

/-- The topology in the shadow may be committed (R470) (log entry 57). -/
def topoOk (c : Chip) : Bool :=
  let g := fun (f : Fld) => c.rget AIH f
  let k := g AIH_TOPO_KIND
  let dims := [(g AIH_TOPO_X_BITS, g AIH_TOPO_X_SIZE, true), (g AIH_TOPO_Y_BITS, g AIH_TOPO_Y_SIZE, k ≥ 2), (g AIH_TOPO_Z_BITS, g AIH_TOPO_Z_SIZE, k == 3)]
  g AIH_TOPO_X_BITS + g AIH_TOPO_Y_BITS + g AIH_TOPO_Z_BITS ≤ 24 && dims.all (fun d => d.2.1 ≤ 2 ^ d.1 && (!d.2.2 || d.2.1 != 0))

/-- A commit takes effect (R59): the mirrors take the shadows, and every engine that is awake is pending. -/
def commitNow (e : Nat) (c : Chip) : Chip :=
  let old := shadowMap.map (fun p => (p.2, c.reg p.2))
  let dig := cfgDigest c
  let c := shadowMap.foldl (fun c p => c.setReg p.2 (c.reg p.1)) c
  let es := allEngines.filter (fun x => (c.engine x).awake && (c.engine x).service)
  let c := es.foldl (fun c x => c.setEngine x { c.engine x with adopted := false, holdsPrev := false }) c
  let c : Chip := { c with prevCfg := old, fab := { c.fab with digestPrev := some dig } }
  let c := (c.rput MOD MOD_CFG_EPOCH_PREVIOUS (c.rget MOD MOD_CFG_EPOCH_CURRENT)).rput MOD MOD_CFG_EPOCH_CURRENT e
  let c := (c.rput MOD MOD_CFG_STATUS_MIXED 1).rput MOD MOD_CFG_STATUS_PENDING es.length
  if es.isEmpty then closeWindow c else c

/-- A write of MOD_CFG_COMMIT (R58, R59, R470); before READY it is ignored and logged (R519) (log entry 57). -/
def modCfgCommitStep (p : Path) (v : Nat) (c : Chip) : Chip :=
  if !c.up then accLog 0 0x2004 .other p c
  else if v % 65536 = nextEpoch (c.rget MOD MOD_CFG_EPOCH_CURRENT) && c.rget MOD MOD_CFG_STATUS_MIXED == 0 && topoOk c then commitNow (v % 65536) c
  else c.rput MOD MOD_CFG_STATUS_REFUSED 1

/-- An engine at a command boundary adopts the configuration in force (R60): it holds no command in execution (log entry 75). -/
def engineAdoptEpochStep (e : Engine) (c : Chip) : Chip := if c.busy e then c else adopt true e c

/-- What an engine does with a command's EPOCH (R62): none for EPOCH_MISMATCH with the CURRENT it holds, or whether the command runs
on the previous configuration. `es` are the engines that run it, the first of them the one that reports. -/
def epochCheck (m : Cmd) (es : List Engine) (c : Chip) : Bool ⊕ Nat :=
  let cur := c.rget MOD MOD_CFG_EPOCH_CURRENT
  let prev := c.rget MOD MOD_CFG_EPOCH_PREVIOUS
  let old := match es.head? with
    | some e => !(c.engine e).adopted
    | none => false
  if m.epoch = 0 then .inl old
  else if m.epoch = cur then .inl false
  else if m.epoch = prev && es.all (fun e => !(c.engine e).adopted || (c.engine e).holdsPrev) then .inl true
  else .inr (if old then prev else cur)

end Sys2Proof.Machine
end

