-- ==== Sys2Proof/Machine/Queue.lean ====
section
/-! DEFINITION. Queue pages, fetch and acceptance (R35 to R45, R66, R67, R333, R342 to R344). -/

namespace Sys2Proof.Machine

open Sys2Proof

/-! ### Queue pages -/

/-- A write of a queue page whose size the register does not take (R35, R539); true when the register takes it. -/
def pageWrite (width q off size : Nat) (p : Path) (c : Chip) : Bool × Chip :=
  if !c.up then (false, accLog 1 (q * 64 + off) .other p c)
  else if size = width then (true, c)
  else if size = 1 || size == 2 || size == 4 then (false, accLog 1 (q * 64 + off) .narrow p c)
  else (false, accLog 1 (q * 64 + off) .rejected p c)

/-- Slots between two indices of a ring. -/
def ringDiff (log2 a b : Nat) : Nat := wrapSub log2 a b

/-- The queue-overrun event (R47). -/
def overrun (q tail seq : Nat) (c : Chip) : Chip :=
  let x := c.queue q
  let c := (c.setQueue q { x with st := .error }).rput (QPB (q % 2)) QPR_ERR_OVERRUN 1
  postEvent x.ctx 0x0001 q seq (fields 16 [(0, 4, tail), (4, 4, x.head), (8, 4, x.tail)]) c

/-- A doorbell of the right width (R36). -/
def doorbell (q v : Nat) (c : Chip) : Chip :=
  let x := c.queue q
  let tail := bits v 0 20
  let seq := bits v 32 32
  let stale := c.setQueue q { x with staleDb := satAdd x.staleDb 1 0xFFF }
  if x.st = .disabled || decide (x.st = .draining) then stale
  else if seq = x.lastDbSeq && tail == x.tail then c
  else if !seqNewer seq x.lastDbSeq then stale
  else if tail ≥ 2 ^ x.sqLog2 || ringDiff x.sqLog2 x.tail x.head + ringDiff x.sqLog2 tail x.tail > 2 ^ x.sqLog2 - 1 then overrun q tail seq c
  else (c.setQueue q { x with tail := tail, lastDbSeq := seq }).rcount (QPB (q % 2)) QPR_DOORBELLS 1

/-- QPR_DOORBELL (R36). -/
def qprDoorbellStep (p : Path) (q size v : Nat) (c : Chip) : Chip :=
  let r := pageWrite 8 q 0 size p c
  if r.1 then doorbell q v r.2 else r.2

/-- QPR_CQ_CONSUMED (R45). -/
def qprCqConsumedStep (p : Path) (q size v : Nat) (c : Chip) : Chip :=
  let r := pageWrite 4 q 0x1C size p c
  if r.1 then r.2.setQueue q { r.2.queue q with cqConsumed := v % 2 ^ 32 } else r.2

/-- QPR_EQ_CONSUMED (R48): every queue page of a context reaches its one event ring (R35). -/
def qprEqConsumedStep (p : Path) (q size v : Nat) (c : Chip) : Chip :=
  let r := pageWrite 4 q 0x24 size p c
  if r.1 then
    match queueCtx r.2 q with
    | some n => consumeEq n v r.2
    | none => r.2
  else r.2

/-! ### The submission ring -/

/-- The 64 bytes of a slot, through the ring's translations (R345). -/
def slotBytes (c : Chip) (x : Queue) (i : Nat) : List Byte :=
  match pageAddr x.sqPages (bits x.sqBase 0 57 + 64 * i) with
  | some a => c.rdMem a 64
  | none => List.replicate 64 0

/-- CHECK of a header (R47): HCHK, RSVD and LEN. -/
def headerCheck (h : List Byte) : Nat :=
  b2n (crc8 (h.take 14) != leAt h 14 1) + 2 * b2n (leAt h 15 1 != 0) + 4 * b2n (leAt h 3 1 == 0 || leAt h 3 1 > 16)

/-- A malformed header (R37, R47). -/
def badHeader (q : Nat) (h : List Byte) (c : Chip) : Chip :=
  let x := c.queue q
  let c := (c.setQueue q { x with st := .error }).rput (QPB (q % 2)) QPR_ERR_MALFORMED_HDR 1
  postEvent x.ctx 0x0002 q (leAt h 4 4)
    (fields 16 [(0, 4, x.head), (4, 1, headerCheck h), (5, 1, leAt h 3 1), (6, 1, leAt h 14 1), (7, 1, crc8 (h.take 14))]) c

/-- Slots of the completion ring reserved and not yet written (R45). -/
def reservedCq (c : Chip) (q : Nat) : Nat := (c.cmdsOf (.queue q)).length + (c.queue q).dups.length

/-- A slot of the completion ring is free (R45). -/
def cqFree (c : Chip) (q : Nat) : Bool :=
  wrapSub 32 (c.queue q).cqCount (c.queue q).cqConsumed + reservedCq c q < 2 ^ (c.queue q).cqLog2

/-- The half of a command's records while none is chosen for it (R79): the pinned or the current half. -/
def Queue.defHalf (x : Queue) : Nat := if x.pinHalf = 0 then x.curHalf else x.pinHalf - 1

/-! ### Duplicates -/

/-- The last 64 of the SEQs accepted (R40). -/
def windowPush (w : List Seen) (s : Seen) : List Seen := let l := w ++ [s]; l.drop (l.length - 64)

/-- A command whose SEQ is not newer than LAST_ACCEPTED (R40): a duplicate, or one whose first outcome is unknown. -/
def fetchDup (q seq cls : Nat) (c : Chip) : Chip :=
  let x := c.queue q
  let c := c.rcount (QPB (q % 2)) QPR_DUPLICATES 1
  match x.window.find? (fun s => s.seq == seq) with
  | none => writeCq q (recordBytes c seq sDupSupp (engByte cls x.defHalf) 0 (setDflag (detail []) 1)) c
  | some s =>
    match s.res with
    | some r => writeCq q (recordBytes c seq r.status (engByte cls x.defHalf) 0 (setDflag r.detail 0)) c
    | none => c.setQueue q { x with dups := x.dups ++ [⟨seq, cls, x.defHalf⟩] }

/-! ### The half of a command -/

/-- A half has a Furrow in service (R511). -/
def hasFurrow (c : Chip) (h : Nat) : Bool := (c.engine ⟨1, h, 0⟩).service

/-- The current half of an unpinned queue (R333, R511). -/
def curHalf (c : Chip) (x : Queue) : Nat :=
  if !hasFurrow c x.curHalf && hasFurrow c (1 - x.curHalf) then 1 - x.curHalf else x.curHalf

/-- Bytes of a command's VIRT extents that lie in a half's regions, frame by frame (R333, rule 4). -/
def virtBytes (c : Chip) (m : Cmd) (h : Nat) : Nat :=
  sumNat ((cmdUses m).map (fun u =>
    if u.d.space ≠ 0 then 0
    else sumNat (u.d.rows.map (fun r =>
      let lo := bits u.d.addr 0 57 + u.d.rowOff r.1 r.2
      let hi := lo + u.d.rowBytes
      sumNat (m.pages.map (fun p =>
        if p.ok && c.frameHalf p.frame == h then min hi (p.vp * 65536 + 65536) - max lo (p.vp * 65536) else 0))))))

/-- A command uses both halves (R137, R333 rule 2). -/
def usesBoth (m : Cmd) : Bool := m.cls == 1 && m.op ≤ 2 && (furOp m).split

/-- An accepted command of the queue that holds its successors to the current half (R333, rule 3). -/
def holdsHalf (m : Cmd) : Bool := (m.cls == 3) || m.both || (cmdUses m).any (fun u => u.d.space == 1)

/-- Surveyor's choice (R333): the half, whether it uses both, and the queue's current half afterwards. -/
def chooseHalf (c : Chip) (x : Queue) (m : Cmd) : Nat × Bool × Nat :=
  let cur := curHalf c x
  if usesBoth m then (0, true, x.curHalf)
  else if x.pinHalf ≠ 0 then (x.pinHalf - 1, false, x.curHalf)
  else if m.cls = 6 || m.cls == 8 || m.cls == 0xE || m.cls == 0xF then (cur, false, x.curHalf)
  else if m.cls = 3 || (c.cmdsOf m.car).any holdsHalf then (cur, false, x.curHalf)
  else
    let e := virtBytes c m 0
    let w := virtBytes c m 1
    let h := if e > w then 0 else if w > e then 1 else cur
    let h := if !hasFurrow c h && hasFurrow c (1 - h) then 1 - h else h
    (h, false, h)

/-! ### PRE_WAIT -/

/-- The wait-list entry of PRE_WAIT (R31): semaphore, threshold and context; none when PRE_WAIT is above WAIT_LEN. -/
def waitEntry (c : Chip) (x : Queue) (n : Nat) : Option (Nat × Nat × Nat) :=
  if n > x.waitLen then none
  else
    match pageAddr x.wlPages (bits x.waitBase 0 57 + 16 * (n - 1)) with
    | some a => some (c.rdLe a 4 % 2 ^ 18, c.rdLe (a + 4) 6, c.rdLe (a + 10) 2)
    | none => none

/-- The wait-list entry a command names is one it may use (R31). -/
def preWaitOk (c : Chip) (x : Queue) (m : Cmd) : Bool :=
  m.preWaitField == 0 || (match waitEntry c x m.preWaitField with
    | some e => e.2.2 == x.ctx
    | none => false)

/-- A PRE_WAIT takes its place (R31, R364, R368): refused, registered, or held while no place is free. -/
def placePreWait (m : Cmd) (sem n : Nat) (c : Chip) : Chip :=
  let h := bits sem 17 1
  let s := bits sem 0 17
  if c.watchFree h = 0 then (watchFull h c).putCmd { m with preWait := true, needPlace := true }
  else
    let c := checkSem h s c
    if semPermit .watch (c.sem h s) m.ctx m.priv then
      registerWatch ⟨h, s, n, m.ctx, .preWait m.car m.seq⟩ (c.putCmd { m with preWait := true, needPlace := false })
    else retire m refused6 c

/-- The PRE_WAIT of a command just accepted. -/
def startPreWait (q : Nat) (m : Cmd) (c : Chip) : Chip :=
  if m.preWaitField = 0 then c
  else match waitEntry c (c.queue q) m.preWaitField with
  | some e => placePreWait { m with semN := e.1, semT := e.2.1 } e.1 e.2.1 c
  | none => c

/-! ### Scoreboards -/

/-- Extents that a half's scoreboard holds. -/
def sbHeld (c : Chip) (h : Nat) : Nat :=
  sumNat (c.cmds.map (fun m => if m.sbIn then (m.sbExt.filter (fun e => e.half == h)).length else 0))

/-- A command of half h's scoreboard, entered before the command, writes units that the command reads (R258). -/
def sbHoldsAt (c : Chip) (m : Cmd) (h : Nat) : Bool :=
  let rd := m.sbExt.filter (fun e => !e.wr && e.half == h)
  c.cmds.any (fun x => x.sbIn && x.gord < m.gord &&
    x.sbExt.any (fun w => w.wr && w.half == h && rd.any (fun r => r.lo < w.hi && w.lo < r.hi)))

/-- A scoreboard holds the command (R258). -/
def sbHolds (c : Chip) (m : Cmd) : Bool := sbHoldsAt c m 0 || sbHoldsAt c m 1

/-- The scoreboards that hold a command as it enters count it (R270) (log entry 56). -/
def noteHeld (m : Cmd) (c : Chip) : Chip :=
  [0, 1].foldl (fun c h => if sbHoldsAt c m h then c.rcount (SBD h) SBD_SB_HELD 1 else c) c

/-- Commands enter the scoreboards in the order in which their halves were chosen (R257, R262); `shut` are the halves at which an
earlier command still waits to enter (log entry 56). -/
def sbEnter : List Cmd → List Nat → Chip → Chip
  | [], _, c => c
  | m :: ms, shut, c =>
    if m.sbIn then sbEnter ms shut c
    else
      let hs := [0, 1].filter (fun h => m.sbExt.any (fun e => e.half == h))
      let full := hs.filter (fun h => sbHeld c h + (m.sbExt.filter (fun e => e.half == h)).length > 4096)
      if hs.any (fun h => shut.contains h) || !full.isEmpty then
        sbEnter ms (shut ++ hs) (full.foldl (fun c h => c.rput (SBD h) SBD_ERR_SB_FULL 1) c)
      else sbEnter ms shut (noteHeld m (c.putCmd { m with sbIn := true }))

/-- Every command that can enter the scoreboards enters. -/
def sbEnterAll (c : Chip) : Chip := sbEnter c.cmds [] c

/-! ### Collectives as they are accepted -/

/-- A collective takes the next CSEQ of its group when it is accepted (R461) (log entry 60). -/
def acceptColl (m : Cmd) (c : Chip) : Chip :=
  if m.cls ≠ 7 || m.op > 5 then c
  else
    let g := m.par 96 2
    let n := kget (fun _ => 0) c.fab.cseqs g
    let cl : Coll := (c.fab.colls.find? (fun x => x.group == g && x.cseq == n)).getD { group := g, cseq := n }
    let heard := !cl.got.isEmpty || !cl.ready.isEmpty
    let cl := { cl with op := m.op, cepoch := m.par 98 2, cmd := some (m.car, m.seq),
                        mismatch := cl.mismatch || (heard && (cl.op != m.op || cl.cepoch != m.par 98 2)) }
    { c with fab := { c.fab with cseqs := kset (fun _ => 0) c.fab.cseqs g ((n + 1) % 2 ^ 32),
                                 colls := c.fab.colls.filter (fun x => !(x.group == g && x.cseq == n)) ++ [cl] } }

/-! ### Acceptance -/

/-- Free runs of a half's store (R343). -/
def storeFree (c : Chip) (h : Nat) : Nat :=
  4194304 - sumNat (c.cmds.map (fun m => match m.car with
    | .queue q => if q % 2 = h then m.runs else 0
    | _ => 0))

/-- A command enters the module: LAST_ACCEPTED, the duplicate window and the acceptance order (R40). -/
def enter (q : Nat) (m : Cmd) (c : Chip) : Chip :=
  let x := c.queue q
  let c := c.setQueue q { x with lastAccepted := m.seq, window := windowPush x.window ⟨m.seq, none⟩, accepted := x.accepted + 1, chainBroken := false }
  { c with cmds := c.cmds ++ [m], gord := c.gord + 1 }.rcount (QPB (q % 2)) QPR_ACCEPTED 1

/-- A REG_READ or REG_WRITE at an offset that is not aligned is logged as a rejected access (R539, R542). -/
def rejectLog (p : Path) (m : Cmd) (c : Chip) : Chip :=
  if m.cls == 0xF && (m.op == 2 || m.op == 3) && m.par 32 8 % 4 != 0 then accLog 0 (m.par 32 8) .rejected p c else c

/-- A command that is accepted and ends at once. -/
def enterEnd (q : Nat) (m : Cmd) (r : Res) (c : Chip) : Chip :=
  let c := if r.status = sMalformed then rejectLog (.queue q) m c else c
  retire { m with half := (c.queue q).defHalf } r (enter q { m with half := (c.queue q).defHalf } c)

/-- The command of a slot, before anything is decided about it. -/
def newCmd (q : Nat) (bytes : List Byte) (c : Chip) : Cmd :=
  let x := c.queue q
  { car := .queue q, seq := leAt bytes 4 4, ord := x.accepted, gord := c.gord, bytes := bytes, ctx := x.ctx,
    priv := (c.ctxDesc x.ctx).priv, half := if x.pinHalf = 0 then curHalf c x else x.pinHalf - 1 }

/-- A newer command is accepted (R40, R51, R67, R68, R85): MALFORMED, chain broken, FAULT_ACCESS, or it waits to issue. -/
def acceptCmd (q : Nat) (m : Cmd) (c : Chip) : Chip :=
  let x := c.queue q
  let broken := x.chainBroken
  let o := chooseHalf c x m
  let m := { m with half := o.1, both := o.2.1 }
  if m.runs > 2097152 || !paramsOk c m then enterEnd q m malformedRes c
  else if broken then enterEnd q m (abortRes m 4) c
  else match accessErr c m with
  | some r => enterEnd q m r c
  | none =>
    let m := { m with sbExt := cmdSbExts c m }
    let c := enter q m (c.setQueue q { c.queue q with curHalf := o.2.2 })
    let c := acceptColl m c
    let c := (earlyFaults m c).rcount (XLT (q % 2)) XLT_RUNS m.runs
    match c.findCmd m.car m.seq with
    | some m => startPreWait q m c
    | none => c

/-- A command with a good header and a newer SEQ (R31, R38, R343): its pages are translated, and it is accepted once the run store
has room. -/
def fetchNew (q head : Nat) (past : Bool) (bytes : List Byte) (c : Chip) : Chip :=
  let m := newCmd q bytes c
  let move := fun (c : Chip) => c.setQueue q { c.queue q with head := head }
  if past || !paramsOk c m || !preWaitOk c (c.queue q) m then enterEnd q m malformedRes (move c)
  else
    let r := xlatePages (q % 2) m.ctx (c.ctxDesc m.ctx).ptRoot (cmdNeeds m) c
    let m := { m with pages := r.1, runs := runCount r.1 }
    if m.runs ≤ 2097152 && m.runs > storeFree c (q % 2) then r.2.rput (XLT (q % 2)) XLT_STATUS_STORE_WAIT 1
    else acceptCmd q m (move (r.2.rput (XLT (q % 2)) XLT_STATUS_STORE_WAIT 0))

/-- COMMAND_FETCH (R37 to R41, R45, R66, R67). -/
def commandFetchStep (q : Nat) (c : Chip) : Chip :=
  let x := c.queue q
  if !(c.up && decide (x.st = .enabled) && x.head != x.tail && (c.cmdsOf (.queue q)).length < 64 && cqFree c q) then c
  else
    let h := slotBytes c x x.head
    if headerCheck h ≠ 0 then badHeader q h c
    else
      let len := leAt h 3 1
      let past := x.head + len > 2 ^ x.sqLog2
      if !past && len > ringDiff x.sqLog2 x.tail x.head then c
      else
        let head := if past then 0 else (x.head + len) % 2 ^ x.sqLog2
        let seq := leAt h 4 4
        if !seqNewer seq x.lastAccepted then fetchDup q seq (bits (leAt h 0 2) 12 4) (c.setQueue q { x with head := head })
        else fetchNew q head past (if past then h else (List.range len).flatMap (fun i => slotBytes c x (x.head + i))) c

end Sys2Proof.Machine
end

