-- ==== Sys2Proof/Machine/Issue.lean ====
section
/-! DEFINITION. Issue (R23, R42, R50 to R53, R62, R258, R334, R486, R511), retirement (R43) and priority (R53). -/

namespace Sys2Proof.Machine

open Sys2Proof

/-! ### Ready commands -/

/-- The command is interpreted by a queue processor (R73, R74). -/
def runsQp (m : Cmd) : Bool :=
  m.queue?.isSome &&
  (match m.cls with
   | 5 => m.op == 0xA || m.op == 0xB
   | 6 => m.op == 7 || m.op == 8 || m.op == 9 || m.op == 0xB
   | 7 => m.op == 5 || m.op == 16 || m.op == 17
   | 8 => true
   | 0xE => m.op != 0
   | 0xF => true
   | _ => false)

/-- Commands of the same queue accepted before a command and not retired. -/
def earlier (c : Chip) (m : Cmd) : List Cmd := c.cmds.filter (fun x => decide (x.car = m.car) && x.ord < m.ord)

/-- Fences and CHAIN let the command issue (R50). -/
def fencesOk (c : Chip) (m : Cmd) : Bool :=
  let e := earlier c m
  (!m.fenceBefore || e.isEmpty) && e.all (fun x => !x.fenceAfter && !(x.chainFlag && x.ord + 1 == m.ord))

/-- The queue and context of a command let it issue (R27, R572). -/
def queueIssues (c : Chip) (m : Cmd) : Bool :=
  match m.car with
  | .queue q => decide ((c.queue q).st = .enabled) || (decide ((c.queue q).st = .draining) && decide ((c.ctx m.ctx).st ≠ .preempted))
  | _ => true

/-- Bytes of a collective's DST. -/
def collDst (m : Cmd) : Nat := (parseDesc m.bytes 64 1).rowBytes

/-- The staging place a collective uses (R464): 1 the Seedbed area of its half, 2 the frame-space area. -/
def collPlace (c : Chip) (m : Cmd) : Nat := if collDst m ≤ (stageSizes c m.half).1 then 1 else 2

/-- A staging area is taken: by a collective in execution on that half, or anywhere for frame space. -/
def placeTaken (c : Chip) (place h : Nat) : Bool :=
  c.fab.colls.any (fun x => x.place == place && (match x.cmd with
    | some (k, s) => (match c.findCmd k s with
        | some y => place == 2 || y.half == h
        | none => false)
    | none => false))

/-- What a command waits for beside the common conditions: staging space (R464), a watch place (R368), another self-test (R524) or
image (R533). -/
def kindOk (c : Chip) (m : Cmd) : Bool :=
  let other := fun (p : Cmd → Bool) => c.cmds.any (fun x => !cmdIs m.car m.seq x && x.cls == 0xF && x.op == m.op && decide (x.phase = .executing) && p x)
  if m.cls = 7 && m.op ≤ 5 then !placeTaken c (collPlace c m) m.half
  else if m.cls = 6 && (m.op == 5 || m.op == 6) && !m.remote then !m.needPlace || c.watchFree (bits (m.par 16 4) 17 1) > 0
  else if m.cls = 0xF && m.op == 6 then !other (fun _ => true)
  else if m.cls = 0xF && m.op == 8 then !other (fun x => x.par 44 1 == m.par 44 1)
  else true

/-- Every condition of issue but an engine and power (R50, R572). -/
def ready (c : Chip) (m : Cmd) : Bool :=
  decide (m.phase = .accepted) && queueIssues c m && !m.preWait && m.sbIn && !heldByFault m && m.stall.isNone && fencesOk c m &&
    !sbHolds c m && c.inflight < 1024 && kindOk c m

/-! ### Instances -/

/-- What a command issues to: the instance in the record, the half, other instances it claims, tandem mode and admission power. -/
structure Plan where
  inst : Nat := 0
  half : Nat
  claims : List Engine := []
  tandem : Bool := false
  adm : Nat := 0
  deriving DecidableEq, Repr

/-- The choice of instances: none is free; some must wake first; the command ends (R511); or it may issue. -/
inductive Choice
  | no
  | wake (es : List Engine)
  | abort
  | go (p : Plan)
  deriving DecidableEq, Repr

/-- Instances of a class of a half in service that hold no command. -/
def freeInst (c : Chip) (cls h n : Nat) : List Engine :=
  ((List.range n).map (fun i => (⟨cls, h, i⟩ : Engine))).filter (fun e => (c.engine e).service && !c.busy e)

/-- Harrows of a half in service. -/
def harrows (c : Chip) (h : Nat) : List Engine :=
  ((List.range 16).map (fun i => (⟨2, h, i⟩ : Engine))).filter (fun e => (c.engine e).service)

/-- One free Harrow of a half: an awake one, or one to wake (R210). -/
def oneHarrow (h : Nat) (c : Chip) : (Engine ⊕ List Engine) × Chip :=
  let f := freeInst c 2 h 16
  let a := f.filter (fun e => (c.engine e).awake)
  if a.isEmpty then
    let r := c.pick f
    (.inr (match r.1 with
      | some e => [e]
      | none => []), r.2)
  else
    let r := c.pick a
    (match r.1 with
      | some e => .inl e
      | none => .inr [], r.2)

/-- The Harrows of a list, awake; or those to wake. -/
def awakeOr (c : Chip) (es : List Engine) (p : Plan) : Choice :=
  let g := es.filter (fun e => !(c.engine e).awake)
  if g.isEmpty then .go p else .wake g

/-- One Harrow on each of the given halves, for an epilogue (R140). -/
def epiHarrows (hs : List Nat) (c : Chip) : Option (List Engine) × List Engine × Chip :=
  hs.foldl (fun r h =>
    let x := oneHarrow h r.2.2
    match x.1 with
    | .inl e => (r.1.map (fun l => l ++ [e]), r.2.1, x.2)
    | .inr es => (none, r.2.1 ++ es, x.2)) (some [], [], c)

/-- A Furrow product on the given arrays (R140, R334). -/
def furPlan (m : Cmd) (arrays : List Nat) (tandem : Bool) (c : Chip) : Choice × Chip :=
  let a := arrays.map (fun h => (⟨1, h, 0⟩ : Engine))
  let p : Plan := { half := arrays.headD 0, claims := a, tandem := tandem, adm := watt 460 * arrays.length }
  if (furOp m).epi then
    let r := epiHarrows arrays c
    match r.1 with
    | some hs => (.go { p with claims := a ++ hs, adm := p.adm + watt 4 * hs.length }, r.2.2)
    | none => (if r.2.1.isEmpty then .no else .wake r.2.1, r.2.2)
  else (.go p, c)

/-- GEMM and GEMM_SPLIT (R137, R334, R511). -/
def chooseGemm (m : Cmd) (c : Chip) : Choice × Chip :=
  let f := furOp m
  let inS := [0, 1].filter (hasFurrow c)
  let free := inS.filter (fun h => !c.busy ⟨1, h, 0⟩)
  if !f.split then
    if !inS.contains m.half then (.abort, c)
    else if free.contains m.half then furPlan m [m.half] false c
    else (.no, c)
  else if inS.length < 2 then
    if f.tandemF = 2 || inS.isEmpty then (.abort, c)
    else if free.isEmpty then (.no, c) else furPlan m inS false c
  else if free.length = 2 then furPlan m [0, 1] true c
  else if f.tandemF = 2 || free.isEmpty then (.no, c)
  else furPlan m [0, 1] false c

/-- ATTN (R183, R186, R187, R305). -/
def chooseAttn (m : Cmd) (c : Chip) : Choice × Chip :=
  if (attnOp m).decode then
    let free := [0, 1].map (fun h => (freeInst c 2 h 16).take 8)
    let want := [0, 1].map (fun h => min 8 (harrows c h).length)
    let disp : List Engine := [⟨5, 0, 0⟩, ⟨5, 1, 0⟩]
    if (free.map List.length) == want && disp.all (fun e => !c.busy e) then
      let hs := free.flatMap id
      (awakeOr c hs { half := m.half, claims := disp ++ hs, adm := watt 4 * hs.length }, c)
    else (.no, c)
  else if !hasFurrow c m.half then (.abort, c)
  else
    let hs := harrows c m.half
    if c.busy ⟨1, m.half, 0⟩ || hs.any (fun e => c.busy e) then (.no, c)
    else (awakeOr c hs { half := m.half, claims := ⟨1, m.half, 0⟩ :: hs, adm := watt 460 + watt 4 * hs.length }, c)

/-- Blocks resident on a Drill core. -/
def coreBlocks (c : Chip) (h n : Nat) : List DBlock :=
  (c.drill.launches.filter (fun l => l.half == h)).flatMap (fun l => l.blocks.filter (fun b => b.core == n && !b.exited))

/-- Free Drill cores of a half: in service, with no resident block (R225). -/
def freeCores (c : Chip) (h : Nat) : List Nat :=
  (List.range 64).filter (fun n => (c.engine ⟨3, h, n⟩).service && (coreBlocks c h n).isEmpty)

/-- LAUNCH (R225). -/
def chooseLaunch (m : Cmd) (c : Chip) : Choice :=
  if (c.cmds.filter (fun x => x.holds && x.cls == 3 && x.half == m.half)).length < 16 && !(freeCores c m.half).isEmpty then .go { half := m.half } else .no

/-- A DMA mover (R23): in service and idle; migrations take lower priority than every command (R328). -/
def chooseMover (m : Cmd) (c : Chip) : Choice × Chip :=
  let r := c.pick (freeInst c 4 m.half 16)
  match r.1 with
  | some e => (.go { inst := e.idx, half := m.half, adm := watt 25 }, r.2)
  | none => (.no, r.2)

/-- Stacks that hold a frame of a Gleaner command's REGION. -/
def glnStacks (m : Cmd) (c : Chip) : List Engine :=
  let ps := (parseDesc m.bytes 16 0).needs false []
  let ls := ps.filterMap (fun n => (m.pages.find? (fun p => p.vp == n.vp && p.ok)).map (fun p => c.place p.frame))
  (ls.filter (fun l => l.region < 2)).foldl (fun es l =>
    let e : Engine := ⟨0x15, l.region % 2, l.dev⟩
    if es.contains e then es else es ++ [e]) []

/-- A slot on both dispatches for a Gleaner command (R305), its stacks awake (R313). -/
def chooseGleaner (m : Cmd) (c : Chip) : Choice :=
  let n := (c.cmds.filter (fun x => x.holds && x.cls == 5)).length
  let attn := c.cmds.any (fun x => x.holds && x.claims.contains ⟨5, 0, 0⟩)
  if n ≥ 8 || attn then .no else awakeOr c (glnStacks m c) { half := m.half }

/-- The queue processor that a RESET_FUNCTION or a SELFTEST_SLICE names, on which it does not run itself (R507, R523). -/
def resetsQp (m : Cmd) (e : Engine) : Bool :=
  m.cls == 0xF && m.par 33 1 == e.half &&
    ((m.op == 0xA && m.par 32 1 == 1 && m.par 34 1 == 98 + e.idx) || (m.op == 6 && m.par 32 1 == 5 && m.par 34 2 == e.idx))

/-- A free queue processor of a half, where the command needs one (R73). -/
def needQp (m : Cmd) (p : Plan) (c : Chip) : Choice × Chip :=
  if !runsQp m then (.go p, c)
  else
    let r := c.pick ((freeInst c 0xE m.half 16).filter (fun e => !resetsQp m e))
    match r.1 with
    | some e =>
      (.go (if m.cls ≥ 0xE then { p with inst := e.idx } else { p with claims := p.claims ++ [e] }), r.2)
    | none => (.no, r.2)

/-- The instances a command issues to (R23) (log entry 73). -/
def choose (m : Cmd) (c : Chip) : Choice × Chip :=
  match m.cls with
  | 1 => if m.op = 3 then chooseAttn m c else chooseGemm m c
  | 2 =>
    let r := oneHarrow m.half c
    (match r.1 with
      | .inl e => .go { inst := e.idx, half := m.half, adm := watt 4 }
      | .inr [] => .no
      | .inr es => .wake es, r.2)
  | 3 => (chooseLaunch m c, c)
  | 4 => chooseMover m c
  | 5 =>
    (match chooseGleaner m c with
      | .go p => needQp m p c
      | x => (x, c))
  | _ => needQp m { half := m.half } c

/-- The engines whose configuration decides a command's epoch (R60, R62), the first of them the one that reports. -/
def epochEngines (m : Cmd) (p : Plan) (c : Chip) : List Engine :=
  match m.cls with
  | 1 => if p.claims.any (fun e => e.cls == 1) then p.claims.filter (fun e => e.cls ≤ 2) else p.claims
  | 3 => ((freeCores c m.half).take 1).map (fun n => ⟨3, m.half, n⟩)
  | 0xE => if m.queue?.isSome && runsQp m then [⟨0xE, m.half, p.inst⟩] else []
  | 0xF => if m.queue?.isSome then [⟨0xE, m.half, p.inst⟩] else []
  | 5 => [⟨5, m.half, 0⟩, ⟨5, 1 - m.half, 0⟩]
  | k => [⟨k, m.half, p.inst⟩]

/-! ### Priority -/

/-- The effective priority (R53). -/
def effPriority (c : Chip) (m : Cmd) : Nat :=
  if m.raised then 3
  else match m.car with
  | .queue q => min m.priority (min (c.queue q).prioCap (c.ctxDesc m.ctx).prioCap)
  | _ => m.priority

/-- The engines a command competes for: its kind and half. -/
def lane (m : Cmd) : Nat := servCls m.cls * 2 + m.half

/-- The command could issue now (log entry 73). -/
def couldIssue (c : Chip) (m : Cmd) : Bool :=
  ready c m && (match (choose m c).1 with
    | .go _ => true
    | .abort => true
    | _ => false)

/-- Places from the queue that issued last to a command's queue, in turn (R53). -/
def turn (c : Chip) (m : Cmd) : Nat := wrapSub 20 ((m.queue?).getD 0) (kget (fun _ => 2 ^ 20 - 1) c.rr (lane m) + 1)

/-- Another ready command of the same engines goes first (R53): a higher priority, or its queue's turn at an equal one (log entry 73). -/
def outranked (c : Chip) (m : Cmd) : Bool :=
  m.queue?.isSome && c.cmds.any (fun x =>
    x.queue?.isSome && lane x == lane m && decide (x.car ≠ m.car) &&
      !(c.gov.waiting.any (fun w => decide (w.1 = .cmd x.car x.seq))) &&
      (effPriority c x > effPriority c m || (effPriority c x == effPriority c m && turn c x < turn c m)) && couldIssue c x)

/-! ### Issue -/

/-- Starts ordered for the clocks or power of instances (R136, R210, R476); the Gleaners of a stack are admitted first (R486). -/
def startEngines (es : List Engine) (c : Chip) : Chip :=
  es.foldl (fun c e =>
    let x := c.engine e
    if x.awake || x.starting then c
    else if e.cls = 0x15 then
      let r := admission (.stack e.half e.idx) (watt 25 / 2) c
      if r.1 then r.2.setEngine e { x with starting := true } else r.2
    else c.setEngine e { x with starting := true }) c

/-- The fence failure of R52. -/
def fenceFails (c : Chip) (m : Cmd) : Option Res :=
  match m.fenceBefore, (c.ctx m.ctx).err with
  | true, some f => some ⟨f.status, setCause (putLe f.detail 10 4 (c.ctx m.ctx).errCount) 0x10⟩
  | _, _ => none

/-- A FW_STAGE as it issues (R89, R533): its slot's OK bit reads 0 from now on, and PROG 1 records that it is not refused. -/
def stageIssue (m : Cmd) (c : Chip) : Cmd × Chip :=
  let u := m.par 44 1
  let i := m.par 45 1
  let active := c.hedge.act.any (fun a => a.unit == u)
  if m.cls ≠ 0xF || m.op != 8 || c.rget MGT (runFld u) == i || active || (!c.up && (m.par 32 8 != 0 || u != 0)) then (m, c)
  else ({ m with prog := 1 }, setSlotOk u i 0 c)

/-- The command issues to the instances chosen. -/
def issueTo (m : Cmd) (p : Plan) (prev : Bool) (es : List Engine) (c : Chip) : Chip :=
  let c := if prev || m.epoch == 0 then c else es.foldl (fun c e => adopt true e c) c
  let m := { m with phase := .executing, issued := true, inst := p.inst, half := p.half, claims := p.claims, tandem := p.tandem,
                    adm := p.adm, usesPrev := prev, needPlace := false }
  let st := stageIssue m c
  let m := st.1
  let c := st.2
  let c := m.pages.foldl (fun c p => if p.ok then c.touch (p.frame * 65536) else c) (c.putCmd m)
  let c := startEngines (p.claims.filter (fun e => e.cls == 1)) c
  let c := if m.cls = 7 && m.op ≤ 5 then
      { c with fab := { c.fab with colls := c.fab.colls.map (fun x =>
          if x.cmd = some (m.car, m.seq) then { x with place := collPlace c m } else x) } }
    else c
  let c := if runsQp m then c.rcount (QPB m.half) QPR_INTERPRETED 1 else c
  let c := match m.queue? with
    | some q => { c with rr := kset (fun _ => 2 ^ 20 - 1) c.rr (lane m) q }
    | none => c
  setBallast c.gov.bal c

/-- The pages of a LAUNCH's argument block, translated as it issues (R224); the first that cannot be read. -/
def paramBad (m : Cmd) (c : Chip) : Option XPage × Chip :=
  if m.cls ≠ 3 then (none, c)
  else
    let r := xlatePages m.half m.ctx (c.ctxDesc m.ctx).ptRoot (needRange (bits (m.par 24 8) 0 57) (m.par 32 4) 0xFF false []) c
    (r.1.find? (fun p => !p.ok), r.2)

/-- A ready command issues, or ends, or waits for power or for a clock. -/
def issueReady (m : Cmd) (c : Chip) : Chip :=
  match fenceFails c m with
  | some r => retire m r (c.setCtx m.ctx { c.ctx m.ctx with err := none, errCount := 0 })
  | none =>
    let r := choose m c
    match r.1 with
    | .no => c
    | .wake es => startEngines es r.2
    | .abort => retire m { (abortRes m 5) with status := sAborted } r.2
    | .go p =>
      let es := epochEngines m p r.2
      match epochCheck m es r.2 with
      | .inr cur => retire m (mkRes sEpoch [(0, 2, m.epoch), (2, 2, cur)]) r.2
      | .inl prev =>
        let b := paramBad m r.2
        match b.1 with
        | some pg => stallAt m pg b.2
        | none =>
          let a := admission (.cmd m.car m.seq) p.adm b.2
          if a.1 then issueTo m p prev es a.2 else a.2

/-- COMMAND_ISSUE (R50, R89): the named command issues when every condition has cleared and no other goes first (log entries 58, 73). -/
def commandIssueStep (k : Carrier) (seq : Nat) (c : Chip) : Chip :=
  match c.findCmd k seq with
  | some m => if (c.up || m.queue?.isNone) && ready c m && !outranked c m then issueReady m c else c
  | none => c

/-- PRIORITY_RAISE (R53): a command ready for 10 ms without issuing. -/
def priorityRaiseStep (q seq : Nat) (c : Chip) : Chip :=
  match c.findCmd (.queue q) seq with
  | some m => if ready c m then c.putCmd { m with raised := true } else c
  | none => c

/-! ### Retirement -/

/-- A finished WAIT of a pre-empted queue retires once its queue runs again (R27, R374) (log entry 73). -/
def mayRetire (c : Chip) (m : Cmd) : Bool :=
  decide (m.phase = .finished) && m.txns.isEmpty &&
    !(m.cls == 6 && (m.op == 5 || m.op == 0xA) && (match m.car with
      | .queue q => decide ((c.queue q).st = .preempted)
      | _ => false))

/-- COMMAND_RETIRE (R43): a finished command's record is written and what it held is released. -/
def commandRetireStep (k : Carrier) (seq : Nat) (c : Chip) : Chip :=
  match c.findCmd k seq with
  | some m =>
    match m.res with
    | some r => if mayRetire c m then retire m r c else c
    | none => c
  | none => c

/-! ### Between commands -/

/-- PRE_WAITs that found no watch place take one as places free (R368) (log entry 59). -/
def givePlaces (c : Chip) : Chip :=
  c.cmds.foldl (fun c x =>
    match c.findCmd x.car x.seq with
    | some m => if m.preWait && m.needPlace && c.watchFree (bits m.semN 17 1) > 0 then placePreWait m m.semN m.semT c else c
    | none => c) c

/-- What follows at once from any command: scoreboards are entered, watch places taken and devices asked for woken. -/
def settle (c : Chip) : Chip := wakeMem (giveRemote (givePlaces (sbEnterAll (raiseWaiting c))))

end Sys2Proof.Machine
end

