-- ==== Sys2Proof/Machine/Collective.lean ====
section
/-! DEFINITION. Collectives (R460 to R465): the members' data, the fixed order of a reduction, staging, READY marks, the commit, and
peers lost. The way the data travel between members is the model's own (log entry 31): each member's SRC goes round the ring whole. -/

namespace Sys2Proof.Machine

open Sys2Proof

/-! ### The reduction -/

/-- An element under reduction: its value and the CAUSE it has as a NaN, 0 for none (R112). -/
structure RVal where
  v : Val
  cause : Nat
  deriving DecidableEq, Repr

/-- One step of a reduction (R463): rounded once in the operand format; INT32 sums wrap; MAX and MIN by R199. ROP: 0 sum, 1 max,
2 min. -/
def redStep (f : Fmt) (rop : Nat) (a b : RVal) : RVal :=
  let r := match rop with
    | 0 => if fmtIsInt f then vInt (sext 32 (wrapInt 32 (vToInt a.v + vToInt b.v))) else vRound f (vAdd a.v b.v)
    | 1 => maxVal a.v b.v
    | _ => minVal a.v b.v
  ⟨r, if !vIsNan r then 0 else if a.cause ≠ 0 then a.cause else if b.cause ≠ 0 then b.cause else 1⟩

/-- Chunk of element e of s elements cut into n chunks: the chunk c with ⌊cs/n⌋ ≤ e < ⌊(c + 1)s/n⌋. -/
def chunkOf (s n e : Nat) : Nat := ((e + 1) * n - 1) / s

/-- An element of a chunk travels the +x way: it lies in the chunk's first half (R463). Which half the middle element of a chunk of
odd length belongs to is left open, alike at every member (log entry 3). -/
def plusWay (s n e : Nat) : Bool :=
  let c := chunkOf s n e
  let lo := c * s / n
  let len := (c + 1) * s / n - lo
  2 * (e - lo) + 1 < len || (2 * (e - lo) + 1 == len && Config.free (2 ^ 64 + len) % 2 == 1)

/-- The members in the order in which a chunk's partial sum takes them (R463). -/
def redOrder (n c : Nat) (plus : Bool) : List Nat :=
  (List.range n).map (fun i => if plus then (c + 1 + i) % n else (c + n - 1 - i % n + n) % n)

/-- Element e of s, reduced over lists of the members' elements. -/
def redElem (f : Fmt) (rop s e : Nat) (xs : List RVal) : RVal :=
  let n := xs.length
  match (redOrder n (chunkOf s n e) (plusWay s n e)).map (fun i => nth xs i ⟨vZero, 0⟩) with
  | [] => ⟨vZero, 0⟩
  | x :: rest => rest.foldl (redStep f rop) x

/-- Members that share a key, in list order, as one list for each key. -/
def groupKeys {α : Type} : List (Nat × α) → List (Nat × List α)
  | [] => []
  | (k, x) :: rest =>
    let r := groupKeys rest
    match r.find? (fun g => g.1 == k) with
    | some g => (k, x :: g.2) :: r.filter (fun h => h.1 != k)
    | none => (k, [x]) :: r

/-- Key of a node at a level: what is left of its coordinates once the dimensions up to that level are reduced (R463) (log entry 60). -/
def levelKey (c : Chip) (node lvl : Nat) : Nat :=
  let hi := (coordFld c lvl).1 + (coordFld c lvl).2
  node / 2 ^ hi

/-- Levels of an algorithm: none for the ring in x; the dimensions in turn for the torus; x, then the up-links, for the tree (log entry 60). -/
def redLevels (alg : Nat) (c : Chip) : List Nat :=
  match alg with
  | 1 => topoDims (c.rget AIH AIH_TOPO_CUR_KIND)
  | 2 => [0]
  | _ => []

/-- Element e reduced level by level, then over what is left. -/
def redLevelsElem (f : Fmt) (rop s e : Nat) (c : Chip) : List Nat → List (Nat × RVal) → RVal
  | [], l => redElem f rop s e (l.map (fun x => x.2))
  | k :: ks, l =>
    let gs := groupKeys (l.map (fun x => (levelKey c x.1 k, x)))
    redLevelsElem f rop s e c ks (gs.map (fun g => ((nth g.2 0 (0, ⟨vZero, 0⟩)).1, redElem f rop s e (g.2.map (fun x => x.2)))))

/-! ### Members' data -/

/-- Element i of packed data. -/
def codeAt (w : Nat) (l : List Byte) (i : Nat) : Nat := bits (leNat (sliceBytes l (w * i / 8) ((w * i % 8 + w + 7) / 8))) (w * i % 8) w

/-- The operands of a collective. -/
def collSrc (m : Cmd) : Desc := parseDesc m.bytes 16 0
/-- DST. -/
def collDstD (m : Cmd) : Desc := parseDesc m.bytes 64 1

/-- The data and poison of member j. -/
def Coll.dataOf (x : Coll) (j : Nat) : List Nat × List Byte := ((x.got.find? (fun g => g.1 == j)).map (fun g => g.2)).getD ([], [])

/-- The code of element e of member j, with its poison. -/
def Coll.elem (x : Coll) (w j e : Nat) : Nat × Bool := let d := x.dataOf j; (codeAt w d.2 e, d.1.contains e)

/-- Element e of the reduction of all members (R463): its value, and whether poison feeds it. -/
def Coll.red (x : Coll) (c : Chip) (m : Cmd) (g : Group) (e : Nat) : RVal × Bool :=
  let s := collSrc m
  let xs := (List.range g.n).map (fun j =>
    let v := decodeFmt s.f (x.elem s.w j e).1
    (((rankNode c (g.rank c j)).getD 0), (⟨v, if vIsNan v then 2 else 0⟩ : RVal)))
  (redLevelsElem s.f (m.par 100 1) s.d0 e c (redLevels g.alg c) xs, (List.range g.n).any (fun j => (x.elem s.w j e).2))

/-- The result at this member (R462): element codes with their poison, and the first NaN written (log entry 31). -/
def Coll.result (x : Coll) (c : Chip) (m : Cmd) (g : Group) : List (Nat × Bool) × Option (Nat × Nat) :=
  let s := collSrc m
  let k := s.d0 / g.n
  let red := fun (lo n : Nat) =>
    let rs := (List.range n).map (fun i => x.red c m g (lo + i))
    (rs.map (fun r => ((encodeVal s.f r.1.v).code, r.2)),
      ((List.range n).find? (fun i => let r := nth rs i (⟨vZero, 0⟩, false); r.1.cause != 0 && !r.2)).map (fun i => (i, (nth rs i (⟨vZero, 0⟩, false)).1.cause)))
  match m.op with
  | 1 => red 0 s.d0
  | 2 => red (g.me * k) k
  | 3 => ((List.range g.n).flatMap (fun j => (List.range s.d0).map (fun e => x.elem s.w j e)), none)
  | 4 => ((List.range s.d0).map (fun e => x.elem s.w ((List.range g.n).find? (fun j => g.rank c j == m.par 104 4) |>.getD 0) e), none)
  | _ => ((List.range g.n).flatMap (fun j => (List.range k).map (fun e => x.elem s.w j (g.me * k + e))), none)

/-! ### Messages -/

/-- A collective by group and CSEQ. -/
def Chip.coll (c : Chip) (g n : Nat) : Option Coll := c.fab.colls.find? (fun x => x.group == g && x.cseq == n)

/-- A collective replaced or added. -/
def Chip.putColl (c : Chip) (x : Coll) : Chip :=
  { c with fab := { c.fab with colls := c.fab.colls.filter (fun y => !(y.group == x.group && y.cseq == x.cseq)) ++ [x] } }

/-- A collective is over at this member, its staging place free. -/
def Chip.dropColl (c : Chip) (g n : Nat) : Chip :=
  { c with fab := { c.fab with colls := c.fab.colls.filter (fun y => !(y.group == g && y.cseq == n)) } }

/-- A message to the member of index i (R461); an unreachable one is a lost peer (R465) (log entry 31). -/
def sendColl (g : Group) (i : Nat) (msg : CollMsg) (c : Chip) : Chip :=
  let rank := g.rank c i
  match startTxn (.coll msg.group msg.cseq) rank (.coll msg) c with
  | (.sent _, c) => c
  | (_, c) => markColl msg.group msg.cseq (fun x => { x with lost := some (x.lost.getD rank) }) c

/-- A message of this member's own (log entry 31). -/
def ownMsg (x : Coll) (me kind lost : Nat) (poison : List Nat) (data : List Byte) : CollMsg :=
  ⟨0, 0, 0, 0, x.group, x.cseq, x.op, x.cepoch, me, kind, lost, poison, data⟩

/-- The next member in list order. -/
def Group.next (g : Group) : Nat := (g.me + 1) % g.n
/-- The member before. -/
def Group.prev (g : Group) : Nat := (g.me + g.n - 1) % g.n

/-- A message goes on round the ring, unless its source is next (log entry 31). -/
def passOn (g : Group) (msg : CollMsg) (c : Chip) : Chip :=
  if g.n ≤ 1 || g.next == msg.src || g.next == g.me then c else sendColl g g.next msg c

/-- A mark to both neighbours, the lost member left out. -/
def tellBoth (g : Group) (x : Coll) (kind lost : Nat) (c : Chip) : Chip :=
  let mates := (if g.next = g.prev then [g.next] else [g.next, g.prev]).filter (fun i => i != g.me && !(kind == 2 && i == lost))
  mates.foldl (fun c i => sendColl g i (ownMsg x g.me kind lost [] []) c) c

/-- The index of a rank in a group. -/
def Group.index (g : Group) (c : Chip) (rank : Nat) : Nat := ((List.range g.n).find? (fun i => g.rank c i == rank)).getD g.n

/-! ### The end of a collective -/

/-- A collective leaves this member, which tells its neighbours that it is lost (R465). -/
def withdrawColl (x : Coll) (c : Chip) : Chip :=
  let c := c.dropColl x.group x.cseq
  match groupAt c false x.group with
  | some g => tellBoth g x 2 g.me c
  | none => c

/-- Collectives whose command has retired without committing (aborted, declined, failed at a fence) leave this member. -/
def collOrphans (c : Chip) : Chip :=
  c.fab.colls.foldl (fun c x => match x.cmd with
    | some (k, s) => if (c.findCmd k s).isSome then c else withdrawColl x c
    | none => c) c

/-- EPOCH_MISMATCH of a collective (R81, R461). -/
def collMismatch (m : Cmd) (x : Coll) (c : Chip) : Res :=
  mkRes sEpoch [(0, 2, m.epoch), (2, 2, c.rget MOD MOD_CFG_EPOCH_CURRENT), (4, 2, x.cepoch)]

/-- A collective that has found a mismatch, a refusal or a lost peer ends and tells its neighbours (R461, R465) (log entry 60). -/
def collEnd (x : Coll) (m : Cmd) (g : Group) (c : Chip) : Chip :=
  let c := c.dropColl x.group x.cseq
  if x.mismatch then finish m (collMismatch m x c) (tellBoth g x 3 0 c)
  else match x.fail, x.lost with
  | some r, _ => finish m r (tellBoth g x 2 g.me c)
  | none, some rank => finish m (peerLostRes rank x.group) (tellBoth g x 2 (g.index c rank) c)
  | none, none => c

/-- The commit (R464): the staged result is copied into DST, and the command's outcome follows its elements (R110, R500). -/
def collCommit (x : Coll) (m : Cmd) (c : Chip) : Chip :=
  let d := collDstD m
  let l := x.staged.getD []
  let c := storeCodes d 0 0 l m (c.dropColl x.group x.cseq)
  let m := match x.nan with
    | some (e, cause) => { m with notes := m.notes.addNan (dmaEv c e 0 0 cause) }
    | none => m
  let p := c.draw
  let q := p.2.draw
  let r := if l.any (fun y => y.2) then ({ m with notes := m.notes.sawBad false (p.1 % 2 ^ 57, q.1 % 5) }, q.2) else (m, c)
  finish r.1 (endRes r.2 r.1 []) r.2

/-- A collective moves on: the result is staged once every member's data are here, READY goes round, and the commit follows when every
READY mark is here (R464) (log entry 31). -/
def collAdvance (x : Coll) (m : Cmd) (g : Group) (c : Chip) : Chip :=
  let all := (List.range g.n).all (fun j => x.got.any (fun y => y.1 == j))
  let r := if all && x.staged.isNone then
      let y := x.result c m g
      let x := { x with staged := some y.1, nan := y.2, ready := insertNat g.me x.ready }
      (x, if g.n > 1 then sendColl g g.next (ownMsg x g.me 1 0 [] []) (c.putColl x) else c.putColl x)
    else (x, c.putColl x)
  if r.1.staged.isSome && r.1.ready.length == g.n then collCommit r.1 m r.2 else r.2

/-- The command of a collective that has begun here. -/
def Coll.running (x : Coll) (c : Chip) : Option Cmd :=
  match x.cmd with
  | some (k, s) => (c.findCmd k s).filter (fun m => decide (m.phase = .executing) && x.begun)
  | none => none

/-- A collective that has begun and can end, ends. -/
def collSettle (c : Chip) : Chip :=
  (collOrphans c).fab.colls.foldl (fun c x =>
    if x.mismatch || x.lost.isSome || x.fail.isSome then
      match c.coll x.group x.cseq with
      | none => c
      | some x =>
        match x.running c with
        | none => c
        | some m => match groupOf c m x.group with
          | some g => collEnd x m g c
          | none => finish m malformedRes (c.dropColl x.group x.cseq)
    else c) (collOrphans c)

/-! ### The rows -/

/-- A collective begins at this member: its SRC is read and starts round the ring, behind what has arrived already (R461, R464) (log entry 31). -/
def collBegin (x : Coll) (m : Cmd) (g : Group) (c : Chip) : Chip :=
  let s := collSrc m
  let part := (s, 0, s.rowBytes)
  match partsBadWord c m [part] with
  | some (h, o) =>
    let m := if m.idempotent then { m with reruns := 2 } else m
    withdrawColl x (finish m (parityRes m (collDstD m).addr 3) (parityPoison h o (parityRegs h o c)))
  | none =>
    let bad := (List.range s.d0).filter (fun e => (elemBad c m s e 0 0).isSome)
    let data := opBytes c m s 0 s.rowBytes
    let r := takeAll [part] m c
    let port := match rankNode r.2 (g.rank r.2 g.next) with
      | some n => (match route r.2 n with
        | .port p => p
        | _ => 0)
      | none => 0
    let m := { r.1 with inst := port }
    let old := x.got
    let marks := x.ready
    let x := { x with begun := true, got := x.got ++ [(g.me, bad, data)] }
    let c := (r.2.putCmd m).putColl x
    let c := if g.n > 1 then sendColl g g.next (ownMsg x g.me 0 0 bad data) c else c
    let c := old.foldl (fun c y => passOn g { ownMsg x g.me 0 0 y.2.1 y.2.2 with src := y.1 } c) c
    let c := marks.foldl (fun c j => passOn g { ownMsg x g.me 1 0 [] [] with src := j } c) c
    match c.coll x.group x.cseq with
    | some y => if y.lost.isSome || y.mismatch || y.fail.isSome then c else collAdvance y m g c
    | none => c

/-- The row of a collective of an opcode. -/
def collStep (op q seq : Nat) (c : Chip) : Chip :=
  match running q seq 7 op c with
  | none => c
  | some m =>
    match c.fab.colls.find? (fun x => decide (x.cmd = some (m.car, m.seq)) && !x.begun), groupOf c m (m.par 96 2) with
    | some x, some g => collBegin x m g c
    | some x, none => finish m malformedRes (c.dropColl x.group x.cseq)
    | none, _ => c

/-- ALLREDUCE (R462). -/
def allreduceStep (q seq : Nat) (c : Chip) : Chip := collStep 1 q seq c
/-- REDUCE_SCATTER (R462). -/
def reduceScatterStep (q seq : Nat) (c : Chip) : Chip := collStep 2 q seq c
/-- ALLGATHER (R462). -/
def allgatherStep (q seq : Nat) (c : Chip) : Chip := collStep 3 q seq c
/-- BROADCAST (R462). -/
def broadcastStep (q seq : Nat) (c : Chip) : Chip := collStep 4 q seq c
/-- ALLTOALL (R462). -/
def alltoallStep (q seq : Nat) (c : Chip) : Chip := collStep 5 q seq c

/-- A message taken into a collective's state (log entry 60). -/
def Coll.hear (x : Coll) (c : Chip) (g : Option Group) (msg : CollMsg) : Coll :=
  let x := { x with mismatch := x.mismatch || x.op != msg.op || x.cepoch != msg.cepoch || msg.kind == 3 }
  match msg.kind with
  | 0 => if x.got.any (fun y => y.1 == msg.src) then x else { x with got := x.got ++ [(msg.src, msg.poison, msg.data)] }
  | 1 => { x with ready := insertNat msg.src x.ready }
  | 2 => { x with lost := some (x.lost.getD ((g.map (fun y => y.rank c msg.lost)).getD msg.rank)) }
  | _ => x

/-- A message of a collective (R461, R464): kept, passed on, and the collective moves on. Messages of a collective that is over
here are dropped (log entry 31). -/
def hearColl (msg : CollMsg) (c : Chip) : Chip :=
  let done := (c.coll msg.group msg.cseq).isNone && seqNewer (kget (fun _ => 0) c.fab.cseqs msg.group) msg.cseq
  if done then c
  else
    let x := (c.coll msg.group msg.cseq).getD { group := msg.group, cseq := msg.cseq, op := msg.op, cepoch := msg.cepoch }
    let cmd := x.running c
    let g := match cmd with
      | some m => groupOf c m msg.group
      | none => none
    let x := x.hear c g msg
    let c := c.putColl x
    match cmd, g with
    | some m, some g =>
      let c := if msg.kind ≤ 1 then passOn g msg c else c
      (match c.coll msg.group msg.cseq with
       | some y => if y.lost.isSome || y.mismatch || y.fail.isSome then c else collAdvance y m g c
       | none => c)
    | _, _ => c

/-- A collective message at this module (R453, R457): repeated ones are answered and not heard again. -/
def collArrive (msg : CollMsg) (c : Chip) : Chip :=
  receiveTxn msg.rank msg.node msg.seq (fun c =>
    if msg.job ≠ c.rget AIH AIH_JOB_CUR_JOB then (some (mkReply c msg.seq (accessRes 0 5 0xFF) [] false), c.rcount AIH AIH_REFUSED 1)
    else (some (mkReply c msg.seq doneRes [] false), hearColl msg c)) c

/-- COLLECTIVE_MESSAGE (R464). -/
def collectiveMessageStep (msg : CollMsg) (c : Chip) : Chip := collArrive msg c

/-- A node is lost (R465): every collective here with a member there ends as its command runs on. -/
def nodeLost (node : Nat) (c : Chip) : Chip :=
  c.fab.colls.foldl (fun c x =>
    match x.running c with
    | none => c
    | some m => match groupOf c m x.group with
      | none => c
      | some g =>
        (match (g.ranks c).find? (fun r => rankNode c r == some node) with
         | some r => markColl x.group x.cseq (fun y => { y with lost := some (y.lost.getD r) }) c
         | none => c)) c

end Sys2Proof.Machine
end

