-- ==== Sys2Proof/Machine/Surveyor.lean ====
section
/-! DEFINITION. Surveyor (R318 to R336): placement flags, planning at the end of a survey period, credit, and migrations. -/

namespace Sys2Proof.Machine

open Sys2Proof

/-! ### Policy and credit -/

/-- BUDGET in force (R335). -/
def budget (c : Chip) : Nat := min 100 (c.rget MOD MOD_SRV_POLICY_CUR_BUDGET)
/-- HYST in force (R335). -/
def hyst (c : Chip) : Nat := max 2 (c.rget MOD MOD_SRV_POLICY_CUR_HYST)
/-- CROSS in force (R335). -/
def cross (c : Chip) : Nat := min 100 (max 51 (c.rget MOD MOD_SRV_POLICY_CUR_CROSS))
/-- The survey period in nanoseconds (R335). -/
def periodNs (c : Chip) : Nat := max 1 (c.rget MOD MOD_SRV_POLICY_CUR_PERIOD) * 100000

/-- What a device's credit grows by in a nanosecond for each unit of BUDGET, in 1/10,000 B: one thousandth of its signalling rate
(R18, R331). -/
def creditRate (k : Nat) : Nat := if dkInf k then 20480 else 768

/-- Bytes as credit. -/
def asCredit (n : Nat) : Nat := n * 10000

/-- A device's credit now (R331), at most 256 KiB; it starts there, so that CREDIT_LOW has its reset value 0 (R336) (log entry 48). -/
def creditNow (c : Chip) (k : Nat) : Credit :=
  let x := (c.srv.credits.find? (fun x => x.dev == k)).getD ⟨k, asCredit 524288, asCredit 524288, 0⟩
  let t := c.time - x.time
  ⟨k, min (asCredit 524288) (x.cur + t * creditRate k * budget c), min (asCredit 524288) (x.floor + t * creditRate k * max 10 (budget c)), c.time⟩

/-- Units that a migration reads or writes on a device take its credit (R331) (log entry 48). -/
def takeCredit (k n : Nat) (c : Chip) : Chip :=
  let x := creditNow c k
  let u := asCredit (64 * n)
  { c with srv := { c.srv with credits := c.srv.credits.filter (fun y => y.dev != k) ++ [{ x with cur := x.cur - u, floor := x.floor - u }] } }

/-- Migrations that use a budget of at least 1 % (R331). -/
def MigWhy.must : MigWhy → Bool
  | .retire | .testOut | .testBack | .pin => true
  | .hint | .promote | .balance => false

/-- A device's credit in bytes above -256 KiB, as a migration sees it (log entry 48). -/
def creditFor (c : Chip) (k : Nat) (w : MigWhy) : Nat := (if w.must then (creditNow c k).floor else (creditNow c k).cur) / 10000

/-- A device holds less than 128 KiB of credit (R336). -/
def creditLow (c : Chip) (k : Nat) : Bool := creditFor c k .promote < 393216

/-! ### Flags -/

/-- Where the interleave index puts a frame (R323): its device, in Infield or in Outfield. -/
def ilvDev (inf : Bool) (k : Nat) : Nat := if inf then k % 12 / 6 * 16 + k % 12 % 6 else (2 + k / 12) * 16 + k % 12

/-- A frame may lie at a place as far as its interleave hint goes (R322). -/
def ilvOk (c : Chip) (f : Nat) (l : FrameLoc) : Bool :=
  match (c.pflags f).ilv with
  | some k => l.dk == ilvDev (l.region < 2) k
  | none => true

/-- A frame is away from its slot for a slice test (R525). -/
def stAway (c : Chip) (f : Nat) : Bool :=
  match c.hedge.slice with
  | some s => s.moved.any (fun x => x.1 == f)
  | none => false

/-- A frame is free to move (R322) (log entry 49). -/
def freeToMove (c : Chip) (f : Nat) : Bool :=
  let x := c.pflags f
  x.pin.isNone && x.prefer == 0 && !x.cold && !(c.srv.migs.any (fun m => m.has f)) && !stAway c f && !(c.srv.gone.any (fun g => g.1 == f))

/-- The half with the larger count of a group, East on equal counts (R322). -/
def drawHalf (c : Chip) (g : Nat) : Nat := if (c.counts g).2 > (c.counts g).1 then 1 else 0

/-- The hint a frame carries, as the flags it leaves (R323); n is the frame's place in the range. -/
def hintFlags (kind whr n : Nat) (x : PFlags) : PFlags :=
  match kind with
  | 1 => { x with prefer := 1 + whr % 2, cold := false }
  | 2 => { x with ilv := some (n % 24) }
  | 3 => { x with prefer := 0, cold := true }
  | _ => { x with prefer := 0, cold := false, ilv := none }

/-- The frames of a Surveyor command's range, in ascending virtual address order, with their place in it. -/
def rangeFrames (m : Cmd) : List (Nat × Nat) := m.pages.map (fun p => (p.vp - m.par 16 8 % 2 ^ 57 / 65536, p.frame))

/-- The class 8 command that a row names, in execution (log entry 5). -/
def surveyCmd (q seq op : Nat) (c : Chip) : Option Cmd :=
  (c.findCmd (.queue q) seq).filter (fun m => decide (m.phase = .executing) && m.cls == 8 && m.op == op)

/-- HINT (R323, R324). -/
def hintStep (q seq : Nat) (c : Chip) : Chip :=
  match surveyCmd q seq 1 c with
  | some m =>
    finish m doneRes ((rangeFrames m).foldl (fun c f => c.setFlags f.2 (hintFlags (m.par 32 1) (m.par 33 1) f.1 (c.pflags f.2))) c)
  | none => c

/-- UNPIN (R324). -/
def unpinStep (q seq : Nat) (c : Chip) : Chip :=
  match surveyCmd q seq 3 c with
  | some m => finish m doneRes ((rangeFrames m).foldl (fun c f => c.setFlags f.2 { c.pflags f.2 with pin := none }) c)
  | none => c

/-- Pins that a region may hold (R325). -/
def pinLimit (r : Nat) : Nat := (if r < 2 then 6291456 else 25165824) - 65536

/-- Frames pinned to a region. -/
def pinned (c : Chip) (r : Nat) : Nat := (c.srv.flags.filter (fun e => e.2.pin == some r)).length

/-- Frames are pinned in turn until the limit is met (R325): how many of them were. -/
def pinFrames (r : Nat) : List Nat → Nat → Chip → Nat × Chip
  | [], n, c => (n, c)
  | f :: fs, n, c =>
    if (c.pflags f).pin = some r then pinFrames r fs (n + 1) c
    else if pinned c r < pinLimit r then pinFrames r fs (n + 1) (c.setFlags f { c.pflags f with pin := some r })
    else (n, c)

/-- The frames a PIN command has pinned; PROG holds their number and 1 (R325). -/
def pinSet (m : Cmd) : List Nat := ((rangeFrames m).map (fun f => f.2)).take (m.prog - 1)

/-- A PIN command ends when every frame it pinned, and that still carries its pin, lies in the region (R325). -/
def pinEnd (m : Cmd) (c : Chip) : Chip :=
  let r := m.par 33 1 % 4
  if m.prog = 0 || (pinSet m).any (fun f => (c.pflags f).pin == some r && (c.place f).region != r) then c
  else
    let left := (rangeFrames m).length - (m.prog - 1)
    let va := bits (m.par 16 8) 0 57 + 65536 * (m.prog - 1)
    let c := finish m doneRes c
    if left = 0 then c else postEvent m.ctx 0x0030 ((m.queue?).getD 0) m.seq (fields 16 [(0, 4, left), (4, 8, va)]) c

/-- PIN (R325): it pins its frames, and ends once they lie in the region. -/
def pinStep (q seq : Nat) (c : Chip) : Chip :=
  match surveyCmd q seq 2 c with
  | some m =>
    if m.prog > 0 then pinEnd m c
    else
      let r := pinFrames (m.par 33 1 % 4) ((rangeFrames m).map (fun f => f.2)) 0 c
      let m := { m with prog := r.1 + 1 }
      pinEnd m (r.2.putCmd m)
  | none => c

/-- PIN commands whose frames have all arrived end. -/
def pinsEnd (c : Chip) : Chip :=
  (c.cmds.filter (fun m => decide (m.phase = .executing) && m.cls == 8 && m.op == 2 && m.prog != 0)).foldl (fun c m => pinEnd m c) c

/-- An aborted PIN drops the pins of the frames that do not lie in the region yet (R325). -/
def pinAbort (m : Cmd) (c : Chip) : Chip :=
  let r := m.par 33 1 % 4
  (pinSet m).foldl (fun c f =>
    if (c.pflags f).pin == some r && (c.place f).region != r then c.setFlags f { c.pflags f with pin := none } else c) c

/-! ### Planning -/

/-- A plan as it is made: the module with the migrations planned, and the bytes planned on each device. -/
structure SrvPlan where
  c : Chip
  used : List (Nat × Nat) := []

/-- The plan leaves a device n bytes of credit and of the growth of one period (R322, R331) (log entry 48). -/
def SrvPlan.room (p : SrvPlan) (w : MigWhy) (k n : Nat) : Bool :=
  let b := if w.must then max 10 (budget p.c) else budget p.c
  let have_ := (creditFor p.c k w - 262144) + periodNs p.c * creditRate k * b / 10000
  kget (fun _ => 0) p.used k + n ≤ have_

/-- Bytes planned on a device (log entry 48). -/
def SrvPlan.use (p : SrvPlan) (k n : Nat) : SrvPlan := { p with used := kset (fun _ => 0) p.used k (kget (fun _ => 0) p.used k + n) }

/-- A migration is planned, when its devices have room for it: of frame a with frame b, or into slot dst (R322, R327). -/
def SrvPlan.add (p : SrvPlan) (w : MigWhy) (a : Nat) (b : Option Nat) (dst : FrameLoc) : SrvPlan :=
  let ka := (p.c.place a).dk
  let n := if b.isSome then 131072 else 65536
  let n := if ka = dst.dk then 131072 else n
  if !(p.room w ka n && p.room w dst.dk n) then p
  else
    let sv := p.c.srv
    let m : Mig := { id := sv.nextMig, why := w, a := a, b := b, dst := dst, half := dst.region % 2 }
    let p := { p with c := { p.c with srv := { sv with migs := sv.migs ++ [m], nextMig := sv.nextMig + 1 } } }
    if ka = dst.dk then p.use ka n else (p.use ka n).use dst.dk n

/-- An exchange: its first frame is the one that leaves Outfield, or else the one of the lower number (R327). -/
def SrvPlan.exchange (p : SrvPlan) (w : MigWhy) (f g : Nat) : SrvPlan :=
  let o := fun x => decide ((p.c.place x).region ≥ 2)
  let first := if o f != o g then o f else decide (f < g)
  if first then p.add w f (some g) (p.c.place g) else p.add w g (some f) (p.c.place f)

/-- The next frame, from i on and round from lo, of which P holds. -/
def scanFrames (P : Nat → Bool) (lo hi : Nat) : Nat → Nat → Option Nat
  | 0, _ => none
  | n + 1, i => if P i then some i else scanFrames P lo hi n (if i + 1 ≥ hi then lo else i + 1)

/-- Frames of Infield, by number (R319). -/
def infFrames : Nat := 12582912

/-- Groups with heat, coldest first. -/
def coldGroups (c : Chip) : List Nat := ((c.srv.heat.map (fun e => e.1)).mergeSort (fun a b => c.heat a ≤ c.heat b))

/-- Groups with heat, hottest first. -/
def hotGroups (c : Chip) : List Nat := ((c.srv.heat.map (fun e => e.1)).mergeSort (fun a b => c.heat b ≤ c.heat a))

/-- The frames of a group. -/
def groupFrames (g : Nat) : List Nat := rangeFrom (32 * g) 32

/-- A frame of the coldest group that has one of which P holds; among groups without heat, the module's choice. `inf` is the tier it is
looked for in first (log entry 47). -/
def coldest (inf : Bool) (P : Nat → Bool) (c : Chip) : Option Nat × Chip :=
  let d := c.draw
  let Q := fun f => c.heat (f / 32) == 0 && P f
  let sc := fun (lo n : Nat) => scanFrames Q lo (lo + n) n (lo + d.1 % n)
  let i := fun (_ : Unit) => sc 0 infFrames
  let o := fun (_ : Unit) => sc infFrames (backedFrames - infFrames)
  let z := if inf then (i ()).orElse o else (o ()).orElse i
  (z.orElse (fun _ => (coldGroups c).findSome? (fun g => (groupFrames g).find? P)), d.2)

/-- A frame q may change places with frame f (log entry 47). -/
def partnerOk (c : Chip) (f q : Nat) : Bool := q != f && freeToMove c q && ilvOk c q (c.place f) && (c.place q).dk != (c.place f).dk

/-- Frame f is to change places with the coldest frame that lies where `at_` says and may take its place. -/
def SrvPlan.bring (p : SrvPlan) (w : MigWhy) (f : Nat) (inf : Bool) (at_ : FrameLoc → Bool) : SrvPlan :=
  let r := coldest inf (fun q => at_ (p.c.place q) && partnerOk p.c f q) p.c
  let p := { p with c := r.2 }
  match r.1 with
  | some q => p.exchange w f q
  | none => p

/-- A frame is in a migration, or away for a slice test. -/
def inMig (c : Chip) (f : Nat) : Bool := c.srv.migs.any (fun m => m.has f) || stAway c f

/-- The place a retired slot's frame goes to (R282, R283): a spare of the same device, of its region, or of another region. -/
def retireDst (f : Nat) (c : Chip) : Option FrameLoc × Chip :=
  let k := (c.place f).dk
  let rest := (regionDevs (dkRegion k)).filter (fun x => x != k) ++ (allDevs.filter (fun x => dkRegion x != dkRegion k))
  (k :: rest).foldl (fun (r : Option FrameLoc × Chip) x =>
    match r.1 with
    | some _ => r
    | none => pickSpare x r.2) (none, c)

/-- A frame's move away from its slot is planned. -/
def SrvPlan.retireOf (p : SrvPlan) (f : Nat) : SrvPlan :=
  if inMig p.c f then p
  else
    let r := retireDst f p.c
    let p := { p with c := r.2 }
    match r.1 with
    | some l => p.add .retire f none l
    | none => p

/-- Frames of a device out of service, in ascending order: at most n of them from frame i on. -/
def drainFrames (c : Chip) (k : Nat) : Nat → Nat → List Nat
  | 0, _ => []
  | n + 1, i =>
    match scanFrames (fun f => (c.place f).dk == k && !inMig c f) i backedFrames (backedFrames - i) i with
    | some f => f :: drainFrames c k n (f + 1)
    | none => []

/-- The moves of R282 and R283. -/
def planRetire (p : SrvPlan) : SrvPlan :=
  let p := p.c.retire.foldl (fun p f => p.retireOf f) p
  p.c.srv.devOut.foldl (fun p k =>
    let n := min (sumNat (allDevs.map (fun x => freeSpares p.c x))) (periodNs p.c * creditRate k / 65536)
    (drainFrames p.c k n 0).foldl (fun p f => p.retireOf f) p) p

/-- Step 1 (R322): pins. -/
def planPins (p : SrvPlan) : SrvPlan :=
  p.c.srv.flags.foldl (fun p e =>
    match e.2.pin with
    | some r =>
      if (p.c.place e.1).region == r || inMig p.c e.1 then p
      else p.bring .pin e.1 (r < 2) (fun l => l.region == r && (ilvOk p.c e.1 l || (match e.2.ilv with
        | some k => ilvDev (r < 2) k / 16 != r
        | none => false)))
    | none => p) p

/-- Where a frame's hints want it (R323): the regions that will do, and the device of its interleave index. -/
def hintWants (c : Chip) (f : Nat) (x : PFlags) (l : FrameLoc) : Bool :=
  let inf := match x.pin with
    | some r => decide (r < 2)
    | none => if x.cold || x.prefer == 2 then false else if x.prefer == 1 then true else decide ((c.place f).region < 2)
  let region := match x.pin with
    | some r => l.region == r
    | none => decide (l.region < 2) == inf && (x.prefer != 1 || x.ilv.isSome || l.region == drawHalf c (f / 32))
  let dev := match x.ilv with
    | some k => l.dk == ilvDev inf k || (match x.pin with
        | some r => ilvDev inf k / 16 != r
        | none => false)
    | none => true
  region && dev

/-- Step 2 (R322): hints. -/
def planHints (p : SrvPlan) : SrvPlan :=
  p.c.srv.flags.foldl (fun p e =>
    let at_ := hintWants p.c e.1 e.2
    if at_ (p.c.place e.1) || inMig p.c e.1 || (p.c.srv.gone.any (fun g => g.1 == e.1)) then p
    else p.bring .hint e.1 (!e.2.cold && e.2.prefer != 2) at_) p

/-- The exchange of one hot frame for promotion: no exchange once the group is not hotter than its first partner's by HYST. -/
def promoteFrame (g : Nat) (r : SrvPlan × Bool × Bool) (f : Nat) : SrvPlan × Bool × Bool :=
  let p := r.1
  if r.2.2 || inMig p.c f then r
  else
    let x := coldest true (fun q => (p.c.place q).region < 2 && partnerOk p.c f q && ilvOk p.c f (p.c.place q)) p.c
    let p := { p with c := x.2 }
    match x.1 with
    | none => (p, r.2)
    | some q =>
      if !r.2.1 && (p.c.heat g == 0 || p.c.heat g < hyst p.c * p.c.heat (q / 32)) then (p, true, true)
      else (p.exchange .promote f q, true, r.2.2)

/-- Step 3 (R322): promotion. -/
def planPromote (p : SrvPlan) : SrvPlan :=
  ((hotGroups p.c).foldl (fun (r : SrvPlan × Bool) g =>
    if r.2 then r
    else
      let fs := (groupFrames g).filter (fun f => (r.1.c.place f).region ≥ 2 && freeToMove r.1.c f)
      let x := fs.foldl (promoteFrame g) (r.1, false, false)
      (x.1, x.2.2)) (p, false)).1

/-- Step 4 (R322): half balance. -/
def planBalance (p : SrvPlan) : SrvPlan :=
  (hotGroups p.c).foldl (fun p g =>
    let h := drawHalf p.c g
    let n := if h = 0 then (p.c.counts g).1 else (p.c.counts g).2
    if n * 100 < cross p.c * p.c.heat g then p
    else
      ((groupFrames g).filter (fun f => (p.c.place f).region % 2 != h && freeToMove p.c f && (p.c.pflags f).ilv.isNone)).foldl (fun p f =>
        let r := (p.c.place f).region / 2 * 2 + h
        let x := coldest (r < 2) (fun q => (p.c.place q).region == r && partnerOk p.c f q && hyst p.c * p.c.heat (q / 32) ≤ p.c.heat g) p.c
        let p := { p with c := x.2 }
        match x.1 with
        | some q => p.exchange .balance f q
        | none => p) p) p

/-- SURVEY_PERIOD_END (R321, R322): the period's fills are counted, migrations that have not started are dropped and planned again, and
every count is halved (log entries 7, 47). -/
def surveyPeriodEndStep (fills : List Fill) (c : Chip) : Chip :=
  if !c.up then c
  else
    let c := fills.foldl (fun c f => addHeat f.group f.east f.west c) c
    let c : Chip := { c with srv := { c.srv with migs := c.srv.migs.filter (fun m => m.started || decide (m.why = .testOut) || decide (m.why = .testBack)) } }
    let p := planPins (planRetire ({ c := c } : SrvPlan))
    let p := if c.rget MOD MOD_SRV_POLICY_CUR_ENABLE = 1 then planBalance (planPromote (planHints p)) else p
    let sv := p.c.srv
    { p.c with srv := { sv with heat := (sv.heat.map (fun e => (e.1, (e.2.1 / 2, e.2.2 / 2)))).filter (fun e => e.2 != (0, 0)),
                                gone := (sv.gone.map (fun g => (g.1, g.2 - 1))).filter (fun g => g.2 != 0) } }

/-! ### Migrations -/

/-- Migrations of a half in progress (R327). -/
def activeMigs (c : Chip) (h : Nat) : Nat := (c.srv.migs.filter (fun m => m.started && m.half == h)).length

/-- A migration's devices: those its frames lie on and go to. -/
def migDevs (c : Chip) (m : Mig) : List Nat := let k := (c.place m.a).dk; if k = m.dst.dk then [k] else [k, m.dst.dk]

/-- A migration replaced. -/
def putMig (m : Mig) (c : Chip) : Chip := { c with srv := { c.srv with migs := c.srv.migs.map (fun x => if x.id = m.id then m else x) } }

/-- A planned migration may start (R327, R328, R331, R336, R521). -/
def mayStart (c : Chip) (m : Mig) : Bool :=
  let ks := migDevs c m
  !m.started && activeMigs c m.half < 8 && ks.all (fun k => creditFor c k m.why ≥ 393216 && devThrottle c k == 0 && c.srv.training != some k) &&
    !((decide (m.why = .hint) || decide (m.why = .promote) || decide (m.why = .balance)) && c.rget (SRV m.half) SRV_CTL_HOLD == 1)

/-- MIGRATION_START (R328, R331): a device in self-refresh is woken first. -/
def migrationStartStep (i : Nat) (c : Chip) : Chip :=
  match c.srv.migs.find? (fun m => m.id == i) with
  | none => c
  | some m =>
    if !c.up || !mayStart c m then c
    else
      let c := ((m.a :: (match m.b with
        | some b => [b]
        | none => [])).foldl (fun c f => c.touch (f * 65536)) c)
      let c : Chip := if c.srv.sr.contains m.dst.dk then { c with srv := { c.srv with sr := c.srv.sr.filter (fun k => k != m.dst.dk), waking := c.srv.waking ++ [m.dst.dk] } } else c
      let c := wakeMem c
      if (migDevs c m).any (fun k => c.srv.waking.contains k) then c
      else
        let d := c.draw
        putMig { m with started := true, mover := d.1 % 16 } d.2

/-- Units a migration has copied: counted by its half and its mover. -/
def migUnits (m : Mig) (n : Nat) (c : Chip) : Chip := (c.rcount (SRV m.half) SRV_UNITS n).rcount (DMA m.half m.mover) DMA_MIG_UNITS n

/-- MIGRATION_COPY_PASS (R328): a pass has ended with so many dirty units of each frame. -/
def migrationCopyPassStep (i dirtyA dirtyB : Nat) (c : Chip) : Chip :=
  match c.srv.migs.find? (fun m => m.id == i && m.started && !m.window) with
  | none => c
  | some m =>
    let dirtyB := if m.b.isSome then dirtyB else 0
    let na := if m.passes = 0 then 1024 else m.dirtyA
    let nb := if m.b.isNone then 0 else if m.passes = 0 then 1024 else m.dirtyB
    let c := takeCredit (c.place m.a).dk na (migUnits m (na + nb) c)
    let c := if m.b.isSome then takeCredit m.dst.dk nb c else c
    let m := { m with passes := m.passes + 1, dirtyA := dirtyA, dirtyB := dirtyB }
    if dirtyA ≤ 64 && dirtyB ≤ 64 then putMig { m with window := true } c
    else if m.passes ≥ 4 then endMig m true c
    else putMig m c

/-- Lines that host cores hold of a frame that changes half are recalled (R329). -/
def recallFrame (f : Nat) (c : Chip) : Chip := (c.host.dir.filter (fun d => d.sec / 1024 == f)).foldl (fun c d => c.recall d.sec) c

/-- A frame takes a new place. -/
def putFrame (f : Nat) (l : FrameLoc) (c : Chip) : Chip :=
  let c := if (c.place f).region % 2 != l.region % 2 then recallFrame f c else c
  { c with plot := kset plotDef c.plot f l }

/-- A slot is put fallow for good (R282, R287): the event, the error bits and the spares left. -/
def slotOut (old : FrameLoc) (c : Chip) : Chip :=
  let k := old.dk
  let c : Chip := { c with srv := { c.srv with fallow := c.srv.fallow ++ [old] } }
  let c := devPut k INF_ERR_SLOT_RETIRED OUT_ERR_SLOT_RETIRED 1 c
  let n := freeSpares c k
  let u := if dkInf k then (0x0A, dkDev k) else (0x0B, 4 * dkDev k)
  let c := c.logEvent 0x0012 2 u.1 (dkHalf k) u.2 old.slot n
  if n < 256 then devPut k INF_ERR_SPARE_LOW OUT_ERR_SPARE_LOW 1 c else c

/-- A slot whose frame has moved is retired for good (R282, R283): a pinned frame that has left its region loses its pin (R326) (log entry 49). -/
def slotRetired (f : Nat) (old : FrameLoc) (c : Chip) : Chip :=
  let k := old.dk
  let c : Chip := { c with retire := c.retire.filter (fun x => x != f) }
  let c := if c.srv.devOut.contains k then c else
    let c := slotOut old c
    let u := if dkInf k then (0x0A, dkDev k) else (0x0B, 4 * dkDev k)
    if (c.place f).dk = k then c else c.logEvent 0x0003 2 u.1 (dkHalf k) u.2 old.slot 0
  match (c.pflags f).pin with
  | some r =>
    if (c.place f).region = r then c
    else
      let c := c.setFlags f { c.pflags f with pin := none }
      let h := (c.place f).region % 2
      (c.rput (SRV h) SRV_ERR_PIN_BROKEN 1).logEvent 0x0018 2 0x06 h 0 f r
  | none => c

/-- Frames that lie in the block under test and are in no migration (R525). -/
def stFrames (c : Chip) : List (Nat × Nat) :=
  match testBlock c with
  | none => []
  | some (k, b) =>
    (rangeFrom (1024 * b) 1024).filterMap (fun i =>
      let l : FrameLoc := ⟨dkRegion k, dkDev k, i⟩
      if c.srv.fallow.contains l then none
      else match frameAt c l with
        | some f => if c.srv.migs.any (fun m => m.has f) then none else some (f, i)
        | none => none)

/-- A migration for a slice test: frame f goes to slot dst. -/
def stMig (w : MigWhy) (f : Nat) (dst : FrameLoc) (c : Chip) : Chip :=
  let sv := c.srv
  { c with srv := { sv with migs := sv.migs ++ [{ id := sv.nextMig, why := w, a := f, b := none, dst := dst, half := dst.region % 2 }], nextMig := sv.nextMig + 1 } }

/-- A free spare slot of a device, or else of another device of its region (R525). -/
def regionSpare (k : Nat) (c : Chip) : Option FrameLoc × Chip :=
  (k :: (regionDevs (dkRegion k)).filter (fun x => x != k)).foldl (fun (r : Option FrameLoc × Chip) x =>
    match r.1 with
    | some _ => r
    | none => pickSpare x r.2) (none, c)

/-- The frames of the block under test are to move to spare slots (R525). -/
def stPlan (s : SliceTest) (c : Chip) : Chip :=
  let k := ((testBlock c).getD (0, 0)).1
  let fs := stFrames c
  let c := fs.foldl (fun c f =>
    let r := regionSpare k c
    match r.1 with
    | some l => stMig .testOut f.1 l r.2
    | none => r.2) c
  { c with hedge := { c.hedge with slice := some { s with moved := s.moved ++ fs.filter (fun f => c.srv.migs.any (fun m => m.has f.1)) } } }

/-- A frame still lies in the block under test. -/
def stFull (c : Chip) : Bool :=
  match testBlock c with
  | none => false
  | some (k, b) => (rangeFrom (1024 * b) 1024).any (fun i => !c.srv.fallow.contains ⟨dkRegion k, dkDev k, i⟩ && (frameAt c ⟨dkRegion k, dkDev k, i⟩).isSome)

/-- The moves of a memory slice test go on (R525): the march starts once its slots are empty, and the test is over once its frames are
back. -/
def stMoves (c : Chip) : Chip :=
  match c.hedge.slice with
  | none => c
  | some s =>
    let left := fun (w : MigWhy) => c.srv.migs.any (fun m => decide (m.why = w))
    if s.kind < 9 || !s.aside then c
    else match s.back with
    | some rep => if left .testBack then c else stOver s rep c
    | none =>
      if s.begun || left .testOut then c
      else if stFull c then stPlan s c
      else { c with hedge := { c.hedge with slice := some { s with begun := true } } }

/-- The command of a slice test is aborted (R55, R524): the slice is returned, the frames of a memory slice by migrations (log entry 20). -/
def stAbort (m : Cmd) (c : Chip) : Chip :=
  match c.hedge.slice with
  | none => c
  | some s =>
    if s.car ≠ m.car || s.seq != m.seq || s.back.isSome then c
    else
      let rep := stReply s ⟨3, 0, 0, 0, 0, (c.time - s.at_) / 1000⟩ c
      match testBlock c with
      | none => stOver s rep (stUndo s c)
      | some (k, _) =>
        let at_ := fun (i : Nat) => (⟨dkRegion k, dkDev k, i⟩ : FrameLoc)
        let c : Chip := { c with srv := { c.srv with migs := c.srv.migs.filter (fun x => !decide (x.why = .testOut)) } }
        let c := s.moved.foldl (fun c x => if c.place x.1 = at_ x.2 then c else stMig .testBack x.1 (at_ x.2) c) c
        stMoves { c with hedge := { c.hedge with slice := some { s with back := some rep } } }

/-- MIGRATION_WINDOW (R329): the window closes after ns nanoseconds, in which it held accesses; the frames have moved. -/
def migrationWindowStep (i ns held : Nat) (c : Chip) : Chip :=
  match c.srv.migs.find? (fun m => m.id == i && m.window) with
  | none => c
  | some m =>
    let old := c.place m.a
    let n := 1024 + m.dirtyA + m.dirtyB + (if m.b.isSome then 1024 else 0)
    let c := migUnits m n c
    let c := if m.b.isSome then takeCredit m.dst.dk (m.dirtyB + 1024) (takeCredit old.dk (m.dirtyA + 1024) c)
      else takeCredit m.dst.dk 1024 (takeCredit old.dk m.dirtyA c)
    let c := putFrame m.a m.dst c
    let c := match m.b with
      | some b => putFrame b old c
      | none => c
    let lost := m.bad.filterMap (fun u => if u < 1024 then some (m.a * 1024 + u) else m.b.map (fun b => b * 1024 + (u - 1024)))
    let c : Chip := { c with poison := unionNat c.poison lost, srv := { c.srv with migs := c.srv.migs.filter (fun x => x.id != m.id) } }
    let b := SRV m.half
    let c := if m.b.isSome then c.rcount b SRV_EXCHANGES 1 else c.rcount b SRV_MOVES 1
    let c := ((c.rcount b SRV_WINDOW_NS ns).rcount b SRV_HELD held).rput b SRV_WINDOW_MAX_NS (max ns (c.rget b SRV_WINDOW_MAX_NS))
    let c := if m.why = .retire then slotRetired m.a old c else c
    stMoves (pinsEnd c)

/-! ### Seedbed bank groups -/

/-- A part enters the non-volatile record of fallow parts (R509). -/
def noteFallow (pt : Part) (c : Chip) : Chip :=
  if c.hedge.nvParts.contains pt then c else { c with hedge := { c.hedge with nvParts := c.hedge.nvParts ++ [pt] } }

/-- SEEDBED_GROUP_MOVE_END (R266): the spare serves the group, and the old group is fallow, or under test. -/
def seedbedGroupMoveEndStep (h : Nat) (c : Chip) : Chip :=
  match c.bank.moving.find? (fun e => e.1 == h) with
  | none => c
  | some (_, g, test) =>
    let c : Chip := { c with bank := { c.bank with moving := c.bank.moving.filter (fun e => e.1 != h) } }
    let c := (c.rput (SBD h) SBD_STATUS_MOVE_ACTIVE 0).rput (SBD h) SBD_MAP_SPARED_GROUP g
    let c := (c.rput (SBD h) SBD_MAP_SPARE_IN_USE 1).rput (SBD h) SBD_MAP_TEST (b2n test)
    let c : Chip := if test then { c with hedge := { c.hedge with slice := c.hedge.slice.map (fun s => if stOn [6] h s then { s with begun := true } else s) } }
      else noteFallow ⟨.bankGroup, h, g, g⟩ c
    c.logEvent 0x0016 2 0x08 h 0 g (b2n test)

end Sys2Proof.Machine
end

