-- ==== Sys2Proof/Machine/QControl.lean ====
section
/-! DEFINITION. Queue control (R27, R28, R32, R33, R54 to R57, R75, R345, R358, R359, R376, R549). -/

namespace Sys2Proof.Machine

open Sys2Proof

/-- The queue-control or management command a row names: in execution, of the given class and opcode, and not waiting (log entry 5). -/
def control (k : Carrier) (seq cls op : Nat) (c : Chip) : Option Cmd :=
  (c.findCmd k seq).filter (fun m => decide (m.phase = .executing) && m.cls == cls && m.op == op && decide (m.wait = .nothing))

/-- A row of queue control: f ends the command with an outcome, or leaves it waiting. -/
def qcRow (k : Carrier) (seq op : Nat) (f : Cmd → Chip → Chip) (c : Chip) : Chip :=
  match control k seq 0xE op c with
  | some m => settleWaits (f m c)
  | none => c

/-! ### Enable -/

/-- A queue's descriptor (R30), checked (R33): the queue as a fresh enable leaves it (R32), or nothing. -/
def parseQueue (q : Nat) (c : Chip) : Option Queue :=
  let a := c.rget MOD MOD_QUE_TABLE_BASE_BASE * 4096 + 64 * q
  let d := c.rdMem a 64
  let sq := leAt d 0 8
  let cq := leAt d 8 8
  let wl := leAt d 32 8
  let s := leAt d 16 1
  let k := leAt d 17 1
  let at_ := leAt d 20 1
  let seq := leAt d 24 4
  if backed a 64 && s ≥ 4 && s ≤ 20 && k ≥ 6 && k ≤ 20 && sq % 4096 == 0 && cq % 4096 == 0 && (leAt d 28 4 == 0 || wl % 16 == 0) && bits at_ 0 2 != 3 then
    some { sqBase := bits sq 0 57, cqBase := bits cq 0 57, sqLog2 := s, cqLog2 := k, ctx := leAt d 18 2, pinHalf := bits at_ 0 2,
           prioCap := bits at_ 2 2, waitLen := leAt d 28 4, waitBase := bits wl 0 57, lastDbSeq := seq, lastAccepted := seq,
           doneThrough := seq, curHalf := q % 2 }
  else none

/-- The pages of a queue's rings and wait list (R345): submission ring, completion ring, wait list. -/
def sqNeeds (x : Queue) (ps : List XPage) : List XPage := needRange x.sqBase (64 * 2 ^ x.sqLog2) 0xFF false ps
/-- Pages of the completion ring. -/
def cqNeeds (x : Queue) (ps : List XPage) : List XPage := needRange x.cqBase (32 * 2 ^ x.cqLog2) 0xFF true ps
/-- Pages of the wait list. -/
def wlNeeds (x : Queue) (ps : List XPage) : List XPage := if x.waitLen = 0 then ps else needRange x.waitBase (16 * x.waitLen) 0xFF false ps

/-- The translated pages that a list of needs names. -/
def pickPages (ns ps : List XPage) : List XPage := ps.filter (fun p => ns.any (fun n => n.vp == p.vp))

/-- Another queue of a context is enabled: it is not DISABLED (R25). -/
def ctxEnabled (q n : Nat) (c : Chip) : Bool := c.queues.any (fun e => e.1 != q && e.2.ctx == n && decide (e.2.st ≠ .disabled))

/-- The enable of a queue whose descriptors passed (R345): the pages of all its rings are checked together. -/
def enableRings (q : Nat) (x : Queue) (d : CtxDesc) (read : Bool) (c : Chip) : Res × Chip :=
  let ns := wlNeeds x (cqNeeds x (sqNeeds x (if read then eqNeeds d [] else [])))
  let r := xlatePages (q % 2) x.ctx d.ptRoot ns c
  let eqPs := pickPages (eqNeeds d []) r.1
  let old := r.2.ctx x.ctx
  let c := if read then r.2.setCtx x.ctx { old with held := if (ringFail eqPs).isSome then none else some { d with eqPages := eqPs } } else r.2
  match ringFail r.1 with
  | some e => (e, c)
  | none =>
    let pre := decide (old.st = .preempted)
    let x := { x with sqPages := pickPages (sqNeeds x []) r.1, cqPages := pickPages (cqNeeds x []) r.1, wlPages := pickPages (wlNeeds x []) r.1,
                      st := if pre then .preempted else .enabled }
    let y := c.ctx x.ctx
    (doneRes, (c.setQueue q x).setCtx x.ctx { y with st := if y.st = .free then .active else y.st })

/-- Q_ENABLE in mode FRESH (R32, R33, R75, R345). -/
def enableFresh (q : Nat) (c : Chip) : Res × Chip :=
  if (c.queue q).st ≠ .disabled then (malformedRes, c)
  else match parseQueue q c with
  | none => (malformedRes, c)
  | some x =>
    let held := if ctxEnabled q x.ctx c then (c.ctx x.ctx).held else none
    match held, parseCtx x.ctx c with
    | some d, _ => enableRings q x d false c
    | none, some d => enableRings q x d true c
    | none, none => (malformedRes, c.setCtx x.ctx { c.ctx x.ctx with held := none })

/-- Q_ENABLE in mode RESUME (R75). -/
def enableResume (q : Nat) (c : Chip) : Res × Chip :=
  let x := c.queue q
  if x.st = .error then
    (doneRes, c.setQueue q { x with st := if (c.ctx x.ctx).st = .preempted then .preempted else .enabled })
  else (malformedRes, c)

/-- Q_ENABLE (R75). -/
def qEnableStep (k : Carrier) (seq : Nat) (c : Chip) : Chip :=
  qcRow k seq 1 (fun m c =>
    let r := if m.par 26 1 = 0 then enableFresh m.qField c else enableResume m.qField c
    finish m r.1 r.2) c

/-! ### Disable -/

/-- A DISABLE takes effect (R57): the queue drains, and STOP ends every accepted command that has not issued. -/
def startDisable (q : Nat) (stop : Bool) (c : Chip) : Chip :=
  let c := c.setQueue q { c.queue q with st := .draining }
  if stop then
    ((c.cmdsOf (.queue q)).filter (fun m => decide (m.phase = .accepted))).foldl (fun c m => retireOne m (mkRes sQDisabled []) c) c
  else c

/-- Q_DISABLE (R57). -/
def qDisableStep (k : Carrier) (seq : Nat) (c : Chip) : Chip :=
  qcRow k seq 2 (fun m c =>
    let q := m.qField
    if (c.queue q).st = .disabled then finish m doneRes c
    else settleDrain q (startDisable q (m.par 26 1 == 0) (c.putCmd { m with wait := .disable q }))) c

/-! ### Abort -/

/-- The engine of a command in execution stops at a safe point (R55): the model leaves open how many more of its units it does (log entry 58). -/
def stopEngine (m : Cmd) (c : Chip) : Chip :=
  if m.phase ≠ .executing || m.stall.isSome || !clocked m c then c
  else
    let d := c.draw
    let c := d.2
    match m.cls with
    | 1 => if m.op = 3 then attnRun d.1 m c else furRun d.1 m c
    | 2 => chainRun d.1 m c
    | 4 => if m.op = 5 then atomRun d.1 m c else dmaRun d.1 m c
    | 5 => glnRun d.1 m c
    | 8 => pinAbort m c
    | 0xF => stAbort m c
    | _ => c

/-- The outcome of an aborted command (R55, R80, R81): a LAUNCH gives the cores it used. -/
def abortedRes (m : Cmd) (cause : Nat) (c : Chip) : Res :=
  let r := abortRes m cause
  match m.car, m.cls with
  | .queue q, 3 =>
    (match c.drill.launches.find? (fun l => l.q == q && l.seq == m.seq) with
     | some l => { r with detail := putLe r.detail 0 8 l.cores }
     | none => r)
  | _, _ => r

/-- A command that has not retired is aborted (R55): its engine stops, its transactions are given up and it retires. One that its
engine has finished has ended first; a context reset ends that one too (R28), but for a collective, which has committed (log entry 58). -/
def abortCmd (cause : Nat) (alone : Bool) (m : Cmd) (c : Chip) : Bool × Chip :=
  match decide (m.phase = .finished) && (cause != 3 || (m.cls == 7 && m.op ≤ 5)), m.res with
  | true, some r => (false, retire m r c)
  | _, _ =>
    let c := dropTxns m (stopEngine m c)
    let m := (c.findCmd m.car m.seq).getD m
    let r := abortedRes m cause c
    (true, if alone then retire m r c else retireOne m r c)

/-- The status recorded for a SEQ in a queue's window, once it has retired (R40, R56). -/
def seenStatus (q seq : Nat) (c : Chip) : Option Nat :=
  match (c.queue q).window.find? (fun s => s.seq == seq) with
  | some s => s.res.map (fun r => r.status)
  | none => none

/-- ABORT_SEQ (R55, R56) (log entry 58). -/
def abortSeqStep (k : Carrier) (seq : Nat) (c : Chip) : Chip :=
  qcRow k seq 3 (fun m c =>
    let q := m.qField
    let s := m.par 20 4
    match c.findCmd (.queue q) s with
    | some t =>
      let r := abortCmd 1 true t c
      finish m (mkRes sDone [(0, 1, b2n (!r.1)), (1, 1, (seenStatus q s r.2).getD sAborted)]) r.2
    | none =>
      match seenStatus q s c with
      | some st => finish m (mkRes sDone [(0, 1, 1), (1, 1, st)]) c
      | none => finish m (mkRes sDone [(0, 1, 2)]) c) c

/-- ABORT_QUEUE (R55, R56). -/
def abortQueueStep (k : Carrier) (seq : Nat) (c : Chip) : Chip :=
  qcRow k seq 4 (fun m c =>
    let q := m.qField
    let ts := (c.cmdsOf (.queue q)).filter (fun t => !cmdIs m.car m.seq t)
    let r := ts.foldl (fun (acc : Nat × Chip) t =>
      match acc.2.findCmd t.car t.seq with
      | some t =>
        let a := abortCmd 2 false t acc.2
        (acc.1 + b2n a.1, a.2)
      | none => acc) (0, c)
    match ts with
    | [] => finish m (mkRes sDone [(0, 1, 2)]) r.2
    | t :: _ => finish m (mkRes sDone [(0, 1, b2n (r.1 == 0)), (1, 1, (seenStatus q t.seq r.2).getD sAborted), (2, 4, r.1)]) r.2) c

/-! ### Contexts -/

/-- The state of every queue of a context changes. -/
def ctxQueues (n : Nat) (f : Queue → Queue) (c : Chip) : Chip :=
  c.queues.foldl (fun c e => if e.2.ctx = n && decide (e.2.st ≠ .disabled) then c.setQueue e.1 (f (c.queue e.1)) else c) c

/-- CTX_PREEMPT (R27, R75). -/
def ctxPreemptStep (k : Carrier) (seq : Nat) (c : Chip) : Chip :=
  qcRow k seq 5 (fun m c =>
    let n := m.par 24 2
    if (c.ctx n).st ≠ .active then finish m malformedRes c
    else
      let c := ctxQueues n (fun x => if x.st = .enabled then { x with st := .preempted } else x) c
      (c.setCtx n { c.ctx n with st := .preempted }).putCmd { m with wait := .preempt n }) c

/-- CTX_RESUME (R27, R33, R75). -/
def ctxResumeStep (k : Carrier) (seq : Nat) (c : Chip) : Chip :=
  qcRow k seq 6 (fun m c =>
    let n := m.par 24 2
    if (c.ctx n).st ≠ .preempted then finish m malformedRes c
    else
      let r := readCtx n c
      let c := r.2
      match r.1 with
      | .inl e => finish m e (c.setCtx n { c.ctx n with held := none })
      | .inr d =>
        let c := c.setCtx n { c.ctx n with st := .active, held := some d }
        finish m doneRes (ctxQueues n (fun x => if x.st = .preempted then { x with st := .enabled } else x) c)) c

/-- A watch that a command of this module registered. -/
def localWatch (w : Watch) : Bool :=
  match w.who with
  | .preWait _ _ => true
  | .wait _ _ => true
  | .watch _ _ _ _ _ => true
  | _ => false

/-- The semaphores a context owns, as (half, number). -/
def ownedSems (n : Nat) (c : Chip) : List (Nat × Nat) :=
  (c.yoke.sems.filter (fun e => e.2.owned && e.2.owner == n)).map (fun e => (e.1 / 131072, e.1 % 131072))

/-- A context is reset (R28, R29, R376, R381) (log entry 58). -/
def resetCtx (n : Nat) (c : Chip) : Chip :=
  let c := ctxQueues n (fun x => { x with st := .draining }) c
  let ms := c.cmds.filter (fun m => m.ctx == n)
  let c := ms.foldl (fun c m => match c.findCmd m.car m.seq with
    | some m => (abortCmd 3 false m c).2
    | none => c) c
  let c := (ownedSems n c).foldl (fun c s => releaseSem s.1 s.2 c) c
  let c := { c with yoke := { c.yoke with watches := c.yoke.watches.filter (fun w => !(w.ctx == n && localWatch w)) } }
  let c := dropBarriers n c
  let c := { c with fab := { c.fab with wins := c.fab.wins.filter (fun w => w.2.ctx != n) } }
  let c := (c.queues.filter (fun e => e.2.ctx == n && decide (e.2.st ≠ .disabled))).foldl (fun c e => disabled e.1 c) c
  c.setCtx n { c.ctx n with st := .free }

/-- CTX_RESET (R28, R75). -/
def ctxResetStep (k : Carrier) (seq : Nat) (c : Chip) : Chip :=
  qcRow k seq 7 (fun m c => finish m doneRes (resetCtx (m.par 24 2) c)) c

/-! ### XLT_INVALIDATE and NOP -/

/-- A range of device pages [lo, hi) meets a range [a, b). -/
def meets (lo hi a b : Nat) : Bool := a < hi && lo < b

/-- Cached translations and pointers of a context that map or point into a range of device pages are dropped (R359) (log entry 72). -/
def dropXlt (n lo hi : Nat) (c : Chip) : Chip :=
  let sh := fun (l : Nat) => (nth walkLevels l (16, 5, 0)).1 - 16
  { c with xlt := { c.xlt with
      tlb := c.xlt.tlb.filter (fun t => !(t.ctx == n && meets lo hi t.vp (t.vp + t.n))),
      ptrs := c.xlt.ptrs.filter (fun p => !(p.ctx == n && meets lo hi (p.top * 2 ^ sh p.level) ((p.top + 1) * 2 ^ sh p.level))) } }

/-- XLT_INVALIDATE (R358, R359). -/
def xltInvalidateStep (k : Carrier) (seq : Nat) (c : Chip) : Chip :=
  qcRow k seq 8 (fun m c =>
    let n := m.par 24 2
    let all := m.par 40 8 == 0
    let lo := if all then 0 else m.par 32 8 / 65536
    let hi := if all then 2 ^ 41 else (m.par 32 8 + m.par 40 8) / 65536
    let ms := c.cmds.filter (fun x => x.ctx == n && !cmdIs m.car m.seq x && x.pages.any (fun p => lo ≤ p.vp && p.vp < hi))
    (dropXlt n lo hi c).putCmd { m with wait := .invalidate n lo hi (ms.map (fun x => x.gord)) }) c

/-- NOP (R73). -/
def nopStep (k : Carrier) (seq : Nat) (c : Chip) : Chip := qcRow k seq 0 (fun m c => finish m doneRes c) c

/-! ### MOD_QCTL_CMD -/

/-- The outcome of an operation of MOD_QCTL_CMD (R549). -/
def qctlEnd (st : Nat) (c : Chip) : Chip := (c.rput MOD MOD_QCTL_RESULT_STATE 2).rput MOD MOD_QCTL_RESULT_STATUS st

/-- A write of MOD_QCTL_CMD (R519, R549): ignored and logged before READY and while an operation runs. -/
def qctlWrite (p : Path) (q op : Nat) (f : Chip → Chip) (c : Chip) : Chip :=
  if !c.up || c.rget MOD MOD_QCTL_RESULT_STATE == 1 then accLog 0 0x1018 .other p c
  else f (((c.rput MOD MOD_QCTL_CMD_QUEUE q).rput MOD MOD_QCTL_CMD_OP op).rput MOD MOD_QCTL_RESULT_STATE 1)

/-- QCTL_ENABLE (R549). -/
def qctlEnableStep (p : Path) (q : Nat) (c : Chip) : Chip :=
  qctlWrite p q 1 (fun c =>
    if c.rget MOD MOD_CTX_TABLE_BASE_BASE = 0 ∨ c.rget MOD MOD_QUE_TABLE_BASE_BASE = 0 then qctlEnd sMalformed c
    else let r := enableFresh q c; qctlEnd r.1.status r.2) c

/-- A disable through MOD_QCTL_CMD (R57, R549): over at once when the queue is DISABLED, or when it has drained. -/
def qctlDisable (stop : Bool) (q : Nat) (c : Chip) : Chip :=
  if (c.queue q).st = .disabled then qctlEnd sDone c else settleWaits (settleDrain q (startDisable q stop c))

/-- QCTL_DISABLE_STOP (R549). -/
def qctlDisableStopStep (p : Path) (q : Nat) (c : Chip) : Chip := qctlWrite p q 2 (qctlDisable true q) c
/-- QCTL_DISABLE_DRAIN (R549). -/
def qctlDisableDrainStep (p : Path) (q : Nat) (c : Chip) : Chip := qctlWrite p q 3 (qctlDisable false q) c

end Sys2Proof.Machine
end

