-- ==== Sys2Proof/Machine/YokeRows.lean ====
section
/-! DEFINITION. The Yoke commands (R364 to R372, R375, R378 to R384). -/

namespace Sys2Proof.Machine

open Sys2Proof

/-- The half and number of a command's semaphore (R74). -/
def Cmd.semH (m : Cmd) : Nat := bits (m.par 16 4) 17 1
/-- The number. -/
def Cmd.semNo (m : Cmd) : Nat := bits (m.par 16 4) 0 17
/-- VALUE. -/
def Cmd.semValue (m : Cmd) : Nat := m.par 24 6
/-- COMPARE. -/
def Cmd.semCompare (m : Cmd) : Nat := m.par 32 6
/-- The key of a command's barrier object. -/
def Cmd.barK (m : Cmd) : Nat := barKey (bits (m.par 48 4) 12 1) (bits (m.par 48 4) 0 12)
/-- SLOT. -/
def Cmd.barSlot (m : Cmd) : Nat := bits (m.par 48 4) 13 6

/-- The frame of a remote operation (R382). -/
def yokeFrame (m : Cmd) : YokeFrame :=
  { rank := 0, node := 0, job := 0, txn := 0, op := m.op, sem := m.par 16 4 % 2 ^ 18, value := m.semValue, compare := m.semCompare,
    tkind := m.par 40 1, target := m.par 44 4, bar := m.par 48 4 % 2 ^ 19, ctx := m.ctx, q := (m.queue?).getD 0, seq := m.seq }

/-- A remote operation leaves for its target (R382, R452); with no room among the transactions it is tried again. -/
def sendYoke (m : Cmd) (c : Chip) : Chip :=
  if !m.txns.isEmpty then c
  else
    let rank := bits (m.par 20 4) 0 20
    match startTxn (.cmd m.car m.seq 0) rank (.yoke (yokeFrame m)) c with
    | (.sent id, c) => (c.rcount (YOK m.half) YOK_REMOTE_OUT 1).putCmd { m with txns := [id] }
    | (.full, c) => c
    | (_, c) => finish m (peerLostRes rank 0) c

/-- A Yoke row: a remote command is sent, a local one acts. -/
def yokeRow (op q seq : Nat) (f : Cmd → Chip → Chip) (c : Chip) : Chip :=
  match running q seq 6 op c with
  | some m => if m.remote then sendYoke m c else f m c
  | none => c

/-- A semaphore operation that completes at its effect (R367). -/
def semRow (op q seq : Nat) (c : Chip) : Chip :=
  yokeRow op q seq (fun m c =>
    let c := checkSem m.semH m.semNo c
    if semPermit (semKind op) (c.sem m.semH m.semNo) m.ctx m.priv then
      let r := semOp op m.semH m.semNo m.semValue m.semCompare m.ctx c
      finish m (mkRes sDone r.1) r.2
    else finish m refused6 c) c

/-- ADD (R365). -/
def addStep (q seq : Nat) (c : Chip) : Chip := semRow 1 q seq c
/-- SUB (R365). -/
def subStep (q seq : Nat) (c : Chip) : Chip := semRow 2 q seq c
/-- SET (R367). -/
def setSemStep (q seq : Nat) (c : Chip) : Chip := semRow 3 q seq c
/-- CSET (R367). -/
def csetStep (q seq : Nat) (c : Chip) : Chip := semRow 4 q seq c
/-- CLAIM (R367). -/
def claimStep (q seq : Nat) (c : Chip) : Chip := semRow 7 q seq c
/-- RELEASE (R375). -/
def releaseStep (q seq : Nat) (c : Chip) : Chip := semRow 8 q seq c

/-- A command that finds no watch place is held, accepted (R368). -/
def holdForPlace (m : Cmd) (c : Chip) : Chip :=
  (watchFull m.semH c).putCmd { m with phase := .accepted, issued := false, needPlace := true, claims := [] }

/-- A local WAIT or WATCH takes its place (R368): f registers it. -/
def takePlace (m : Cmd) (f : Chip → Chip) (c : Chip) : Chip :=
  if c.watchFree m.semH = 0 then holdForPlace m c
  else
    let c := checkSem m.semH m.semNo c
    if semPermit .watch (c.sem m.semH m.semNo) m.ctx m.priv then f (c.rcount (YOK m.semH) YOK_OPS 1) else finish m refused6 c

/-- WAIT (R368, R369). -/
def waitStep (q seq : Nat) (c : Chip) : Chip :=
  yokeRow 5 q seq (fun m c =>
    takePlace m (fun c => registerWatch ⟨m.semH, m.semNo, m.semValue, m.ctx, .wait m.car m.seq⟩ (c.putCmd { m with phase := .registered })) c) c

/-- The target of a WATCH obeys the rules of R370. -/
def targetOk (m : Cmd) (c : Chip) : Bool :=
  let t := m.par 44 4
  match m.par 40 1 with
  | 1 => m.priv || queueCtx c (t % 2 ^ 20) == some m.ctx
  | 3 => m.priv || t % 32768 ≥ c.rget (YOK m.half) YOK_CTL_VEC_OPEN_BASE
  | _ => true

/-- WATCH (R369, R370). -/
def watchStep (q seq : Nat) (c : Chip) : Chip :=
  match running q seq 6 6 c with
  | none => c
  | some m =>
    if !targetOk m c then finish m refused6 c
    else if m.remote then sendYoke m c
    else takePlace m (fun c =>
      finish m doneRes (registerWatch ⟨m.semH, m.semNo, m.semValue, m.ctx, .watch q m.seq (m.par 40 1) (m.par 44 4) m.semCompare⟩ c)) c

/-- YOKE_MESSAGE_DELIVER (R369 to R372): the i-th message on its way arrives. -/
def yokeMessageDeliverStep (i : Nat) (c : Chip) : Chip :=
  match c.yoke.msgs[i]? with
  | none => c
  | some m => deliverMsg m { c with yoke := { c.yoke with msgs := c.yoke.msgs.take i ++ c.yoke.msgs.drop (i + 1) } }

/-! ### Barriers -/

/-- BAR_DEFINE (R378). -/
def barDefineStep (q seq : Nat) (c : Chip) : Chip :=
  yokeRow 9 q seq (fun m c =>
    let v := m.semValue
    let parent := if m.par 40 1 = 4 then some (m.par 44 4, m.semCompare % 2 ^ 19) else none
    let new : Barrier := { owner := m.ctx, mask := m.par 52 8, hold := bitAt v 0, fabric := bitAt v 1, parent := parent, gen := 1, entries := [], waiting := [] }
    let h := m.barK / 4096
    match c.bar m.barK with
    | none => finish m doneRes ((c.setBar m.barK (some new)).rcount (YOK h) YOK_OPS 1)
    | some b =>
      if !b.entries.isEmpty then finish m malformedRes c
      else if b.owner ≠ m.ctx then finish m refused6 c
      else finish m doneRes ((c.setBar m.barK (some { new with gen := b.gen })).rcount (YOK h) YOK_OPS 1)) c

/-- BAR_ENTER (R378, R379). -/
def barEnterStep (q seq : Nat) (c : Chip) : Chip :=
  yokeRow 0xA q seq (fun m c =>
    match c.bar m.barK with
    | none => finish m malformedRes c
    | some b =>
      if !bitAt b.mask m.barSlot then finish m malformedRes c
      else if b.owner ≠ m.ctx then finish m refused6 c
      else barEnterAt m.barK m.barSlot (.cmd m.car m.seq) (c.putCmd { m with phase := .registered })) c

/-- BAR_RETIRE (R378). -/
def barRetireStep (q seq : Nat) (c : Chip) : Chip :=
  yokeRow 0xB q seq (fun m c =>
    match c.bar m.barK with
    | none => finish m doneRes c
    | some b =>
      if !b.entries.isEmpty then finish m malformedRes c
      else if b.owner ≠ m.ctx && !m.priv then finish m refused6 c
      else finish m doneRes ((c.setBar m.barK none).rcount (YOK (m.barK / 4096)) YOK_OPS 1)) c

/-! ### Operations of other modules -/

/-- A remote BAR_ENTER (R378, R383): its answer, or none while it is pending. -/
def remoteEnter (o : YokeFrame) (c : Chip) : Option Res × Chip :=
  let k := barKey (bits o.bar 12 1) (bits o.bar 0 12)
  let slot := bits o.bar 13 6
  match c.bar k with
  | none => (some (accessRes 0 6 0xFF), c)
  | some b =>
    if !b.fabric then (some (accessRes 0 5 0xFF), c)
    else if !bitAt b.mask slot then (some malformedRes, c)
    else (none, barEnterAt k slot (.remote o.rank o.txn) (c.rcount (YOK (k / 4096)) YOK_REMOTE_IN 1))

/-- Why any other operation on a barrier is refused (R383). -/
def remoteBar (o : YokeFrame) (c : Chip) : Res :=
  match c.bar (barKey (bits o.bar 12 1) (bits o.bar 0 12)) with
  | some b => accessRes 0 (if b.fabric then 6 else 5) 0xFF
  | none => accessRes 0 6 0xFF

/-- A remote operation at its target (R383): its answer, or none while it is pending. -/
def remoteYoke (o : YokeFrame) (c : Chip) : Option Res × Chip :=
  let h := bits o.sem 17 1
  let n := bits o.sem 0 17
  if o.job ≠ c.rget AIH AIH_JOB_CUR_JOB then (some (accessRes 0 5 0xFF), c.rcount AIH AIH_REFUSED 1)
  else if o.op = 0xA then remoteEnter o c
  else if o.op = 9 || o.op == 0xB then (some (remoteBar o c), c)
  else if o.op = 5 || o.op == 6 then
    if c.watchFree h = 0 then (none, watchFull h { c with yoke := { c.yoke with held := c.yoke.held ++ [o] } })
    else (none, remotePlace o c)
  else
    let c := checkSem h n c
    match remoteRefused o.op (c.sem h n) with
    | some r => (some (accessRes 0 r 0xFF), c)
    | none =>
      let r := semOp o.op h n o.value o.compare 0 (c.rcount (YOK h) YOK_REMOTE_IN 1)
      (some (mkRes sDone r.1), r.2)

/-- REMOTE_YOKE_OPERATION (R383, R384, R453, R457). -/
def remoteYokeOperationStep (o : YokeFrame) (c : Chip) : Chip :=
  receiveTxn o.rank o.node o.txn (fun c =>
    let r := remoteYoke o c
    (r.1.map (fun x => mkReply r.2 o.txn x [] false), r.2)) c

end Sys2Proof.Machine
end

