-- ==== Sys2Proof/Machine/Aihal.lean ====
section
/-! DEFINITION. Windows and what crosses the fabric at this module as a target or an origin (R269, R453 to R459, R500). -/

namespace Sys2Proof.Machine

open Sys2Proof

/-! ### Windows -/

/-- An open window (R454). -/
def Chip.window (c : Chip) (n : Nat) : Option Win := (c.fab.wins.find? (fun e => e.1 == n)).map (fun e => e.2)

/-- The class 7 command that a row names, in execution (log entry 5). -/
def winCmd (q seq op : Nat) (c : Chip) : Option Cmd :=
  (c.findCmd (.queue q) seq).filter (fun m => decide (m.phase = .executing) && m.cls == 7 && m.op == op)

/-- The length of a window's REGION in bytes (R454). -/
def regionLen (d : Desc) : Nat := ceilDiv (d.d0 * d.w) 8

/-- WIN_OPEN (R269, R454) (log entry 55). -/
def winOpenStep (q seq : Nat) (c : Chip) : Chip :=
  match winCmd q seq 0x10 c with
  | none => c
  | some m =>
    let n := m.par 48 2
    let d := parseDesc m.bytes 16 0
    let len := regionLen d
    let open_ := fun (w : Win) =>
      finish m doneRes { c with fab := { c.fab with wins := c.fab.wins ++ [(n, w)] } }
    if (c.window n).isSome then finish m (accessRes d.addr 5 0) c
    else if d.space = 1 then
      let h := d.sbdHalf m.half
      let g := (c.ctxDesc m.ctx).seg h
      if bits d.addr 0 28 + len > g.2 then finish m (accessRes d.addr 3 0) c
      else open_ ⟨m.ctx, true, h, g.1 + bits d.addr 0 28, [], len, m.par 50 1, bits (m.par 52 4) 0 20, bits (m.par 56 4) 0 20⟩
    else open_ ⟨m.ctx, false, 0, bits d.addr 0 57, m.pages, len, m.par 50 1, bits (m.par 52 4) 0 20, bits (m.par 56 4) 0 20⟩

/-- WIN_CLOSE (R454): by the owner or a PRIV context; a window that is not open has no owner. Accesses accepted have been applied (log entry 55). -/
def winCloseStep (q seq : Nat) (c : Chip) : Chip :=
  match winCmd q seq 0x11 c with
  | none => c
  | some m =>
    let n := m.par 48 2
    if m.priv || (c.window n).any (fun w => w.ctx == m.ctx) then
      finish m doneRes { c with fab := { c.fab with wins := c.fab.wins.filter (fun e => e.1 != n) } }
    else finish m (accessRes 0 6 0xFF) c

/-- The place of a byte of a window. -/
def winLoc (w : Win) (off : Nat) : Loc :=
  if w.sbd then .sbd w.half (w.base + off)
  else match pageAddr w.pages (w.base + off) with
    | some a => .frame a
    | none => .none

/-- The places of the units that bytes [off, off + n) of a window touch, as the offset of the first byte touched, how many, and whether
the unit is covered whole; windows start on a unit (R70). -/
def winUnits (off n : Nat) : List (Nat × Nat × Bool) :=
  if n = 0 then [] else
  (rangeFrom (off / 64) ((off + n - 1) / 64 - off / 64 + 1)).map (fun u =>
    let lo := max off (u * 64)
    let hi := min (off + n) (u * 64 + 64)
    (lo, hi - lo, hi - lo == 64))

/-- A unit at a place that cannot be read clean: the status it gives and its SOURCE; an uncorrectable one is poisoned (R279). -/
def locBad (l : Loc) (n : Nat) (c : Chip) : Option (Nat × Nat) × Chip :=
  match l with
  | .frame a =>
    if c.memBad.contains (a / 64) then (some (sUncorr, c.srcOf a), memUncorr a c)
    else if c.poisoned a then (some (sPoisoned, c.srcOf a), c) else (none, c)
  | .sbd h o =>
    if (c.firstBadWord h o n).isSome then
      let w := (c.firstBadWord h o n).getD o
      (some (sUncorr, 3), parityPoison h w (parityRegs h w c))
    else if c.sbdPoison.contains (sbdKey h o / 64) then (some (sPoisoned, 3), c) else (none, c)
  | .none => (none, c)

/-- A unit of a window that cannot be read clean. -/
def unitBad (w : Win) (off n : Nat) (c : Chip) : Option (Nat × Nat) × Chip := locBad (winLoc w off) n c

/-- Bytes stored in one unit of a place: a unit stored whole is clean; a part stored into a bad unit leaves it poisoned (R500). -/
def locStore (l : Loc) (bs : List Byte) (poison whole : Bool) (c : Chip) : Chip :=
  match l with
  | .frame a =>
    let c := if c.memBad.contains (a / 64) then (if whole then { c with memBad := c.memBad.filter (fun x => x != a / 64) } else memUncorr a c) else c
    let c := c.wrMem a bs
    if poison then c.poisonRange a 1 else if whole then c.unpoisonRange a 64 else c
  | .sbd h o =>
    let c := c.wrSbd h o bs
    let u := sbdKey h o / 64
    if poison then { c with sbdPoison := insertNat u c.sbdPoison }
    else if whole then { c with sbdPoison := c.sbdPoison.filter (fun x => x != u) } else c
  | .none => c

/-- Bytes stored in one unit of a window. -/
def unitStore (w : Win) (off : Nat) (bs : List Byte) (poison whole : Bool) (c : Chip) : Chip := locStore (winLoc w off) bs poison whole c

/-! ### An access as it arrives -/

/-- The right an access needs (R455): bit 0 write, bit 1 read, bit 2 atomic. -/
def accessRight (kind : Nat) : Nat := if kind = 0 then 0 else if kind = 1 then 1 else 2

/-- The checks of R455 in order: the window when all hold. -/
def accessOk (a : RemoteAccess) (c : Chip) : Option Win :=
  if a.job ≠ c.rget AIH AIH_JOB_CUR_JOB then none
  else match c.window a.win with
  | none => none
  | some w =>
    if w.lo ≤ a.rank && a.rank ≤ w.hi && bitAt w.rights (accessRight a.kind) && a.ranges.all (fun r => r.1 + r.2 ≤ w.len) then some w else none

/-- The bytes of a write, in the order of its ranges; the last byte keeps the bits the origin does not write. -/
def accessWrite (w : Win) (a : RemoteAccess) (c : Chip) : Chip :=
  let last := sumNat (a.ranges.map (fun r => r.2)) - 1
  (a.ranges.foldl (fun (r : Nat × Chip) g =>
    let c := (winUnits g.1 g.2).foldl (fun c u =>
      let bs := (List.range u.2.1).map (fun i =>
        let p := r.1 + (u.1 + i - g.1)
        let b := nth a.data p 0
        if p = last && a.lastBits != 0 && a.lastBits != 8 then
          BitVec.ofNat 8 (b.toNat % 2 ^ a.lastBits + (c.locByte (winLoc w (u.1 + i))).toNat / 2 ^ a.lastBits * 2 ^ a.lastBits) else b)
      unitStore w u.1 bs a.poison u.2.2 c) r.2
    (r.1 + g.2, c)) (0, c)).2

/-- The reply to an access that passed its checks (R455, R500). -/
def accessDo (w : Win) (a : RemoteAccess) (c : Chip) : Reply × Chip :=
  match a.kind with
  | 0 => let c := accessWrite w a c; (mkReply c a.seq doneRes [] false, c)
  | 1 =>
    let r := (a.ranges.flatMap (fun g => winUnits g.1 g.2)).foldl (fun (r : Option (Nat × Nat) × Chip) u =>
      let x := unitBad w u.1 u.2.1 r.2
      (match r.1 with
        | some y => some y
        | none => x.1, x.2)) (none, c)
    let c := r.2
    let data := a.ranges.flatMap (fun g => (List.range g.2).map (fun i => c.locByte (winLoc w (g.1 + i))))
    (match r.1 with
      | some (st, src) => mkReply c a.seq (mkRes st [(8, 1, src)]) data true
      | none => mkReply c a.seq doneRes data false, c)
  | _ =>
    match winLoc w (a.ranges.headD (0, 0)).1 with
    | .frame ad =>
      let f := fmtOf a.fmt
      let wd := fmtBits f
      if a.poison then (mkReply c a.seq doneRes (leBytes (wd / 8) (c.rdLe ad (wd / 8))) false, c.poisonRange ad (wd / 8))
      else
        let x := atomAt ad a.aop f wd a.operand a.compare c
        (match x.2.2.2 with
          | some st => mkReply x.1 a.seq (mkRes st [(8, 1, c.srcOf ad)]) [] true
          | none => mkReply x.1 a.seq doneRes (leBytes (wd / 8) x.2.1) false, x.1)
    | _ => (mkReply c a.seq (accessRes 0 5 0xFF) [] false, c)

/-- An access from another module (R453, R455, R457). -/
def accessArrive (a : RemoteAccess) (c : Chip) : Chip :=
  receiveTxn a.rank a.node a.seq (fun c =>
    match accessOk a c with
    | none => (some (mkReply c a.seq (accessRes 0 5 0xFF) [] false), c.rcount AIH AIH_REFUSED 1)
    | some w => let r := accessDo w a c; (some r.1, r.2)) c

/-- REMOTE_ACCESS_ARRIVAL (R455, R457). -/
def remoteAccessArrivalStep (a : RemoteAccess) (c : Chip) : Chip := if c.up then accessArrive a c else c

/-- TRANSACTION_REPLY (R457). -/
def transactionReplyStep (t : Reply) (c : Chip) : Chip := if c.up then takeReply t c else c

/-- UNREACHABLE_REPLY (R448, R459). -/
def unreachableReplyStep (txn : Nat) (c : Chip) : Chip := if c.up then unreachTxn txn c else c

/-- E2E_TIMEOUT (R459). -/
def e2eTimeoutStep (txn : Nat) (c : Chip) : Chip := if c.up then timeoutTxn txn c else c

end Sys2Proof.Machine
end

