-- ==== Sys2Proof/Machine/Links.lean ====
section
/-! DEFINITION. The Aihal links (R434 to R445, R448, R451), the Stile (R436 to R438), optics (R495, R496) and fabric time (R466 to
R468). -/

namespace Sys2Proof.Machine

open Sys2Proof

/-! ### Firmware of the ports -/

/-- A byte of a firmware slot before anything is written into it (log entry 4). -/
def fwDef (k : Nat) : Byte := BitVec.ofNat 8 (Config.fuse (0x10000000 + k))

/-- A byte of a firmware slot (R531). Slots are unit × 2 + image, 2^24 bytes each (log entry 4). -/
def fwByte (c : Chip) (slot i : Nat) : Byte := kget fwDef c.hedge.fw (slot * 2 ^ 24 + i)

/-- The n-byte little-endian number at offset o of an image. -/
def fwLe (c : Chip) (slot o n : Nat) : Nat := leNat ((List.range n).map (fun i => fwByte c slot (o + i)))

/-- FW_EPOCH of the image that the ports run (R440, R531). -/
def fwEpoch (c : Chip) : Nat := fwLe c (4 + c.rget MGT MGT_FW_AIH_RUN) 16 4

/-! ### The state of a port -/

/-- STATE of a port (R439). -/
def portState (c : Chip) (p : Nat) : Nat := c.rget (AIHP p) AIH_PORT_STATUS_STATE

/-- The direction a port has in the topology in force (R435). -/
def portDir (c : Chip) (p : Nat) : Bool := p < 6 && (topoDims (c.rget AIH AIH_TOPO_CUR_KIND)).contains (p / 2)

/-- The use that a port's control register asks for: off when the port does not allow it (R435). -/
def askedUse (c : Chip) (p : Nat) : Nat :=
  let u := c.rget (AIHP p) AIH_PORT_CTL_USE
  if p < 2 && u ≥ 2 then 0 else if u = 1 && !portDir c p then 0 else u

/-- A port's optical engine is powered. -/
def opticsOn (c : Chip) (p : Nat) : Bool := bitAt (c.rget PWR PWR_OPTICS_STATUS_POWERED) p

/-- A port may train: enabled, in use, its optics on (R439). -/
def portReady (c : Chip) (p : Nat) : Bool := c.up && c.rget (AIHP p) AIH_PORT_CTL_ENABLE == 1 && askedUse c p != 0 && opticsOn c p

/-- A port takes a state: time in QUARANTINE is counted as it ends, and a link that leaves UP takes its peer from collectives (R465, R471). -/
def setPort (p s : Nat) (c : Chip) : Chip :=
  let b := AIHP p
  let old := portState c p
  let c := if old = 3 && s != 3 then c.rcount b AIH_PORT_QUAR_MS ((c.time - (c.aport p).quarSince) / 1000000) else c
  let c := if s = 3 && old != 3 then c.setAport p { c.aport p with quarSince := c.time } else c
  let c := (c.rput b AIH_PORT_STATUS_STATE s).rput b AIH_PORT_STATUS_FEC_LOCK (b2n (2 ≤ s && s ≤ 4))
  if old = 4 && s != 4 then nodeLost (c.rget b AIH_PORT_PEER_NODE) c else c

/-- A port goes OFF (R439). -/
def portOff (p : Nat) (c : Chip) : Chip := setPort p 0 c

/-- A port starts training: the use asked for comes into force (R439, R471). -/
def portTrain (p : Nat) (c : Chip) : Chip := setPort p 1 (c.rput (AIHP p) AIH_PORT_STATUS_USE (askedUse c p))

/-- A port trains when it may, and is OFF otherwise. -/
def portTry (p : Nat) (c : Chip) : Chip := if portReady c p then portTrain p c else portOff p c

/-- A link event (R441, R445, R495): port and STATE. -/
def linkEvent (p : Nat) (c : Chip) : Chip := c.logEvent 0x0030 2 0x0F (p % 2) p p (portState c p)

/-- The frames of a port are dropped, and its sequence numbers start again (R445, R506). -/
def dropFrames (p : Nat) (c : Chip) : Chip := c.setAport p { c.aport p with txSeq := 0, rxSeq := 0, replay := [], queue := [], sinceAck := 0, replays := 0 }

/-- Frames that wait behind a full replay buffer leave as places free (R443). -/
def pumpPort : Nat → Nat → Chip → Chip
  | 0, _, c => c
  | n + 1, p, c =>
    let a := c.aport p
    match a.queue with
    | [] => c
    | f :: fs =>
      if a.replay.length < 4096 && portState c p == 4 then
        let f := { f with seq := a.txSeq }
        pumpPort n p ((c.setAport p { a with txSeq := (a.txSeq + 1) % 65536, replay := a.replay ++ [f], queue := fs }).emit (.frame p f))
      else c

/-- Frames of the replay buffer sent again (R443). -/
def replayPort (p : Nat) (c : Chip) : Chip :=
  let a := c.aport p
  (a.replay.foldl (fun c f => c.emit (.frame p f)) c).rcount (AIHP p) AIH_PORT_REPLAYS a.replay.length

/-- A link comes UP: frames still unacknowledged are sent again, then those that waited (R444); a reset of the port ends (R506) (log entry 52). -/
def portUpNow (p : Nat) (c : Chip) : Chip :=
  let c := setPort p 4 c
  let c := replayPort p (c.setAport p { c.aport p with replays := 0 })
  endWaits (.aihalPort p) (pumpPort (c.aport p).queue.length p c)

/-- LINK_SIGNAL_DETECT (R439): light arrives at a port. -/
def linkSignalDetectStep (p : Nat) (c : Chip) : Chip :=
  let c := c.rput (AIHP p) AIH_PORT_STATUS_LOS 0
  if portState c p = 0 && portReady c p then portTrain p c else c

/-- LINK_LOSS_OF_SIGNAL (R439): light or FEC lock is lost. -/
def linkLossOfSignalStep (p : Nat) (c : Chip) : Chip :=
  let c := c.rput (AIHP p) AIH_PORT_STATUS_LOS 1
  if 2 ≤ portState c p && portState c p ≤ 4 then setPort p 1 c else c

/-- LINK_FEC_LOCK (R439): a direct or up-link port exchanges concord records; an encapsulated one has no Aihal peer, and is UP (log entry 52). -/
def linkFecLockStep (p : Nat) (c : Chip) : Chip :=
  if portState c p ≠ 1 || !portReady c p then c
  else
    let c := c.rput (AIHP p) AIH_PORT_STATUS_LOS 0
    if c.rget (AIHP p) AIH_PORT_STATUS_USE = 3 then portUpNow p c else setPort p 2 c

/-- AIH_PORT_RETRAIN (R471): a write of RETRAIN, which also leaves FAILED. -/
def portRetrain (p : Nat) (c : Chip) : Chip :=
  let c := if portState c p = 5 then dropFrames p c else c
  (portTry p c).rcount (AIHP p) AIH_PORT_RETRAINS 1

/-- LINK_RETRAIN (R444): after 16 consecutive replays with no frame acknowledged. -/
def linkRetrainStep (p : Nat) (c : Chip) : Chip :=
  if portState c p = 4 && (c.aport p).replays ≥ 16 then
    let c := ((c.rput (AIHP p) AIH_PORT_ERR_REPLAY_LIMIT 1).rcount (AIHP p) AIH_PORT_RETRAINS 1)
    setPort p 1 (c.setAport p { c.aport p with replays := 0 })
  else c

/-- LINK_FAILED (R445): a link that has failed three retrains within 1 s (log entry 52). -/
def linkFailedStep (p : Nat) (c : Chip) : Chip :=
  if portState c p = 0 || portState c p ≥ 4 then c
  else linkEvent p (dropFrames p ((setPort p 5 c).rput (AIHP p) AIH_PORT_ERR_RETRAIN_FAIL 1))

/-- Port p reset (R506): the link goes OFF, its frames are dropped, its error bits are cleared, and it trains again (log entry 52). -/
def portReset (p : Nat) (c : Chip) : Chip :=
  let c := dropFrames p (portOff p c)
  let b := AIHP p
  let c := [AIH_PORT_ERR_CONCORD, AIH_PORT_ERR_REPLAY_LIMIT, AIH_PORT_ERR_RETRAIN_FAIL, AIH_PORT_ERR_OPTICS_FAULT, AIH_PORT_ERR_ENCAP_DROP].foldl
    (fun c f => c.rput b f 0) c
  portTry p c

/-! ### Concord records -/

/-- The record of this module for a port (R440). -/
def concordRec (c : Chip) (p : Nat) : List Byte :=
  let g := cfgDigest c
  let b := fields 16 [(0, 2, 0x4143), (2, 1, 1), (4, 4, fwEpoch c), (8, 3, c.node), (11, 1, p),
      (12, 4, c.rget AIH AIH_TIME_CTL_ROOT + 256 * c.rget AIH AIH_TIME_CTL_HOPS)] ++
    sliceBytes g 0 16 ++ sliceBytes (c.fab.digestPrev.getD g) 0 16 ++ leBytes 8 c.time ++ leBytes 4 0
  b ++ leBytes 4 (crc32c b)

/-- A record's CRC is good. -/
def recCrc (r : List Byte) : Bool := leAt r 60 4 == crc32c (sliceBytes r 0 60)

/-- Two records agree (R441). -/
def agree (a b : List Byte) : Bool :=
  recCrc a && recCrc b && leAt a 2 1 == leAt b 2 1 && leAt a 4 4 == leAt b 4 4 && leAt a 8 3 != 0xFFFFFF && leAt b 8 3 != 0xFFFFFF &&
    (leAt a 16 16 == leAt b 16 16 || leAt a 16 16 == leAt b 32 16 || leAt a 32 16 == leAt b 16 16)

/-- A link's records are compared (R441): agreement brings it UP; disagreement to QUARANTINE, with an event as it enters (log entry 52). -/
def concordNow (p : Nat) (peer : List Byte) (c : Chip) : Chip :=
  let s := portState c p
  if s < 2 || s > 4 then c
  else if agree (concordRec c p) peer then (if s = 4 then c else portUpNow p c)
  else
    let c := c.rput (AIHP p) AIH_PORT_ERR_CONCORD 1
    if s = 3 then c else linkEvent p (setPort p 3 c)

/-- CONCORD_SEND (R440): every 1 ms, and when a field of the own record has changed, which may end agreement. -/
def concordSendStep (p : Nat) (c : Chip) : Chip :=
  if portState c p < 2 || portState c p > 4 || c.rget (AIHP p) AIH_PORT_STATUS_USE == 3 then c
  else
    let c := c.emit (.concord p (concordRec c p))
    if portState c p = 4 then concordNow p (c.aport p).peer c else c

/-- CONCORD_RECEIVE (R441, R471). -/
def concordReceiveStep (p : Nat) (r : Concord) (c : Chip) : Chip :=
  if portState c p < 2 || portState c p > 4 || c.rget (AIHP p) AIH_PORT_STATUS_USE == 3 then c
  else
    let b := AIHP p
    let c := if recCrc r.bytes then
        (((c.setAport p { c.aport p with peer := r.bytes }).rput b AIH_PORT_PEER_NODE (leAt r.bytes 8 3)).rput b AIH_PORT_PEER_PORT
          (leAt r.bytes 11 1)).rput b AIH_PORT_PEER_VALID 1
      else c
    concordNow p r.bytes c

/-! ### Frames -/

/-- The transaction that a packet carries, as its sequence number. -/
def pktSeq : Packet → Option Nat
  | .access a => some a.seq
  | .yoke o => some o.txn
  | .coll m => some m.seq
  | _ => none

/-- An unreachable reply reaches the origin (R448) (log entry 52). -/
def unreachFrom (node seq : Nat) (c : Chip) : Chip :=
  match c.fab.txns.find? (fun t => t.seq == seq && rankNode c t.rank == some node) with
  | some t => unreachTxn t.id c
  | none => c

/-- A packet for this module (R448). Management frames go to the controllers, which show them nowhere (log entry 53). -/
def deliverPkt (p : Packet) (c : Chip) : Chip :=
  match p with
  | .access a => accessArrive a c
  | .reply r => takeReply r c
  | .yoke o => remoteYokeOperationStep o c
  | .coll m => collArrive m c
  | .unreach n s => unreachFrom n s c
  | .watchMsg m => deliverMsg m c
  | .mgmt _ => c

/-- A packet that has arrived is delivered or goes on (R448). -/
def passPkt (p cls src dst : Nat) (pkt : Packet) (c : Chip) : Chip :=
  if dst = c.node then deliverPkt pkt c
  else
    let r := sendFrame ⟨0, cls, src, dst, pkt⟩ (c.rcount (AIHP p) AIH_PORT_TRANSIT 1)
    if r.1 then r.2
    else match pktSeq pkt with
    | some s => (sendPkt 1 src (.unreach dst s) (r.2.rcount AIH AIH_UNREACH 1)).2
    | none => r.2

/-- FRAME_RECEIVE (R442, R443, R451) (log entry 53). -/
def frameReceiveStep (p : Nat) (f : LinkFrame) (c : Chip) : Chip :=
  let b := AIHP p
  let mgmt := match f.pkt with
    | .mgmt _ => true
    | _ => false
  if !(portState c p == 4 || (portState c p == 3 && mgmt)) then c
  else if c.rget b AIH_PORT_STATUS_USE = 3 then
    if !f.crcOk then c.rcount b AIH_PORT_CRC_ERR 1
    else if !f.addrOk then (c.rput b AIH_PORT_ERR_ENCAP_DROP 1).rcount b AIH_PORT_DROPS 1
    else passPkt p f.cls f.src f.dst f.pkt (c.rcount b AIH_PORT_RX_BYTES (pktBytes f.pkt))
  else if !f.crcOk then (c.rcount b AIH_PORT_CRC_ERR 1).emit (.nak p (c.aport p).rxSeq)
  else
    let a := c.aport p
    let back := wrapSub 16 a.rxSeq f.seq
    if f.seq = a.rxSeq then
      let n := a.sinceAck + 1
      let c := c.setAport p { a with rxSeq := (a.rxSeq + 1) % 65536, sinceAck := if n ≥ 64 then 0 else n }
      let c := if n ≥ 64 then c.emit (.ack p ((a.rxSeq + 1) % 65536)) else c
      passPkt p f.cls f.src f.dst f.pkt (c.rcount b AIH_PORT_RX_BYTES (pktBytes f.pkt))
    else if 1 ≤ back && back ≤ 4096 then c
    else c.emit (.nak p a.rxSeq)

/-- Frames before number n are acknowledged (R443). -/
def ackTo (p n : Nat) (c : Chip) : Chip :=
  let a := c.aport p
  let left := a.replay.dropWhile (fun f => let d := wrapSub 16 n f.seq; 1 ≤ d && d ≤ 4096)
  let c := c.setAport p { a with replay := left, replays := if left.length < a.replay.length then 0 else a.replays }
  pumpPort a.queue.length p c

/-- ACK_RECEIVE (R443): n is the number of the next frame the receiver awaits. -/
def ackReceiveStep (p n : Nat) (c : Chip) : Chip := if portState c p = 4 then ackTo p n c else c

/-- A replay (R443), counted with those since a frame was last acknowledged (R444). -/
def replayNow (p : Nat) (c : Chip) : Chip :=
  if (c.aport p).replay.isEmpty then c
  else replayPort p (c.setAport p { c.aport p with replays := (c.aport p).replays + 1 })

/-- NAK_RECEIVE (R443): n names the first frame the receiver lacks. -/
def nakReceiveStep (p n : Nat) (c : Chip) : Chip := if portState c p = 4 then replayNow p (ackTo p n c) else c

/-- REPLAY_TIMEOUT (R443): 2 µs without an acknowledgement. -/
def replayTimeoutStep (p : Nat) (c : Chip) : Chip := if portState c p = 4 then replayNow p c else c

/-- ACK_TIMER (R443): 0.5 µs have passed since the last acknowledgement. -/
def ackTimerStep (p : Nat) (c : Chip) : Chip :=
  let a := c.aport p
  if portState c p = 4 && a.sinceAck > 0 then (c.setAport p { a with sinceAck := 0 }).emit (.ack p a.rxSeq) else c

/-! ### The Stile -/

/-- A condition of R436 joins the Stile. -/
def stileJoins (c : Chip) : Bool :=
  c.fab.withdrawn || !c.hedge.standby || !c.hedge.resetHigh || c.rget AIH AIH_STILE_REQ_PIN == 1 || c.rget AIH AIH_STILE_ORDERED == 1 ||
    !opticsOn c 0 || !opticsOn c 1 || c.rget MGT MGT_STATUS_OUTPUTS == 2

/-- The Stile starts to change when its conditions ask for another state (R437). -/
def stileCheck (c : Chip) : Chip :=
  let c := c.rput AIH AIH_STILE_OPTICS_OFF (b2n (!opticsOn c 0 || !opticsOn c 1))
  c.rput AIH AIH_STILE_MOVING (b2n (stileJoins c != (c.rget AIH AIH_STILE_JOINED == 1)))

/-- STILE_CHANGE (R437, R438): the change ends, and both ring links are dropped. -/
def stileChangeStep (c : Chip) : Chip :=
  if c.rget AIH AIH_STILE_MOVING = 0 then c
  else
    let c := (c.rput AIH AIH_STILE_JOINED (b2n (stileJoins c))).rput AIH AIH_STILE_MOVING 0
    linkLossOfSignalStep 1 (linkLossOfSignalStep 0 c)

/-- BYPASS_REQ (R436): BYPASS_REQ_N asserted. -/
def bypassReqStep (c : Chip) : Chip := stileCheck (c.rput AIH AIH_STILE_REQ_PIN 1)
/-- BYPASS_REQ_RELEASE (R436): BYPASS_REQ_N deasserted. -/
def bypassReqReleaseStep (c : Chip) : Chip := stileCheck (c.rput AIH AIH_STILE_REQ_PIN 0)

/-! ### Optics -/

/-- The switch of a port's optical engine turns on or off; a port without optics is OFF, and the Stile joins for port 0 or 1 (R436, R496). -/
def setOptics (p : Nat) (on : Bool) (c : Chip) : Chip :=
  let c := c.rput PWR PWR_OPTICS_STATUS_POWERED (setBits (c.rget PWR PWR_OPTICS_STATUS_POWERED) p 1 (b2n on))
  let c := c.rput (AIHP p) AIH_PORT_STATUS_OPTICS_ON (b2n on)
  stileCheck (if on then c else portOff p c)

/-! ### Fabric time -/

/-- Stamps are time-unsure (R468): the bound, a step within 10 ms, or no synchronisation since reset. -/
def timeCheck (c : Chip) : Chip :=
  let root := c.rget AIH AIH_TIME_CTL_ROOT == 1
  let h := if root then 0 else c.rget AIH AIH_TIME_CTL_HOPS
  let bound := 20 + 4 * h
  let recent := match c.fab.stepped with
    | some t => decide (c.time < t + 10000000)
    | none => false
  let uns := !c.fab.synced || bound > 1000 || recent || (!root && c.fab.lastX + 10000000 ≤ c.time)
  let c := if root then c.rput AIH AIH_TIME_CTL_HOPS 0 else c
  (c.rput AIH AIH_TIME_BOUND_NS (if c.fab.synced then bound else 0xFFFFFFFF)).rput AIH AIH_TIME_CTL_UNSURE (b2n uns)

/-- Hops to a root that the neighbour on a port gives in its record. -/
def peerHops (c : Chip) (p : Nat) : Nat := if (c.aport p).peer.isEmpty then 0xFFFF else bits (leAt (c.aport p).peer 12 4) 8 16

/-- The port that time is taken on (R466): of those UP, the one with the fewest hops, the lower on a tie. -/
def timePort (c : Chip) : Option Nat :=
  ((List.range 9).filter (fun p => portState c p == 4 && c.rget (AIHP p) AIH_PORT_STATUS_USE != 3)).foldl (fun b p =>
    match b with
    | none => some p
    | some q => if peerHops c p < peerHops c q then some p else some q) none

/-- TIME_EXCHANGE (R466, R467): a two-way exchange that has succeeded gives the neighbour's time now and its hops. -/
def timeExchangeStep (x : TimeXchg) (c : Chip) : Chip :=
  if c.rget AIH AIH_TIME_CTL_ROOT = 1 || timePort c != some x.port || x.hops ≥ 0xFFFF then c
  else
    let ahead := x.theirs ≥ c.time
    let off := if ahead then x.theirs - c.time else c.time - x.theirs
    let c := (c.rput AIH AIH_TIME_CTL_HOPS (x.hops + 1))
    let fb := { c.fab with synced := true, lastX := c.time }
    if off < 10000 then
      timeCheck { c with fab := { fb with rate := if off = 0 then 0 else if ahead then 1 else 2, left := off * 1000 } }
    else if ahead then
      timeCheck { c with time := x.theirs, fab := { fb with rate := 0, left := 0, frac := 0, stepped := some x.theirs, lastX := x.theirs } }
    else timeCheck { c with fab := { fb with rate := 3, left := off * 1000 } }

/-- TIME_UNSURE_TIMEOUT (R468): 10 ms have passed without a successful exchange. -/
def timeUnsureTimeoutStep (c : Chip) : Chip :=
  if c.rget AIH AIH_TIME_CTL_ROOT = 1 then timeCheck c else c.rput AIH AIH_TIME_CTL_UNSURE 1

/-- A root's time is set (R466); elsewhere the write is ignored and logged (R470). -/
def aihTimeSetStep (p : Path) (v : Nat) (c : Chip) : Chip :=
  if !c.up || c.rget AIH AIH_TIME_CTL_ROOT != 1 then accLog 0 (AIH + AIH_TIME_SET_TIME.off) .other p c
  else timeCheck { c with time := v, fab := { c.fab with synced := true, rate := 0, left := 0, frac := 0 } }

/-- One period of the crystal in fabric time (R466, R467): 40 ns, 200 ppm more or less while an offset is slewed, or half while a large
backward one is taken up (log entries 1, 27). -/
def timeTick (c : Chip) : Chip :=
  let f := c.fab
  let t := f.frac + (match f.rate with
    | 1 => 40008
    | 2 => 39992
    | 3 => 20000
    | _ => 40000)
  let used := match f.rate with
    | 1 => 8
    | 2 => 8
    | 3 => 20000
    | _ => 0
  let left := f.left - used
  { c with time := (c.time + t / 1000) % 2 ^ 64, fab := { f with frac := t % 1000, left := left, rate := if left = 0 then 0 else f.rate } }

end Sys2Proof.Machine
end

