-- ==== Sys2Proof/Machine/PcieCore.lean ====
section
/-! DEFINITION. What the PCI Express ports hold (R420 to R433): posted writes that are not yet visible, failures, the read-back rule,
outbound requests, and the link. -/

namespace Sys2Proof.Machine

open Sys2Proof

/-! ### The link -/

/-- A port is an endpoint (R414). -/
def isEp (c : Chip) (p : Nat) : Bool := c.rget (PCX p) PCX_STATUS_ROLE == 1

/-- A port's link is up. -/
def pcxUp (c : Chip) (p : Nat) : Bool := c.rget (PCX p) PCX_STATUS_LINK_UP == 1

/-- A port's link is down, or trains (R433). -/
def linkClear (p : Nat) (c : Chip) : Chip :=
  [PCX_STATUS_LINK_UP, PCX_STATUS_SPEED, PCX_STATUS_WIDTH, PCX_STATUS_FLIT].foldl (fun c f => c.rput (PCX p) f 0) c

/-- A write of PCX_CTL.RETRAIN (R433): the link trains again without a reset, and is up when PCX_LINK_UP says so. -/
def linkRetrainNow (p : Nat) (c : Chip) : Chip := if pcxUp c p then linkClear p c else c

/-! ### Failures -/

/-- A failed inbound request is counted, and the first bus address captured (R427, R428, R433). -/
def failNote (p bus : Nat) (c : Chip) : Chip :=
  let c := c.rcount (PCX p) PCX_IN_FAILED 1
  if c.rget (PCX p) PCX_ERR_ADDR_VALID = 1 then c else (c.rput (PCX p) PCX_ERR_ADDR_ADDR bus).rput (PCX p) PCX_ERR_ADDR_VALID 1

/-- A failed inbound request that sets an error bit (R427, R428, R433) (log entry 29). -/
def inFailed (p : Nat) (f : Fld) (bus : Nat) (c : Chip) : Chip := failNote p bus (c.rput (PCX p) f 1)

/-- A failed posted write is reported to its window's context (R52, R427): an event of TYPE 0x0050, and the error-pending flag. -/
def writeFailed (p win req ctx addr reason status : Nat) (fs : List (Nat × Nat × Nat)) (c : Chip) : Chip :=
  reportFailure ctx ⟨status, detail ((0, 8, addr) :: fs)⟩ 0x0050 0xFFFFF 0
    (fields 16 [(0, 8, addr), (8, 1, reason), (9, 1, p), (10, 1, win), (12, 2, req)]) c

/-! ### Posted writes -/

/-- The place of a posted write's target. -/
def postLoc (w : Posted) : Loc := if w.tgt = 0 then .frame w.addr else .sbd (w.tgt - 1) w.addr

/-- The SOURCE of a posted write's target (R81). -/
def postSrc (c : Chip) (w : Posted) : Nat := if w.tgt = 0 then c.srcOf w.addr else 3

/-- The parts of [a, a + n) that lie in one block of k bytes each, as start and length. -/
def chunks (k a n : Nat) : List (Nat × Nat) :=
  if n = 0 then [] else
  (rangeFrom (a / k) ((a + n - 1) / k - a / k + 1)).map (fun u => (max a (u * k), min (a + n) (u * k + k) - max a (u * k)))

/-- A part of a posted write becomes visible in one unit (R278, R427): one that meets an uncorrectable unit leaves it poisoned, and is
reported. -/
def applyUnit (p : Nat) (w : Posted) (u : Nat × Nat) (c : Chip) : Chip :=
  let l : Loc := if w.tgt = 0 then .frame u.1 else .sbd (w.tgt - 1) u.1
  let bs := (w.data.drop (u.1 - w.addr)).take u.2
  let whole := u.2 == 64
  let bad := w.tgt == 0 && !whole && !w.poison && c.memBad.contains (u.1 / 64)
  let c := locStore l bs w.poison whole c
  let c := if w.poison && w.tgt != 0 then c.rput (SBD (w.tgt - 1)) SBD_ERR_POISON_SET 1 else c
  if bad then writeFailed p w.win w.req w.ctx u.1 4 sUncorr [(8, 1, postSrc c w), (9, 1, 0xFF)] (inFailed p PCX_ERR_IN_UNCORR w.bus c) else c

/-- A posted write becomes visible (R397, R421). -/
def applyPosted (p : Nat) (w : Posted) (c : Chip) : Chip := (chunks 64 w.addr w.data.length).foldl (fun c u => applyUnit p w u c) c

/-- Two posted writes go to one 256 B line (R421). -/
def sameLine (a b : Posted) : Bool := a.tgt == b.tgt && a.addr / 256 == b.addr / 256

/-- Those of a port's posted writes for which f holds become visible, and before them those that arrived earlier for the same lines
(R421) (log entry 27). -/
def drainWhich (p : Nat) (f : Posted → Bool) (c : Chip) : Chip :=
  let ws := (c.port p).posted
  let go := fun (i : Nat) (w : Posted) => f w || (ws.drop (i + 1)).any (fun v => f v && sameLine v w)
  let ix := (List.range ws.length).zip ws
  let c := c.setPcx p { c.port p with posted := (ix.filter (fun x => !go x.1 x.2)).map (fun x => x.2) }
  (ix.filter (fun x => go x.1 x.2)).foldl (fun c x => applyPosted p x.2 c) c

/-- Every posted write of a requester becomes visible (R422, R424) (log entry 27). -/
def drainReq (p req : Nat) (c : Chip) : Chip := drainWhich p (fun w => w.req == req) c

/-- Every posted write of a port becomes visible (R426) (log entry 27). -/
def drainAll (p : Nat) (c : Chip) : Chip := drainWhich p (fun _ => true) c

/-- Posted writes that become visible as they please (R421): the manual sets no order between lines (log entry 27). -/
def drainSome (p : Nat) (c : Chip) : Chip :=
  (c.port p).posted.foldl (fun c w =>
    let d := c.draw
    if d.1 % 2 = 0 then drainWhich p (fun v => v == w) d.2 else d.2) c

/-! ### Outbound requests -/

/-- A host core's request over a port ends with an access fault (R417) (log entry 30). -/
def outFault (p hart addr : Nat) (c : Chip) : Chip := (c.rput (PCX p) PCX_ERR_OUT_FAULT 1).emit (.hostReply hart addr 1 [])

/-- Outbound requests without a completion end with an access fault (R429, R431). -/
def outsEnd (p : Nat) (c : Chip) : Chip :=
  let x := c.port p
  x.outs.foldl (fun c o => outFault p o.hart o.addr c) (c.setPcx p { x with outs := [] })

/-! ### The read-back registers -/

/-- A host core's read of PCX_FLUSH (R426): every posted write that has reached the port is visible, and the read returns 0. -/
def pcxFlushNow (path : Path) (p : Nat) (c : Chip) : Chip := (drainAll p c).emit (.read path (PCX p + PCX_FLUSH.off) 0)

end Sys2Proof.Machine
end

