-- ==== Sys2Proof/Machine/Clock.lean ====
section
/-! DEFINITION. What a period of the clock does while no command waits. -/

namespace Sys2Proof.Machine

open Sys2Proof

/-- One period of the 25 MHz crystal (R466, R476): fabric time advances, and 64 cycles of the 1.6 GHz engine clock pass in each half whose
cycle counter counts (R550). Posted writes that wait in a PCI Express port may become visible (R421) (log entry 1). -/
def Chip.tick (c : Chip) : Chip :=
  let c := drainSome 1 (drainSome 0 (timeTick c))
  if c.rget MOD MOD_STATUS_READY = 1 then
    (c.rcount (HALF 0) MOD_HALF_CYCLES_CYCLES 64).rcount (HALF 1) MOD_HALF_CYCLES_CYCLES 64
  else c

end Sys2Proof.Machine
end

