-- ==== Sys2Proof/Machine/DrillIsa.lean ====
section
/-! DEFINITION. Drill instructions (R219 to R222): the encoding, what is illegal, and what an instruction computes in one lane. -/

namespace Sys2Proof.Machine

open Sys2Proof

/-- The fields of an instruction word (R220); `imm` is the 16-bit code. -/
structure DIns where
  op : Nat
  d : Nat
  a : Nat
  b : Nat
  c : Nat
  p : Nat
  pn : Bool
  mod : Nat
  imm : Nat
  deriving DecidableEq, Repr

/-- The fields of a word (R220). -/
def drillDecode (w : Nat) : DIns :=
  ⟨bits w 0 8, bits w 8 8, bits w 16 8, bits w 24 8, bits w 32 8, bits w 40 3, bitAt w 43, bits w 44 4, bits w 48 16⟩

/-- The opcode without the immediate form's bit. -/
def DIns.base (i : DIns) : Nat := i.op % 128

/-- The immediate form. -/
def DIns.isImm (i : DIns) : Bool := bitAt i.op 7

/-- The opcodes that have an immediate form (R221). -/
def immOps : List Nat := [1, 2, 3, 7, 8, 9, 0xA, 0xB, 0xC, 0xD, 0xE, 0x20, 0x21, 0x22, 0x24, 0x25, 0x26]

/-- The opcodes with no immediate form (R221). -/
def plainOps : List Nat :=
  [4, 5, 6, 0xF, 0x23, 0x28, 0x29, 0x2A, 0x2B, 0x2C, 0x2D, 0x2E, 0x30, 0x38, 0x3C, 0x3D, 0x3E, 0x3F, 0x40, 0x41, 0x42, 0x48, 0x49,
   0x4A, 0x50, 0x51, 0x52, 0x53]

/-- X.SPACE of a memory instruction (R221). -/
def DIns.space (i : DIns) : Nat := bits i.c 0 3
/-- X.FMT. -/
def DIns.fmt (i : DIns) : Nat := bits i.c 3 4
/-- SC. -/
def DIns.sc (i : DIns) : Bool := bitAt i.c 7
/-- WIDE. -/
def DIns.wide (i : DIns) : Bool := bitAt i.mod 0

/-- MOD holds a value that the opcode's row defines (R221, R222) (log entry 68). -/
def DIns.modOk (i : DIns) : Bool :=
  match i.base with
  | 1 | 2 | 3 | 7 | 8 | 9 | 0xA | 0x23 | 0x2B | 0x3C | 0x3D | 0x40 | 0x41 | 0x48 => i.mod < 2
  | 4 | 5 | 6 | 0xB | 0xC | 0xD => i.mod < 4
  | 0xE => i.mod % 8 < 6
  | 0xF => true
  | 0x26 | 0x2E => i.mod < 6
  | 0x30 | 0x42 => i.mod < 7
  | 0x38 => bits i.mod 0 2 != bits i.mod 2 2
  | 0x49 => i.mod < 3
  | _ => i.mod == 0

/-- The formats of loads and stores (R234). -/
def drillFmt (f : Nat) : Bool := f ≤ 5 || f == 0xA || f == 0xB || f == 0xC || f == 0xF

/-- The memory extension is one the instruction may use (R222, R234, R239) (log entry 68). -/
def DIns.memOk (i : DIns) : Bool :=
  match i.base with
  | 0x40 => i.space ≤ 4 && drillFmt i.fmt && (!i.wide || i.fmt == 1) && (!i.sc || i.space == 0)
  | 0x41 => i.space ≤ 4 && drillFmt i.fmt && (!i.wide || i.fmt == 1) && !i.sc
  | 0x42 => i.space == 0 && !i.sc && (i.fmt == 0xA || i.fmt == 0xF || (i.fmt == 1 && i.mod == 0))
  | _ => true

/-- The register that a memory instruction moves is a pair (R234, R239). -/
def DIns.memPair (i : DIns) : Bool := i.fmt == 0xF || (i.base != 0x42 && (i.fmt == 0 || i.wide))

/-- The address of a memory instruction is a pair (R221). -/
def DIns.addrPair (i : DIns) : Bool := i.space ≤ 1

/-- An integer opcode's operands are pairs. -/
def DIns.w64 (i : DIns) : Bool := bitAt i.mod 0

/-- The register fields an instruction uses, with those that are pairs (R221). -/
def DIns.regs (i : DIns) : List (Nat × Bool) :=
  let b := fun (w : Bool) => if i.isImm then [] else [(i.b, w)]
  match i.base with
  | 0xE => let w := bitAt i.c 0; (i.a, w) :: b w
  | 0xF => let w := bitAt i.mod 3; [(i.d, w), (i.a, w), (i.b, w)]
  | 0x20 | 0x21 | 0x22 | 0x24 | 0x25 => [(i.d, false), (i.a, false)] ++ b false
  | 0x23 => [(i.d, false), (i.a, false), (i.b, false), (i.c, false)]
  | 0x26 => (i.a, false) :: b false
  | 0x28 | 0x29 | 0x2A | 0x2C | 0x2D => [(i.d, true), (i.a, true), (i.b, true)]
  | 0x2B => [(i.d, true), (i.a, true), (i.b, true), (i.c, true)]
  | 0x2E => [(i.a, true), (i.b, true)]
  | 0x30 => [(i.d, false), (i.a, false)]
  | 0x38 => [(i.d, bitAt i.mod 2), (i.a, bitAt i.mod 0)]
  | 0x3C => [(i.d, i.w64), (i.a, i.w64)]
  | 0x3D | 0x3E | 0x3F => [(i.d, false)]
  | 0x40 => [(i.d, i.memPair), (i.a, i.addrPair)]
  | 0x41 => [(i.b, i.memPair), (i.a, i.addrPair)]
  | 0x42 => [(i.d, i.memPair), (i.b, i.memPair), (i.a, true)] ++
      (if i.mod = 6 then [(let r := i.b + (if i.memPair then 2 else 1); if r ≥ 255 then 256 else r, i.memPair)] else [])
  | 0x48 | 0x49 | 0x4A | 0x50 | 0x53 => []
  | 0x51 => [(i.d, true)]
  | 0x52 => [(i.a, true)]
  | _ => [(i.d, i.w64), (i.a, i.w64)] ++ b i.w64

/-- A register field is RZ, or names registers below REGS, the even one first for a pair (R220, R222) (log entry 68). -/
def regOk (regs : Nat) (r : Nat × Bool) : Bool := r.1 == 255 || (r.1 + b2n r.2 < regs && (!r.2 || r.1 % 2 == 0))

/-- The instruction is legal (R222), in a launch of REGS registers for each thread (log entry 68). -/
def DIns.legal (i : DIns) (regs : Nat) : Bool :=
  (immOps.contains i.base || (plainOps.contains i.base && !i.isImm)) && i.modOk && i.memOk && i.regs.all (regOk regs) &&
    !((i.base == 0xE || i.base == 0x26 || i.base == 0x2E) && i.d % 8 == 7)

/-! ### Registers and predicates of a group -/

/-- A register of a lane (R220). -/
def DGroup.reg (g : DGroup) (r lane : Nat) : LReg := if r = 255 then {} else kget (fun _ => {}) g.regs (r * 32 + lane)

/-- A pair, its low word first. -/
def DGroup.pair (g : DGroup) (r lane : Nat) : LReg :=
  if r = 255 then {}
  else
    let lo := g.reg r lane
    let hi := g.reg (r + 1) lane
    ⟨lo.v + 2 ^ 32 * hi.v, lo.poison || hi.poison, lo.nan || hi.nan⟩

/-- A source of either width. -/
def DGroup.src (g : DGroup) (w : Bool) (r lane : Nat) : LReg := if w then g.pair r lane else g.reg r lane

/-- A destination of either width; a write to RZ is discarded. -/
def DGroup.put (g : DGroup) (w : Bool) (r lane : Nat) (x : LReg) : DGroup :=
  if r = 255 then g
  else
    let set := fun (l : List (Nat × LReg)) (k v : Nat) => kset (fun _ => {}) l (k * 32 + lane) ⟨v % 2 ^ 32, x.poison, x.nan⟩
    let l := set g.regs r x.v
    { g with regs := if w then set l (r + 1) (x.v / 2 ^ 32) else l }

/-- A lane's bit of a mask, set to b. -/
def setLane (m lane : Nat) (b : Bool) : Nat := setBits m lane 1 (b2n b)

/-- Predicate p of a lane; p7 always reads true. -/
def DGroup.pred (g : DGroup) (p lane : Nat) : Bool := p == 7 || bitAt (nth g.preds p 0) lane

/-- A predicate's poison. -/
def DGroup.predBad (g : DGroup) (p lane : Nat) : Bool := p != 7 && bitAt (nth g.predPoison p 0) lane

/-- A predicate written by a compare. -/
def DGroup.putPred (g : DGroup) (p lane : Nat) (v bad : Bool) : DGroup :=
  { g with preds := setNth g.preds p (setLane (nth g.preds p 0) lane v),
           predPoison := setNth g.predPoison p (setLane (nth g.predPoison p 0) lane bad) }

/-- The guard of an instruction in a lane (R220). -/
def DGroup.guard (g : DGroup) (i : DIns) (lane : Nat) : Bool := g.pred i.p lane != i.pn

/-! ### What an instruction computes -/

/-- The second operand of an integer opcode. -/
def DIns.intB (i : DIns) (g : DGroup) (w : Bool) (lane : Nat) : LReg :=
  if i.isImm then { v := wrapInt (if w then 64 else 32) (sext 16 i.imm) } else g.src w i.b lane

/-- The second operand of an F32 opcode. -/
def DIns.f32B (i : DIns) (g : DGroup) (lane : Nat) : LReg := if i.isImm then { v := i.imm * 65536 } else g.reg i.b lane

/-- A quotient or remainder (R219, R221), truncated towards zero. -/
def divInt (uns rem : Bool) (w a b : Nat) : Nat :=
  if b = 0 then (if rem then a else 0)
  else if uns then (if rem then a % b else a / b)
  else
    let x := sext w a
    let y := sext w b
    wrapInt w (if rem then x.tmod y else x.tdiv y)

/-- An integer opcode on w-bit codes (R219, R221). -/
def intOp (op mod w a b : Nat) : Nat :=
  let uns := bitAt mod 1
  let sa := sext w a
  let sb := sext w b
  let n := b % w
  match op with
  | 1 => (a + b) % 2 ^ w
  | 2 => wrapSub w a b
  | 3 => a * b % 2 ^ w
  | 4 => if uns then a * b / 2 ^ w else wrapInt w (sa * sb / ((2 ^ w : Nat) : Int))
  | 5 => divInt uns false w a b
  | 6 => divInt uns true w a b
  | 7 => a &&& b
  | 8 => a ||| b
  | 9 => a ^^^ b
  | 0xA => a * 2 ^ n % 2 ^ w
  | 0xB => if uns then wrapInt w (sa / ((2 ^ n : Nat) : Int)) else a / 2 ^ n
  | 0xC => if uns then min a b else if sa ≤ sb then a else b
  | _ => if uns then max a b else if sa ≤ sb then b else a

/-- A comparison of integers by CMP code (R197, R221). -/
def cmpInt (code : Nat) (a b : Int) : Bool :=
  match code with
  | 0 => a == b
  | 1 => a != b
  | 2 => a < b
  | 3 => a ≤ b
  | 4 => b < a
  | _ => b ≤ a

/-- A float result with its tags (R244): poison of any source, and NaN origin of the first NaN source or of this instruction. -/
def fltRes (f : Fmt) (srcs : List LReg) (v : Val) : LReg :=
  { v := (encodeVal f v).code, poison := srcs.any (fun s => s.poison),
    nan := vIsNan v && (match srcs.find? (fun s => vIsNan (decodeFmt f s.v)) with
      | some s => s.nan
      | none => true) }

/-- A float opcode from 0x20 on (or from 0x28 on in F64), by its place in the table (R221). -/
def fltOp (k mod : Nat) (f : Fmt) (a b c : LReg) : LReg :=
  let x := decodeFmt f a.v
  let y := decodeFmt f b.v
  match k with
  | 0 => fltRes f [a, b] (vAdd x y)
  | 1 => fltRes f [a, b] (vSub x y)
  | 2 => fltRes f [a, b] (vMul x y)
  | 3 => fltRes f [a, b, c] (vAdd (if bitAt mod 0 then vNeg (vMul x y) else vMul x y) (decodeFmt f c.v))
  | 4 => fltRes f [a, b] (minVal x y)
  | _ => fltRes f [a, b] (maxVal x y)

/-- The formats of CVT: 0 INT32, 1 INT64, 2 F32, 3 F64. -/
def cvtVal (k v : Nat) : Val :=
  match k with
  | 0 => vInt (sext 32 v)
  | 1 => vInt (sext 64 v)
  | 2 => decodeFmt .f32 v
  | _ => decodeFmt .f64 v

/-- The INT64 code of a value (R104, R105). -/
def toInt64 (v : Val) : Nat :=
  match v with
  | .nan => 0
  | .inf neg => if neg then 2 ^ 63 else 2 ^ 63 - 1
  | .fin neg m e =>
    let n := rneDiv (m * pow2 e) (pow2 (-e))
    let lim := if neg then 2 ^ 63 else 2 ^ 63 - 1
    let k := if n > lim then lim else n
    if neg then (2 ^ 64 - k) % 2 ^ 64 else k

/-- CVT (R104, R105, R221). -/
def cvtRes (s d : Nat) (x : LReg) : LReg :=
  let v := cvtVal s x.v
  match d with
  | 0 => { v := (encodeVal .int32 v).code, poison := x.poison }
  | 1 => { v := toInt64 v, poison := x.poison }
  | 2 => { v := (encodeVal .f32 v).code, poison := x.poison, nan := vIsNan v && x.nan }
  | _ => { v := (encodeVal .f64 v).code, poison := x.poison, nan := vIsNan v && x.nan }

end Sys2Proof.Machine
end

