-- ==== Sys2Proof/Machine/DrillMem.lean ====
section
/-! DEFINITION. The Drill engine's memory (R232 to R240): where a lane's access goes, loads through the L1, stores, and faults. -/

namespace Sys2Proof.Machine

open Sys2Proof

/-! ### Launches, blocks and groups -/

/-- The launch of a LAUNCH in execution. -/
def Chip.launch (c : Chip) (q seq : Nat) : Option DLaunch := c.drill.launches.find? (fun l => l.q == q && l.seq == seq)

/-- A launch replaced. -/
def Chip.putLaunch (c : Chip) (l : DLaunch) : Chip :=
  { c with drill := { c.drill with launches := c.drill.launches.map (fun x => if x.q = l.q ∧ x.seq = l.seq then l else x) } }

/-- A block of a launch. -/
def DLaunch.block (l : DLaunch) (i : Nat) : Option DBlock := l.blocks.find? (fun b => b.idx == i)

/-- A block replaced. -/
def DLaunch.putBlock (l : DLaunch) (b : DBlock) : DLaunch := { l with blocks := l.blocks.map (fun x => if x.idx = b.idx then b else x) }

/-- A block of a launch replaced by what f makes of it. -/
def Chip.onBlock (c : Chip) (q seq i : Nat) (f : DBlock → DBlock) : Chip :=
  match c.launch q seq with
  | some l => match l.block i with
    | some b => c.putLaunch (l.putBlock (f b))
    | none => c
  | none => c

/-- A group replaced. -/
def DBlock.putGroup (b : DBlock) (g : DGroup) : DBlock := { b with groups := b.groups.map (fun x => if x.idx = g.idx then g else x) }

/-- What a row of a thread group acts on. -/
structure DCtx where
  m : Cmd
  l : DLaunch
  b : DBlock
  g : DGroup
  pc : Nat
  lanes : List Nat
  i : DIns
  deriving Repr

/-- The core's registers. -/
def DCtx.base (x : DCtx) : Nat := DRL x.l.half x.b.core

/-- The group as it stands after an instruction. -/
def DCtx.save (x : DCtx) (g : DGroup) (c : Chip) : Chip := c.onBlock x.l.q x.l.seq x.b.idx (fun b => b.putGroup g)

/-- Grid, block and cluster dimensions of a LAUNCH (R73). -/
def launchGrid (m : Cmd) : Nat × Nat × Nat := (m.par 36 4, m.par 40 4, m.par 44 4)
/-- Block dimensions. -/
def launchBlock (m : Cmd) : Nat × Nat × Nat := (m.par 48 2, m.par 50 2, m.par 52 2)
/-- Cluster dimensions. -/
def launchCluster (m : Cmd) : Nat × Nat × Nat := (m.par 54 1, m.par 55 1, m.par 56 1)
/-- LOCAL. -/
def launchLocal (m : Cmd) : Nat := m.par 60 4
/-- REGS. -/
def launchRegs (m : Cmd) : Nat := m.par 57 1
/-- Threads of a block. -/
def launchThreads (m : Cmd) : Nat := let b := launchBlock m; b.1 * b.2.1 * b.2.2
/-- Blocks of a cluster. -/
def clusterSize (m : Cmd) : Nat := let k := launchCluster m; k.1 * k.2.1 * k.2.2

/-- Coordinates of a flattened index (R217). -/
def unflat (n : Nat) (d : Nat × Nat × Nat) : Nat × Nat × Nat := (n % d.1, n / d.1 % d.2.1, n / (d.1 * d.2.1))
/-- The flattened index of coordinates. -/
def flat (x d : Nat × Nat × Nat) : Nat := x.1 + d.1 * (x.2.1 + d.2.1 * x.2.2)

/-- The cluster of a block, and its rank there (R217). -/
def clusterOf (m : Cmd) (idx : Nat) : Nat × Nat :=
  let g := launchGrid m
  let k := launchCluster m
  let x := unflat idx g
  (flat (x.1 / k.1, x.2.1 / k.2.1, x.2.2 / k.2.2) (g.1 / k.1, g.2.1 / k.2.1, g.2.2 / k.2.2), flat (x.1 % k.1, x.2.1 % k.2.1, x.2.2 % k.2.2) k)

/-- The block of a rank of a cluster (R217). -/
def clusterBlock (m : Cmd) (i r : Nat) : Nat :=
  let g := launchGrid m
  let k := launchCluster m
  let a := unflat i (g.1 / k.1, g.2.1 / k.2.1, g.2.2 / k.2.2)
  let o := unflat r k
  flat (a.1 * k.1 + o.1, a.2.1 * k.2.1 + o.2.1, a.2.2 * k.2.2 + o.2.2) g

/-! ### Where an access goes -/

/-- Where a lane's access goes. -/
inductive DPlace
  | frame (a : Nat)
  | sbd (h o : Nat)
  | local_ (blk o : Nat)
  | param (o : Nat)
  | out
  deriving DecidableEq, Repr

/-- What stops an access: the launch ends, or the group stalls on a page. -/
inductive DStop
  | ends (r : Res)
  | page (p : XPage)
  deriving DecidableEq, Repr

/-- A device address translated for the launch's context (R233). -/
def drillXlate (x : DCtx) (va : Nat) (wr : Bool) (c : Chip) : (Nat ⊕ DStop) × Chip :=
  let v := va % 2 ^ 57
  let p : XPage := { vp := v / 65536, low := v, wr := wr }
  let r := xlatePage x.l.half x.l.ctx (c.ctxDesc x.l.ctx).ptRoot p c
  if (r.1.bad).isSome then (.inr (.page r.1), r.2) else (.inl (r.1.frame * 65536 + v % 65536), r.2)

/-- The address of an instruction's access in a lane, with the poison of its register. -/
def DCtx.addr (x : DCtx) (lane : Nat) : Nat × Bool :=
  let w := x.i.addrPair
  let r := x.g.src w x.i.a lane
  (wrapInt (if w then 64 else 32) ((r.v : Int) + sext 16 x.i.imm), r.poison)

/-- Where n bytes at an address go (R232, R233, R250) (log entry 68). -/
def drillPlace (x : DCtx) (addr n : Nat) (bad wr : Bool) (c : Chip) : (DPlace ⊕ DStop) × Chip :=
  if bad then
    let s := x.l.poisAt.getD (addr, 0)
    (.inr (.ends (mkRes sPoisoned [(0, 8, addr), (8, 1, s.2)])), c)
  else if addr % n ≠ 0 then (.inr (.ends (accessRes addr 7 0xFF)), c)
  else
    let inLocal := fun (blk o : Nat) => if o + n ≤ launchLocal x.m then DPlace.local_ blk o else .out
    match x.i.space with
    | 0 =>
      let r := drillXlate x addr wr c
      (match r.1 with
        | .inl a => .inl (.frame a)
        | .inr s => .inr s, r.2)
    | 1 =>
      let far := bits addr 32 1
      let h := if far = 1 then 1 - x.l.half else x.l.half
      let d := c.ctxDesc x.l.ctx
      let o := bits addr 0 28
      (match segCheck d h o n far with
        | some e => .inr (.ends (accessRes e.2 e.1 0xFF))
        | none => .inl (.sbd h ((d.seg h).1 + o)), c)
    | 2 => (.inl (inLocal x.b.idx addr), c)
    | 3 =>
      let k := clusterOf x.m x.b.idx
      let r := bits addr 20 4
      if bits addr 18 2 ≠ 0 ∨ bits addr 24 8 ≠ 0 ∨ r ≥ clusterSize x.m then (.inl .out, c)
      else (.inl (inLocal (clusterBlock x.m k.1 r) (bits addr 0 18)), c)
    | _ => (.inl (if addr + n ≤ x.l.args.length then .param addr else .out), c)

/-- The places of an access in each lane, in lane order, up to the first that stops it. -/
def drillPlaces (x : DCtx) (n : Nat) (wr : Bool) : List Nat → Chip → (List (Nat × Nat × DPlace) ⊕ DStop) × Chip
  | [], c => (.inl [], c)
  | lane :: ls, c =>
    let a := x.addr lane
    let r := drillPlace x a.1 n a.2 wr c
    match r.1 with
    | .inr s => (.inr s, r.2)
    | .inl p =>
      let t := drillPlaces x n wr ls r.2
      (match t.1 with
        | .inl l => .inl ((lane, a.1, p) :: l)
        | .inr s => .inr s, t.2)

/-- Line requests of VIRT and SEEDBED accesses (R235): distinct 128-byte lines. -/
def lineCount (l : List (Nat × Nat × DPlace)) : Nat :=
  let k := l.filterMap (fun e => match e.2.2 with
    | .frame a => some (a / 128)
    | .sbd h o => some (2 ^ 60 + sbdKey h o / 128)
    | _ => none)
  (unionNat [] k).length

/-- An access outside every block sets LOCAL_RANGE (R233). -/
def rangeErr (x : DCtx) (l : List (Nat × Nat × DPlace)) (c : Chip) : Chip :=
  if (x.i.space == 2 || x.i.space == 3) && l.any (fun e => decide (e.2.2 = .out)) then c.rput x.base DRL_ERR_LOCAL_RANGE 1 else c

/-! ### How a launch stops -/

/-- A launch ends with an outcome (R241): its groups stop where they stand. -/
def stopLaunch (x : DCtx) (r : Res) (c : Chip) : Chip := endLaunch x.l.q x.l.seq r c

/-- A group stalls on a page (R241), or the launch ends. -/
def drillStop (x : DCtx) (s : DStop) (c : Chip) : Chip :=
  match s with
  | .ends r => stopLaunch x r c
  | .page p =>
    let f : PFault := { id := 0, ctx := x.l.ctx, entry := p.entry, kind := (p.bad).getD p.kind, level := p.level, va := p.low, queue := x.l.q,
                        seq := x.l.seq, engine := engByte 3 x.l.half, inst := x.b.core, flags := faultFlags false p.wr, lo := p.lo, time := 0,
                        written := false }
    let r := raiseFault x.l.half f c
    x.save { x.g with stall := r.1, stallSince := some (x.g.stallSince.getD c.time) } r.2

/-- A launch runs again from its first block (R243). -/
def rerunLaunch (x : DCtx) (c : Chip) : Chip :=
  let c := c.putCmd (again x.m)
  (c.putLaunch { x.l with next := 0, cores := 0, blocks := [], poisAt := none }).rput x.base DRL_ERR_RERUN 1

/-- A parity error met by a launch (R243): it runs again, or stops. -/
def drillParity (x : DCtx) (addr : Nat) (c : Chip) : Chip :=
  if canRerun x.m then rerunLaunch x c else stopLaunch x (parityRes x.m addr 3) c

/-! ### The L1 -/

/-- A line of a core's L1 (log entry 67). -/
def l1Find (h n line : Nat) (c : Chip) : Option L1Line := c.drill.l1.find? (fun l => l.half == h && l.core == n && l.addr == line)

/-- Lines that an L1 holds: 128 KiB of 128-byte lines (R215). -/
def l1Lines : Nat := 1024

/-- A line filled from memory. -/
def l1Fill (h n line : Nat) (c : Chip) : Chip :=
  let a := line * 128
  let x : L1Line := ⟨h, n, line, c.rdMem a 128, [0, 1].filter (fun u => c.poisoned (a + 64 * u))⟩
  let own := c.drill.l1.filter (fun l => l.half == h && l.core == n && l.addr != line)
  let rest := c.drill.l1.filter (fun l => !(l.half == h && l.core == n))
  { c with drill := { c.drill with l1 := rest ++ own.drop (own.length - (l1Lines - 1)) ++ [x] } }

/-- A core's L1 is invalidated (R237, R238). -/
def l1Clear (h n : Nat) (c : Chip) : Chip := { c with drill := { c.drill with l1 := c.drill.l1.filter (fun l => !(l.half == h && l.core == n)) } }

/-- A line is invalidated in a core's L1 (R239). -/
def l1Drop (h n line : Nat) (c : Chip) : Chip :=
  { c with drill := { c.drill with l1 := c.drill.l1.filter (fun l => !(l.half == h && l.core == n && l.addr == line)) } }

/-- A store updates the line if the core holds it (R237). -/
def l1Store (h n a : Nat) (bs : List Byte) (c : Chip) : Chip :=
  { c with drill := { c.drill with l1 := c.drill.l1.map (fun l =>
      if l.half = h ∧ l.core = n ∧ l.addr = a / 128 then { l with data := putBytes l.data (a % 128) bs } else l) } }

/-- What a load brings: its bytes, poison, an uncorrectable unit found now, bad parity found, and the SOURCE. -/
structure DGot where
  data : List Byte
  poison : Bool := false
  uncorr : Bool := false
  parity : Option (Nat × Nat) := none
  src : Nat := 0
  deriving DecidableEq, Repr

/-- A load from frame space that reads memory. -/
def loadFresh (a n : Nat) (c : Chip) : DGot × Chip :=
  if c.memBad.contains (a / 64) then
    let s := c.srcOf a
    let c := memUncorr a c
    (⟨c.rdMem a n, true, true, none, s⟩, c)
  else (⟨c.rdMem a n, c.poisoned a, false, none, c.srcOf a⟩, c)

/-- A VIRT load (R237): a line that the L1 still holds may answer in place of memory; the line is then held (log entry 67). -/
def loadVirt (h core a n : Nat) (sc : Bool) (c : Chip) : DGot × Chip :=
  if sc then loadFresh a n c
  else match l1Find h core (a / 128) c with
  | none => let r := loadFresh a n c; (r.1, l1Fill h core (a / 128) r.2)
  | some l =>
    let old : DGot := ⟨sliceBytes l.data (a % 128) n, l.poison.contains (a % 128 / 64), false, none, c.srcOf a⟩
    let d := c.draw
    if !c.memBad.contains (a / 64) && decide (old.data = c.rdMem a n) && old.poison == c.poisoned a then (old, c)
    else if d.1 % 2 = 0 then (old, d.2)
    else let r := loadFresh a n d.2; (r.1, l1Fill h core (a / 128) r.2)

/-- n bytes read at a place. -/
def drillLoad (x : DCtx) (p : DPlace) (n : Nat) (c : Chip) : DGot × Chip :=
  match p with
  | .frame a => loadVirt x.l.half x.b.core a n x.i.sc c
  | .sbd h o =>
    (⟨c.rdSbdBytes h o n, c.sbdPoison.contains (sbdKey h o / 64), false, (c.firstBadWord h o n).map (fun w => (h, w)), 3⟩, c)
  | .local_ blk o =>
    (match (c.launch x.l.q x.l.seq).bind (fun l => l.block blk) with
      | some b => ⟨(List.range n).map (fun i => kget memDef b.mem (o + i)), b.memPoison.contains (o / 64), false, none, 0⟩
      | none => ⟨List.replicate n 0, false, false, none, 0⟩, c)
  | .param o => (⟨sliceBytes x.l.args o n, (List.range n).any (fun i => x.l.argPoison.contains (o + i)), false, none, 0⟩, c)
  | .out => (⟨List.replicate n 0, false, false, none, 0⟩, c)

/-- Bytes stored at a place, poison apart (R237, R263). -/
def drillPut (x : DCtx) (p : DPlace) (bs : List Byte) (c : Chip) : Chip :=
  match p with
  | .frame a => l1Store x.l.half x.b.core a bs (c.wrMem a bs)
  | .sbd h o => c.wrSbd h o bs
  | .local_ blk o =>
    c.onBlock x.l.q x.l.seq blk (fun b =>
      { b with mem := (List.range bs.length).foldl (fun m i => kset memDef m (o + i) (nth bs i 0)) b.mem })
  | .param o =>
    (match c.launch x.l.q x.l.seq with
      | some l => c.putLaunch { l with args := putBytes l.args o bs, argPoison := l.argPoison.filter (fun i => !(o ≤ i && i < o + bs.length)) }
      | none => c)
  | .out => c

/-- The unit of a place is marked poisoned, or cleared (log entry 67). -/
def drillMark (x : DCtx) (p : DPlace) (n : Nat) (bad : Bool) (c : Chip) : Chip :=
  let put := fun (l : List Nat) (u : Nat) => if bad then insertNat u l else l.filter (fun v => v != u)
  match p with
  | .frame a =>
    { c with poison := put c.poison (a / 64),
             drill := { c.drill with l1 := c.drill.l1.map (fun l =>
               if l.half = x.l.half ∧ l.core = x.b.core ∧ l.addr = a / 128 then { l with poison := put l.poison (a % 128 / 64) } else l) } }
  | .sbd h o => { c with sbdPoison := put c.sbdPoison (sbdKey h o / 64) }
  | .local_ blk o => c.onBlock x.l.q x.l.seq blk (fun b => { b with memPoison := put b.memPoison (o / 64) })
  | .param o =>
    if bad then
      (match c.launch x.l.q x.l.seq with
        | some l => c.putLaunch { l with argPoison := (rangeFrom o n).foldl (fun acc i => insertNat i acc) l.argPoison }
        | none => c)
    else c
  | .out => c

/-- A place as a number, so that overlaps and whole units can be seen. -/
def placeKey : DPlace → Option Nat
  | .frame a => some a
  | .sbd h o => some (2 ^ 60 + sbdKey h o)
  | .local_ b o => some (2 ^ 64 * (b + 1) + o)
  | .param o => some (2 ^ 63 + o)
  | .out => none

/-- Places of n bytes that a whole 64-byte unit is made of, by the lanes of one store: their units are cleared of poison (R235, R500). -/
def wholeUnits (l : List (Nat × Nat × DPlace)) (n : Nat) : List (Nat × Nat × DPlace) :=
  let ks := l.filterMap (fun e => placeKey e.2.2)
  l.filter (fun e => match placeKey e.2.2 with
    | some k => k % 64 == 0 && (List.range (64 / n)).all (fun i => ks.contains (k + n * i))
    | none => false)

/-- Two lanes of an access touch the same bytes. -/
def overlaps (l : List (Nat × Nat × DPlace)) : Bool :=
  let ks := l.filterMap (fun e => placeKey e.2.2)
  (unionNat [] ks).length != ks.length

/-- A list in an order that the model leaves open (log entry 67). -/
def shuffle {α : Type} [DecidableEq α] : Nat → List α → Chip → List α × Chip
  | 0, l, c => (l, c)
  | n + 1, l, c =>
    let r := c.pick l
    match r.1 with
    | none => ([], r.2)
    | some e =>
      let t := shuffle n (l.erase e) r.2
      (e :: t.1, t.2)

/-- The order in which lanes of one instruction take effect: lane order, but an open one where lanes meet in LOCAL, CLUSTER or PARAM
space, or in an atomic (log entry 67). -/
def laneOrder (x : DCtx) (l : List (Nat × Nat × DPlace)) (c : Chip) : List (Nat × Nat × DPlace) × Chip :=
  if (x.i.space ≥ 2 || x.i.base == 0x42) && overlaps l then shuffle l.length l c else (l, c)

end Sys2Proof.Machine
end

