-- ==== Sys2Proof/Machine/Drill.lean ====
section
/-! DEFINITION. The Drill engine (R215 to R244): launches, the placing of blocks, one instruction of a thread group, and how a
launch ends. -/

namespace Sys2Proof.Machine

open Sys2Proof

/-! ### LAUNCH -/

/-- LAUNCH (R224): the argument block is copied into the argument bank. -/
def launchStep (q seq : Nat) (c : Chip) : Chip :=
  match running q seq 3 1 c with
  | none => c
  | some m =>
    if (c.launch q seq).isSome then c
    else
      let va := bits (m.par 24 8) 0 57
      let n := m.par 32 4
      let r := xlatePages m.half m.ctx (c.ctxDesc m.ctx).ptRoot (needRange va n 0xFF false []) c
      match r.1.find? (fun p => !p.ok) with
      | some p => stallAt m p r.2
      | none =>
        let at_ := (List.range n).map (fun i => (pageAddr r.1 (va + i)).getD 0)
        let bad := at_.filter (fun a => r.2.memBad.contains (a / 64))
        let m := match bad.head? with
          | some a => { m with notes := m.notes.sawBad true (va / 64 * 64, r.2.srcOf a) }
          | none => m
        let c := bad.foldl (fun c a => if c.memBad.contains (a / 64) then memUncorr a c else c) r.2
        let pois := (List.range n).filter (fun i => c.poisoned (nth at_ i 0))
        let l : DLaunch := { q := q, seq := seq, half := m.half, ctx := m.ctx, args := at_.map c.rdByte, argPoison := pois,
                             poisAt := pois.head?.map (fun i => (va + i, c.srcOf (nth at_ i 0))) }
        { (c.putCmd m) with drill := { c.drill with launches := c.drill.launches ++ [l] } }

/-! ### Placing blocks -/

/-- Clusters of a launch. -/
def launchClusters (m : Cmd) : Nat :=
  let g := launchGrid m
  let k := launchCluster m
  (g.1 / k.1) * (g.2.1 / k.2.1) * (g.2.2 / k.2.2)

/-- Thread groups of a block (R217). -/
def blockGroups (m : Cmd) : Nat := ceilDiv (launchThreads m) 32
/-- Registers of a block (R229). -/
def drillRegs (m : Cmd) : Nat := ceilDiv (launchRegs m) 8 * 8 * 32 * blockGroups m
/-- Granules of local memory of a block. -/
def blockGran (m : Cmd) : Nat := ceilDiv (launchLocal m) 1024

/-- Every block of a cluster has exited. -/
def clusterDone (l : DLaunch) (m : Cmd) (i : Nat) : Bool := l.blocks.all (fun b => (clusterOf m b.idx).1 != i || b.exited)

/-- Local memory granules allocated on a core (R226). -/
def coreGran (c : Chip) (h n : Nat) : Nat :=
  sumNat (c.drill.launches.map (fun l =>
    if l.half ≠ h then 0 else
    match c.findCmd (.queue l.q) l.seq with
    | some m => (l.blocks.filter (fun b => b.core == n && !clusterDone l m (clusterOf m b.idx).1)).length * blockGran m
    | none => 0))

/-- Blocks of a launch that a core still has room for (R229), `more` of them already meant for it (log entry 70). -/
def coreRoom (c : Chip) (h n : Nat) (m : Cmd) (more : Nat) : Bool :=
  let bs := (coreBlocks c h n).length + more + 1
  bs ≤ 32 && bs * blockGroups m ≤ 64 && bs * drillRegs m ≤ 65536 && coreGran c h n + (more + 1) * blockGran m ≤ 256

/-- A core that a launch may use: in service, and free or holding its blocks only. -/
def coreOwn (c : Chip) (l : DLaunch) (n : Nat) : Bool :=
  (c.engine ⟨3, l.half, n⟩).service &&
    c.drill.launches.all (fun y => y.half != l.half || (y.q == l.q && y.seq == l.seq) || y.blocks.all (fun b => b.core != n || b.exited))

/-- Cores for k blocks, filled in the order of a list (R226) (log entry 70). -/
def fillCores (c : Chip) (h : Nat) (m : Cmd) : List Nat → Nat → Nat → List Nat
  | [], _, _ => []
  | n :: ns, done, k =>
    let here := (List.range (k - done)).takeWhile (fun i => coreRoom c h n m i)
    here.map (fun _ => n) ++ fillCores c h m ns (done + here.length) k

/-- The cores of the next cluster of a launch (R225, R226): none when there is no room now (log entry 70). -/
def planCluster (c : Chip) (l : DLaunch) (m : Cmd) : Option (List Nat) :=
  if l.next ≥ launchClusters m || l.ending.isSome then none
  else
    let k := clusterSize m
    let mine := (List.range 64).filter (coreOwn c l)
    if k = 1 then
      let has := mine.filter (fun n => !(coreBlocks c l.half n).isEmpty)
      let free := mine.filter (fun n => (coreBlocks c l.half n).isEmpty)
      ((has ++ free).find? (fun n => coreRoom c l.half n m 0)).map (fun n => [n])
    else
      (List.range 4).findSome? (fun d =>
        let p := fillCores c l.half m (mine.filter (fun n => n / 16 == d)) 0 k
        if p.length = k then some p else none)

/-- The scheduler of a group (R225): the one it falls to, or the next with room. -/
def dealSched (used : List Nat) (s : Nat) : Nat :=
  ((rangeFrom s 4).map (fun i => i % 4)).find? (fun i => (used.filter (fun u => u == i)).length < 32) |>.getD (s % 4)

/-- The groups of a block as it starts (R217, R225, R227). -/
def newGroups (m : Cmd) (k : Nat) (held : List DGroup) : List DGroup :=
  let n := launchThreads m
  (List.range (blockGroups m)).foldl (fun gs w =>
    let all := held ++ gs
    let slot := ((List.range 64).find? (fun s => all.all (fun g => g.slot != s))).getD 0
    let live := min 32 (n - 32 * w)
    gs ++ [{ idx := w, sched := dealSched (all.map (fun g => g.sched)) (k + w), slot := slot,
             pcs := List.replicate 32 (m.par 16 8), exited := 2 ^ 32 - 2 ^ live }]) []

/-- A block starts on a core (R225, R227, R237). -/
def placeBlock (m : Cmd) (l0 : DLaunch) (idx n : Nat) (c : Chip) : Chip :=
  match c.launch l0.q l0.seq with
  | none => c
  | some l =>
    let c := if bitAt l.cores n then c else l1Clear l.half n c
    let k := (l.blocks.filter (fun b => b.core == n)).length
    let held := (coreBlocks c l.half n).flatMap (fun b => b.groups)
    let b : DBlock := { idx := idx, core := n, groups := newGroups m k held, latch := l.latched.contains idx, lost := l.lostSet.contains idx }
    let c := if m.usesPrev then c else adopt true ⟨3, l.half, n⟩ c
    c.putLaunch { l with blocks := l.blocks ++ [b], cores := setLane l.cores n true }

/-- The admission power of a Drill core (R486). -/
def coreWatt : Nat := watt 3 / 2

/-- A core is made ready for its first block (R486): admitted, and its power restored. True once it may take blocks. -/
def readyCore (h n : Nat) (c : Chip) : Bool × Chip :=
  let e : Engine := ⟨3, h, n⟩
  let x := c.engine e
  let a := if x.paid then (true, c) else admission (.core h n) coreWatt c
  if !a.1 then (false, a.2)
  else
    let x := a.2.engine e
    if x.awake then (true, a.2.setEngine e { x with paid := true })
    else (false, a.2.setEngine e { x with paid := true, starting := true })

/-- A launch that issued earlier on the same half has blocks that can start now (R225, step 4) (log entry 70). -/
def placesFirst (c : Chip) (l : DLaunch) : Bool :=
  (c.drill.launches.takeWhile (fun y => !(y.q == l.q && y.seq == l.seq))).any (fun y =>
    y.half == l.half && (match c.findCmd (.queue y.q) y.seq with
      | some m => decide (m.phase = .executing) && (planCluster c y m).isSome
      | none => false))

/-- BLOCK_START (R225 to R227): the next block of a launch, with the rest of its cluster, starts on its core (log entry 70). -/
def blockStartStep (q seq block core : Nat) (c : Chip) : Chip :=
  match running q seq 3 1 c, c.launch q seq with
  | some m, some l =>
    match planCluster c l m with
    | none => c
    | some ns =>
      if placesFirst c l || clusterBlock m l.next 0 != block || ns.head? != some core then c
      else
        let r := (unionNat [] ns).foldl (fun (r : Bool × Chip) n => let x := readyCore l.half n r.2; (r.1 && x.1, x.2)) (true, c)
        if !r.1 then r.2
        else
          let c := ((List.range ns.length).zip ns).foldl (fun c x => placeBlock m l (clusterBlock m l.next x.1) x.2 c) r.2
          (match c.launch q seq with
            | some l => c.putLaunch { l with next := l.next + 1 }
            | none => c)
  | _, _ => c

/-! ### The end of a launch -/

/-- A core with no resident block gives up its power (R487). -/
def leaveCore (h n : Nat) (c : Chip) : Chip :=
  let e : Engine := ⟨3, h, n⟩
  if (c.engine e).paid && (coreBlocks c h n).isEmpty then giveUp coreWatt (c.setEngine e { c.engine e with paid := false }) else c

/-- Every block of a launch is over. -/
def dropBlocks (l : DLaunch) (c : Chip) : Chip :=
  let c := c.putLaunch { l with blocks := l.blocks.map (fun b => { b with groups := [], mem := [], memPoison := [], exited := true }) }
  (unionNat [] (l.blocks.map (fun b => b.core))).foldl (fun c n => leaveCore l.half n c) c

/-- A launch that has been stopped, or whose blocks have all exited, ends (R227, R241). -/
def launchEnd (l : DLaunch) (c : Chip) : Chip :=
  match (c.findCmd (.queue l.q) l.seq).filter (fun m => decide (m.phase = .executing)) with
  | none => c
  | some m =>
    match l.ending with
    | some r => withdrawFaults (finish m r (dropBlocks l c))
    | none =>
      if l.next = launchClusters m ∧ l.blocks.all (fun b => b.exited) then finish m (endRes c m [(0, 8, l.cores)]) (dropBlocks l c) else c

/-- Launches end, and cores that no launch will use give up their power. -/
def drillSettle (c : Chip) : Chip :=
  let c := c.drill.launches.foldl (fun c l => launchEnd l c) c
  let busy := fun (h : Nat) => c.drill.launches.any (fun l => l.half == h && l.ending.isNone && (match c.findCmd (.queue l.q) l.seq with
    | some m => l.next < launchClusters m
    | none => false))
  (c.eng.filter (fun e => e.1 / 65536 == 3 && e.2.paid && !e.2.starting && !busy (e.1 / 256 % 256))).foldl
    (fun c e => leaveCore (e.1 / 256 % 256) (e.1 % 256) c) c

/-! ### One instruction -/

/-- The lanes that can run: neither exited nor at a barrier. -/
def DGroup.live (g : DGroup) : List Nat :=
  (List.range 32).filter (fun i => !bitAt g.exited i && !bitAt g.barB i && !bitAt g.barC i)

/-- The lanes of a group that run next, and their program counter: those at the lowest one (R218) (log entry 66). -/
def DGroup.next (g : DGroup) : Option (Nat × List Nat) :=
  match g.live with
  | [] => none
  | l :: ls =>
    let pc := ls.foldl (fun p i => min p (nth g.pcs i 0)) (nth g.pcs l 0)
    some (pc, (l :: ls).filter (fun i => nth g.pcs i 0 == pc))

/-- The instruction a group comes to (R219, R220): fetched, or what stops it (log entries 66, 69). -/
def drillFetch (m : Cmd) (l : DLaunch) (b : DBlock) (g : DGroup) (pc : Nat) (lanes : List Nat) (c : Chip) : (DCtx ⊕ (DCtx × DStop)) × Chip :=
  let x : DCtx := ⟨m, l, b, g, pc, lanes, drillDecode 0⟩
  if pc % 8 ≠ 0 then (.inr (x, .ends (accessRes pc 7 0xFF)), c)
  else
    let r := drillXlate x pc false c
    match r.1 with
    | .inr s => (.inr (x, s), r.2)
    | .inl a =>
      if r.2.memBad.contains (a / 64) then (.inr (x, .ends (mkRes sUncorr [(0, 8, pc), (8, 1, r.2.srcOf a)])), memUncorr a r.2)
      else if r.2.poisoned a then (.inr (x, .ends (mkRes sPoisoned [(0, 8, pc), (8, 1, r.2.srcOf a)])), r.2)
      else (.inl { x with i := drillDecode (r.2.rdLe a 8) }, r.2)

/-- The group that a row names, ready to run. -/
def drillGroup (g : Grp) (c : Chip) : Option (Cmd × DLaunch × DBlock × DGroup) :=
  match (c.findCmd (.queue g.q) g.seq).filter (fun m => decide (m.phase = .executing) && m.cls == 3), c.launch g.q g.seq with
  | some m, some l =>
    if l.ending.isSome then none
    else match l.block g.block with
    | some b => (b.groups.find? (fun y => y.idx == g.group && !y.waitMsg && y.stall.isNone)).map (fun y => (m, l, b, y))
    | none => none
  | _, _ => none

/-- A row of a Drill instruction: the group comes to it, and f carries it out. A row that names another instruction than the one the
group comes to changes nothing (log entry 66). -/
def drillRow (want : DIns → Nat → Bool) (f : DCtx → Chip → Chip) (g : Grp) (c : Chip) : Chip :=
  match drillGroup g c with
  | none => c
  | some (m, l, b, y) =>
    match y.next with
    | none => c
    | some (pc, lanes) =>
      let r := drillFetch m l b y pc lanes c
      match r.1 with
      | .inr (x, s) => drillStop x s r.2
      | .inl x =>
        if !want x.i (launchRegs m) then c
        else
          let e : Engine := ⟨3, l.half, b.core⟩
          if (r.2.engine e).upset then drillParity x 0 (r.2.setEngine e { r.2.engine e with upset := false })
          else
            let c := (r.2.rcount x.base DRL_INSTR 1).cycles
              [(x.base, DRL_CYC_ACTIVE), (x.base, DRL_CYC_STALL_BANK), (x.base, DRL_CYC_STALL_MEM), (x.base, DRL_CYC_STALL_EXT)]
            f x c

/-- The lanes whose guard holds. -/
def DCtx.on (x : DCtx) : List Nat := x.lanes.filter (x.g.guard x.i)

/-- The group with its running lanes moved to the next instruction. -/
def DCtx.step (x : DCtx) (g : DGroup) : DGroup :=
  { g with pcs := x.lanes.foldl (fun l i => setNth l i ((x.pc + 8) % 2 ^ 64)) g.pcs, stallSince := none }

/-- An instruction that computes in each lane (R220): v gives a lane's result. A poisoned guard poisons what it lets through. -/
def compute (w : Bool) (v : DCtx → Nat → LReg) (x : DCtx) (c : Chip) : Chip :=
  let g := x.on.foldl (fun g i =>
    let r := v x i
    g.put w x.i.d i { r with poison := r.poison || x.g.predBad x.i.p i }) x.g
  x.save (x.step g) c

/-- A compare (R221): v gives a lane's truth and poison. -/
def comparing (v : DCtx → Nat → Bool × Bool) (x : DCtx) (c : Chip) : Chip :=
  let g := x.on.foldl (fun g i =>
    let r := v x i
    g.putPred (x.i.d % 8) i r.1 (r.2 || x.g.predBad x.i.p i)) x.g
  x.save (x.step g) c

/-- The row of a legal instruction of an opcode. -/
def opRow (op : Nat) (f : DCtx → Chip → Chip) (g : Grp) (c : Chip) : Chip := drillRow (fun i regs => i.base == op && i.legal regs) f g c

/-! ### Loads, stores and atomics -/

/-- Bytes of an access (R234, R239). -/
def DIns.size (i : DIns) : Nat := if i.fmt = 0xF then 8 else fmtBits (fmtOf i.fmt) / 8

/-- The register value of a loaded element (R234) (log entry 69). -/
def loadVal (i : DIns) (v : Nat) : Nat :=
  let f := fmtOf i.fmt
  if i.fmt = 0xF || i.fmt == 0 || i.fmt == 1 && !i.wide || i.fmt == 0xA then v
  else if i.wide then (encodeVal .f64 (decodeFmt .f32 v)).code
  else if fmtIsInt f then wrapInt 32 (sext (fmtBits f) v)
  else (encodeVal .f32 (decodeFmt f v)).code

/-- The element a register stores (R103, R234) (log entry 69). -/
def storeConv (i : DIns) (v : Nat) : Conv :=
  let f := fmtOf i.fmt
  if i.fmt = 0xF || i.fmt == 0xA then { code := v }
  else if i.fmt = 0 then { code := v, nan := vIsNan (decodeFmt .f64 v) }
  else if i.wide then encodeVal .f32 (decodeFmt .f64 v)
  else if i.fmt = 1 then { code := v, nan := vIsNan (decodeFmt .f32 v) }
  else if fmtIsInt f then encodeVal f (vInt (sext 32 v))
  else encodeVal f (decodeFmt .f32 v)

/-- The command of a launch changed by f. -/
def onCmd (x : DCtx) (f : Cmd → Cmd) (c : Chip) : Chip :=
  match c.findCmd x.m.car x.m.seq with
  | some m => c.putCmd (f m)
  | none => c

/-- The first poisoned data a launch loads is kept (R244) (log entry 69). -/
def notePois (x : DCtx) (addr src : Nat) (c : Chip) : Chip :=
  match c.launch x.l.q x.l.seq with
  | some l => c.putLaunch { l with poisAt := some (l.poisAt.getD (addr, src)) }
  | none => c

/-- One lane's load; a word with bad parity is left for the caller. -/
def loadLane1 (x : DCtx) (e : Nat × Nat × DPlace) (r : DGroup × Option Nat × Chip) : DGroup × Option Nat × Chip :=
  let d := drillLoad x e.2.2 x.i.size r.2.2
  match d.1.parity with
  | some (h, o) => (r.1, some (r.2.1.getD e.2.1), parityRegs h o d.2)
  | none =>
    let c := if d.1.uncorr then onCmd x (fun m => { m with notes := m.notes.sawBad true (e.2.1, d.1.src) }) d.2 else d.2
    let c := if d.1.poison then notePois x e.2.1 d.1.src c else c
    (r.1.put x.i.memPair x.i.d e.1 ⟨loadVal x.i (leNat d.1.data), d.1.poison || x.g.predBad x.i.p e.1, false⟩, r.2.1, c)

/-- LD (R232 to R237). -/
def drillLd (x : DCtx) (c : Chip) : Chip :=
  let r := drillPlaces x x.i.size false x.on c
  match r.1 with
  | .inr s => drillStop x s r.2
  | .inl l =>
    let n := lineCount l
    let c := rangeErr x l (r.2.rcount x.base DRL_REQUESTS n)
    let d := c.draw
    let c := if x.i.space = 0 then d.2.rcount x.base DRL_L1_MISS (d.1 % (n + 1)) else c
    let t := l.foldl (fun r e => loadLane1 x e r) (x.g, none, c)
    match t.2.1 with
    | some addr => drillParity x addr t.2.2
    | none => x.save (x.step t.1) t.2.2

/-- One lane's store (R106, R235, R244). -/
def storeLane1 (x : DCtx) (e : Nat × Nat × DPlace) (c : Chip) : Chip :=
  let s := x.g.src x.i.memPair x.i.b e.1
  let cv := storeConv x.i s.v
  let c := drillPut x e.2.2 (leBytes x.i.size cv.code) c
  let out := x.i.space ≤ 1
  let ev : NanEv := ⟨if s.nan then 1 else 2, 0xB0, x.b.idx % 65536, x.g.idx, 0, e.1, c.time⟩
  if out && !(s.poison || x.g.predBad x.i.p e.1) then onCmd x (fun m => { m with notes := m.notes.conv cv ev }) c else c

/-- The lanes of a store whose value is poisoned. -/
def badLanes (x : DCtx) (l : List (Nat × Nat × DPlace)) : List (Nat × Nat × DPlace) :=
  l.filter (fun e => (x.g.src x.i.memPair x.i.b e.1).poison || x.g.predBad x.i.p e.1)

/-- Poison stored (R244): the units are poisoned, and a unit stored whole and clean is cleared (log entry 67). -/
def storePoison (x : DCtx) (l : List (Nat × Nat × DPlace)) (c : Chip) : Chip :=
  let bad := badLanes x l
  let c := (wholeUnits l x.i.size).foldl (fun c e => drillMark x e.2.2 x.i.size false c) c
  let c := bad.foldl (fun c e => drillMark x e.2.2 x.i.size true c) c
  match bad.head? with
  | some e => if x.i.space ≤ 1 then onCmd x (fun m => { m with notes := m.notes.sawBad false (x.l.poisAt.getD (e.2.1, 0)) }) c else c
  | none => c

/-- ST (R232 to R237). -/
def drillSt (x : DCtx) (c : Chip) : Chip :=
  let r := drillPlaces x x.i.size true x.on c
  match r.1 with
  | .inr s => drillStop x s r.2
  | .inl l =>
    let c := rangeErr x l (r.2.rcount x.base DRL_REQUESTS (lineCount l))
    let o := laneOrder x l c
    let c := storePoison x l (o.1.foldl (fun c e => storeLane1 x e c) o.2)
    x.save (x.step x.g) c

/-- One lane's atomic (R239, R406, R407). -/
def atomLane (x : DCtx) (e : Nat × Nat × DPlace) (r : DGroup × Chip) : DGroup × Chip :=
  match e.2.2 with
  | .frame a =>
    let n := x.i.size
    let two := x.i.memPair
    let f : Fmt := if x.i.fmt = 1 then .f32 else .int32
    let b := x.g.src two x.i.b e.1
    let nxt := x.g.src two (x.i.b + n / 4) e.1
    let cas := x.i.mod == 6
    let t := if cas then atomAt a 6 f (8 * n) nxt.v b.v r.2 else atomAt a x.i.mod f (8 * n) b.v 0 r.2
    let bad := b.poison || (cas && nxt.poison) || x.g.predBad x.i.p e.1
    let found := t.2.2.2.isSome
    let c := l1Drop x.l.half x.b.core (a / 128) t.1
    let src := c.srcOf a
    let c := if found then
        notePois x e.2.1 src (onCmd x (fun m => { m with notes := m.notes.sawBad (t.2.2.2 == some sUncorr) (e.2.1, src) }) c)
      else if bad then
        onCmd x (fun m => { m with notes := m.notes.sawBad false (x.l.poisAt.getD (e.2.1, 0)) }) (drillMark x e.2.2 n true c)
      else if t.2.2.1 != 0 then
        onCmd x (fun m => { m with notes := m.notes.addNan ⟨t.2.2.1, 0xB0, x.b.idx % 65536, x.g.idx, 0, e.1, c.time⟩ }) c
      else c
    (r.1.put two x.i.d e.1 ⟨t.2.1, found || x.g.predBad x.i.p e.1, false⟩, c)
  | _ => r

/-- ATOM (R239) (log entry 68). -/
def drillAtom (x : DCtx) (c : Chip) : Chip :=
  let r := drillPlaces x x.i.size true x.on c
  match r.1 with
  | .inr s => drillStop x s r.2
  | .inl l =>
    let o := laneOrder x l (r.2.rcount x.base DRL_REQUESTS (lineCount l))
    let t := o.1.foldl (fun r e => atomLane x e r) (x.g, o.2)
    x.save (x.step t.1) t.2

/-! ### Barriers and control -/

/-- Lanes of a group that have not exited. -/
def DGroup.alive (g : DGroup) : List Nat := (List.range 32).filter (fun i => !bitAt g.exited i)

/-- Every live lane of groups stands at a barrier, and some do (log entry 66). -/
def allAt (f : DGroup → Nat) (gs : List DGroup) : Bool := gs.any (fun g => f g != 0) && gs.all (fun g => g.alive.all (fun i => bitAt (f g) i))

/-- A block whose block barrier every thread has reached goes on (R238). -/
def openBlock (b : DBlock) : DBlock :=
  if allAt (fun g => g.barB) b.groups then { b with groups := b.groups.map (fun g => { g with barB := 0 }) } else b

/-- A cluster whose barrier every thread has reached goes on (R238). -/
def openCluster (m : Cmd) (l : DLaunch) (b : DBlock) : DBlock :=
  let peers := l.blocks.filter (fun y => (clusterOf m y.idx).1 == (clusterOf m b.idx).1)
  if allAt (fun g => g.barC) (peers.flatMap (fun y => y.groups)) then { b with groups := b.groups.map (fun g => { g with barC := 0 }) } else b

/-- Barriers that every thread has reached open (R238). -/
def barOpen (m : Cmd) (l : DLaunch) : DLaunch :=
  let l : DLaunch := { l with blocks := l.blocks.map openBlock }
  { l with blocks := l.blocks.map (openCluster m l) }

/-- A block whose every thread has exited is over (R225). -/
def blockOver (b : DBlock) : DBlock :=
  if !b.exited && b.groups.all (fun g => g.alive.isEmpty) then { b with exited := true, groups := [] } else b

/-- Blocks that are over; a block's local memory goes with the last of its cluster (R226). -/
def blocksOver (m : Cmd) (l : DLaunch) : DLaunch :=
  let l : DLaunch := { l with blocks := l.blocks.map blockOver }
  { l with blocks := l.blocks.map (fun b => if clusterDone l m (clusterOf m b.idx).1 then { b with mem := [], memPoison := [] } else b) }

/-- What lanes at a barrier or past their EXIT bring about. -/
def drillOpen (x : DCtx) (c : Chip) : Chip :=
  match c.launch x.l.q x.l.seq with
  | some l => leaveCore l.half x.b.core (c.putLaunch (blocksOver x.m (barOpen x.m l)))
  | none => c

/-- BAR (R238) (log entry 66). -/
def drillBar (x : DCtx) (c : Chip) : Chip :=
  let g := x.on.foldl (fun g i =>
    if x.i.mod = 0 then { g with barB := setLane g.barB i true } else { g with barC := setLane g.barC i true }) x.g
  drillOpen x (x.save (x.step g) c)

/-- FENCE (R238): stores have been accepted when their instruction ends; CLUSTER and DEVICE empty the L1. -/
def drillFence (x : DCtx) (c : Chip) : Chip :=
  let c := x.save (x.step x.g) c
  if x.i.mod = 0 || x.on.isEmpty then c else l1Clear x.l.half x.b.core c

/-- WAIT.MSG (R219, R372). -/
def drillWaitMsg (x : DCtx) (c : Chip) : Chip :=
  if x.on.isEmpty then x.save (x.step x.g) c
  else if x.b.latch then (x.save (x.step x.g) c).onBlock x.l.q x.l.seq x.b.idx (fun b => { b with latch := false })
  else x.save { x.step x.g with waitMsg := true } c

/-- A branch condition or target that is poisoned (R244) (log entry 69). -/
def poisonedJump (x : DCtx) (ret : Bool) : Bool :=
  x.lanes.any (fun i => x.g.predBad x.i.p i) || (ret && x.on.any (fun i => (x.g.pair x.i.a i).poison))

/-- A poisoned branch stops the launch (log entry 69). -/
def poisonStop (x : DCtx) (c : Chip) : Chip :=
  let s := x.l.poisAt.getD (0, 0)
  stopLaunch x (mkRes sPoisoned [(0, 8, s.1), (8, 1, s.2)]) c

/-- Lanes jump (R218, R221); with `link`, pair D takes the address of the next instruction. -/
def drillJump (target : DCtx → Nat → Nat) (ret link : Bool) (x : DCtx) (c : Chip) : Chip :=
  if poisonedJump x ret then poisonStop x c
  else
    let g := x.on.foldl (fun g i =>
      let t := target x i
      let g := if link then g.put true x.i.d i { v := (x.pc + 8) % 2 ^ 64 } else g
      { g with pcs := setNth g.pcs i t }) (x.step x.g)
    x.save g c

/-- The target of a branch. -/
def braTarget (x : DCtx) (_ : Nat) : Nat := wrapInt 64 ((x.pc : Int) + 8 * sext 16 x.i.imm)

/-- EXIT (R218). -/
def drillExit (x : DCtx) (c : Chip) : Chip :=
  if poisonedJump x false then poisonStop x c
  else
    let g := x.step x.g
    drillOpen x (x.save { g with exited := x.on.foldl (fun m i => setLane m i true) g.exited } c)

/-- An illegal instruction ends the launch (R222). -/
def illegalInstructionStep (g : Grp) (c : Chip) : Chip :=
  drillRow (fun i regs => !i.legal regs) (fun x c => stopLaunch x (mkRes sMalformed [(0, 8, x.pc)]) c) g c

/-! ### Special registers -/

/-- A special register (R221); one that no row names reads an open value. -/
def special (x : DCtx) (n lane open_ : Nat) : Nat :=
  let at3 := fun (v : Nat × Nat × Nat) (i : Nat) => if i = 0 then v.1 else if i = 1 then v.2.1 else v.2.2
  if n < 3 then at3 (unflat (32 * x.g.idx + lane) (launchBlock x.m)) n
  else if n < 6 then at3 (unflat x.b.idx (launchGrid x.m)) (n - 3)
  else if n < 9 then at3 (launchGrid x.m) (n - 6)
  else if n < 12 then at3 (launchBlock x.m) (n - 9)
  else if n < 15 then at3 (launchCluster x.m) (n - 12)
  else match n with
  | 15 => (clusterOf x.m x.b.idx).2
  | 16 => x.b.core
  | 17 => lane
  | 18 => x.g.idx
  | 19 => Config.msgState x.b.latch x.b.lost % 2 ^ 32
  | _ => open_ % 2 ^ 32

/-- S2R (R221) (log entry 68). -/
def drillS2r (x : DCtx) (c : Chip) : Chip :=
  let d := if x.i.imm > 19 then c.draw else (0, c)
  compute false (fun x i => { v := special x x.i.imm i d.1 }) x d.2

end Sys2Proof.Machine
end

