-- ==== Sys2Proof/Machine/DrillRows.lean ====
section
/-! DEFINITION. The Drill instructions (R221), one row each. -/

namespace Sys2Proof.Machine

open Sys2Proof

/-- An integer opcode in every lane. -/
def intRow (op : Nat) (g : Grp) (c : Chip) : Chip :=
  opRow op (fun x c => compute x.i.w64 (fun x i =>
    let w := x.i.w64
    let a := x.g.src w x.i.a i
    let b := x.i.intB x.g w i
    { v := intOp op x.i.mod (if w then 64 else 32) a.v b.v, poison := a.poison || b.poison }) x c) g c

/-- IADD. -/
def iaddStep (g : Grp) (c : Chip) : Chip := intRow 0x01 g c
/-- ISUB. -/
def isubStep (g : Grp) (c : Chip) : Chip := intRow 0x02 g c
/-- IMUL. -/
def imulStep (g : Grp) (c : Chip) : Chip := intRow 0x03 g c
/-- IMULHI. -/
def imulhiStep (g : Grp) (c : Chip) : Chip := intRow 0x04 g c
/-- IDIV (R219). -/
def idivStep (g : Grp) (c : Chip) : Chip := intRow 0x05 g c
/-- IREM (R219). -/
def iremStep (g : Grp) (c : Chip) : Chip := intRow 0x06 g c
/-- AND. -/
def iandStep (g : Grp) (c : Chip) : Chip := intRow 0x07 g c
/-- OR. -/
def iorStep (g : Grp) (c : Chip) : Chip := intRow 0x08 g c
/-- XOR. -/
def ixorStep (g : Grp) (c : Chip) : Chip := intRow 0x09 g c
/-- SHL (R219). -/
def shlStep (g : Grp) (c : Chip) : Chip := intRow 0x0A g c
/-- SHR (R219). -/
def shrStep (g : Grp) (c : Chip) : Chip := intRow 0x0B g c
/-- IMIN. -/
def iminStep (g : Grp) (c : Chip) : Chip := intRow 0x0C g c
/-- IMAX. -/
def imaxStep (g : Grp) (c : Chip) : Chip := intRow 0x0D g c

/-- ICMP (R197). -/
def icmpStep (g : Grp) (c : Chip) : Chip :=
  opRow 0x0E (fun x c => comparing (fun x i =>
    let w := bitAt x.i.c 0
    let n := if w then 64 else 32
    let a := x.g.src w x.i.a i
    let b := x.i.intB x.g w i
    let r := if bitAt x.i.mod 3 then cmpInt (x.i.mod % 8) a.v b.v else cmpInt (x.i.mod % 8) (sext n a.v) (sext n b.v)
    (r, a.poison || b.poison)) x c) g c

/-- SEL. -/
def selStep (g : Grp) (c : Chip) : Chip :=
  opRow 0x0F (fun x c => compute (bitAt x.i.mod 3) (fun x i =>
    let w := bitAt x.i.mod 3
    let p := x.i.mod % 8
    let r := if x.g.pred p i then x.g.src w x.i.a i else x.g.src w x.i.b i
    { r with poison := (x.g.src w x.i.a i).poison || (x.g.src w x.i.b i).poison || x.g.predBad p i }) x c) g c

/-- An F32 opcode in every lane. -/
def f32Row (op : Nat) (g : Grp) (c : Chip) : Chip :=
  opRow op (fun x c => compute false (fun x i =>
    fltOp (op - 0x20) x.i.mod .f32 (x.g.reg x.i.a i) (x.i.f32B x.g i) (x.g.reg x.i.c i)) x c) g c

/-- FADD. -/
def faddStep (g : Grp) (c : Chip) : Chip := f32Row 0x20 g c
/-- FSUB. -/
def fsubStep (g : Grp) (c : Chip) : Chip := f32Row 0x21 g c
/-- FMUL. -/
def fmulStep (g : Grp) (c : Chip) : Chip := f32Row 0x22 g c
/-- FFMA: one rounding. -/
def ffmaStep (g : Grp) (c : Chip) : Chip := f32Row 0x23 g c
/-- FMIN (R199). -/
def fminStep (g : Grp) (c : Chip) : Chip := f32Row 0x24 g c
/-- FMAX (R199). -/
def fmaxStep (g : Grp) (c : Chip) : Chip := f32Row 0x25 g c

/-- A float compare (R199). -/
def fcmpRow (op : Nat) (f : Fmt) (g : Grp) (c : Chip) : Chip :=
  opRow op (fun x c => comparing (fun x i =>
    let d := decide (f = .f64)
    let a := x.g.src d x.i.a i
    let b := if d then x.g.pair x.i.b i else x.i.f32B x.g i
    (cmpVal (x.i.mod % 8) (decodeFmt f a.v) (decodeFmt f b.v), a.poison || b.poison)) x c) g c

/-- FCMP. -/
def fcmpStep (g : Grp) (c : Chip) : Chip := fcmpRow 0x26 .f32 g c

/-- An F64 opcode in every lane. -/
def f64Row (op : Nat) (g : Grp) (c : Chip) : Chip :=
  opRow op (fun x c => compute true (fun x i =>
    fltOp (op - 0x28) x.i.mod .f64 (x.g.pair x.i.a i) (x.g.pair x.i.b i) (x.g.pair x.i.c i)) x c) g c

/-- DADD. -/
def daddStep (g : Grp) (c : Chip) : Chip := f64Row 0x28 g c
/-- DSUB. -/
def dsubStep (g : Grp) (c : Chip) : Chip := f64Row 0x29 g c
/-- DMUL. -/
def dmulStep (g : Grp) (c : Chip) : Chip := f64Row 0x2A g c
/-- DFMA: one rounding. -/
def dfmaStep (g : Grp) (c : Chip) : Chip := f64Row 0x2B g c
/-- DMIN. -/
def dminStep (g : Grp) (c : Chip) : Chip := f64Row 0x2C g c
/-- DMAX. -/
def dmaxStep (g : Grp) (c : Chip) : Chip := f64Row 0x2D g c
/-- DCMP. -/
def dcmpStep (g : Grp) (c : Chip) : Chip := fcmpRow 0x2E .f64 g c

/-- SFU (R204, R219). -/
def sfuStep (g : Grp) (c : Chip) : Chip :=
  opRow 0x30 (fun x c => compute false (fun x i =>
    let a := x.g.reg x.i.a i
    fltRes .f32 [a] (transc x.i.mod (decodeFmt .f32 a.v))) x c) g c

/-- CVT (R104, R105). -/
def cvtStep (g : Grp) (c : Chip) : Chip :=
  opRow 0x38 (fun x c => compute (bitAt x.i.mod 2) (fun x i =>
    cvtRes (bits x.i.mod 0 2) (bits x.i.mod 2 2) (x.g.src (bitAt x.i.mod 0) x.i.a i)) x c) g c

/-- MOV. -/
def movStep (g : Grp) (c : Chip) : Chip := opRow 0x3C (fun x c => compute x.i.w64 (fun x i => x.g.src x.i.w64 x.i.a i) x c) g c

/-- MOVI. -/
def moviStep (g : Grp) (c : Chip) : Chip :=
  opRow 0x3D (fun x c => compute false (fun x _ => { v := if bitAt x.i.mod 0 then x.i.imm else wrapInt 32 (sext 16 x.i.imm) }) x c) g c

/-- MOVHI. -/
def movhiStep (g : Grp) (c : Chip) : Chip :=
  opRow 0x3E (fun x c => compute false (fun x i =>
    let d := x.g.reg x.i.d i
    { v := d.v % 65536 + x.i.imm * 65536, poison := d.poison }) x c) g c

/-- S2R. -/
def s2rStep (g : Grp) (c : Chip) : Chip := opRow 0x3F drillS2r g c
/-- LD (R234). -/
def ldStep (g : Grp) (c : Chip) : Chip := opRow 0x40 drillLd g c
/-- ST (R234). -/
def stStep (g : Grp) (c : Chip) : Chip := opRow 0x41 drillSt g c
/-- ATOM (R239). -/
def atomStep (g : Grp) (c : Chip) : Chip := opRow 0x42 drillAtom g c
/-- BAR (R238). -/
def barSyncStep (g : Grp) (c : Chip) : Chip := opRow 0x48 drillBar g c
/-- FENCE (R238). -/
def fenceStep (g : Grp) (c : Chip) : Chip := opRow 0x49 drillFence g c
/-- WAIT.MSG (R372). -/
def waitMsgStep (g : Grp) (c : Chip) : Chip := opRow 0x4A drillWaitMsg g c
/-- BRA (R218). -/
def braStep (g : Grp) (c : Chip) : Chip := opRow 0x50 (drillJump braTarget false false) g c
/-- CALL. -/
def callStep (g : Grp) (c : Chip) : Chip := opRow 0x51 (drillJump braTarget false true) g c
/-- RET. -/
def retStep (g : Grp) (c : Chip) : Chip := opRow 0x52 (drillJump (fun x i => (x.g.pair x.i.a i).v) true false) g c
/-- EXIT (R218). -/
def exitStep (g : Grp) (c : Chip) : Chip := opRow 0x53 drillExit g c

end Sys2Proof.Machine
end

