-- ==== Sys2Proof/Machine/PcieReset.lean ====
section
/-! DEFINITION. Resets of a PCI Express function and port (R429 to R431). -/

namespace Sys2Proof.Machine

open Sys2Proof

/-! ### Function 0 -/

/-- Contexts that a reset of function 0 resets (R429, R433). -/
def ownedCtxs (c : Chip) (p : Nat) : List Nat :=
  let lo := c.rget (PCX p) PCX_OWN_CTX_LO
  let hi := c.rget (PCX p) PCX_OWN_CTX_HI
  if lo > hi then [] else rangeFrom lo (hi - lo + 1)

/-- A field of inbound window n, at an offset within it (R433). -/
def winFld (n o lo w : Nat) : Fld := ⟨0x1000 + 32 * n + o, lo, w⟩

/-- A function-level reset of function 0 (R429). Posted writes accepted before stay, and are carried out (log entry 32). -/
def flr0 (p : Nat) (c : Chip) : Chip :=
  let c := (ownedCtxs c p).foldl (fun c n => resetCtx n c) c
  let c := (List.range 64).foldl (fun c n => c.rput (PCX p) (winFld n 0x14 0 1) 0) c
  let c := c.setPcx p { c.port p with msix := false, msixMask := false, table := [], pba := [] }
  settleWaits (outsEnd p c)

/-! ### Function 1 -/

/-- A carrier no command has, for those that a reset of function 1 leaves behind (R430). -/
def lostCar (c : Chip) (p : Nat) : Carrier :=
  .mailbox (2 + p + 2 * ((List.range (c.cmds.length + 1)).find? (fun k => !c.cmds.any (fun m => decide (m.car = .mailbox (2 + p + 2 * k))))).getD 0)

/-- Everything that names a carrier names another one (log entry 32). -/
def renameCar (a b : Carrier) (c : Chip) : Chip :=
  let f := fun (k : Carrier) => if k = a then b else k
  let w := fun (x : Start) => match x with
    | .cmd k seq => Start.cmd (f k) seq
    | y => y
  { c with cmds := c.cmds.map (fun m => { m with car := f m.car }), gov := { c.gov with waiting := c.gov.waiting.map (fun x => (w x.1, x.2)) },
           hedge := { c.hedge with act := c.hedge.act.map (fun x => { x with car := f x.car }), slice := c.hedge.slice.map (fun x => { x with car := f x.car }) } }

/-- A function-level reset of function 1 (R430): the mailbox and its duplicate window are cleared; a command that executes runs on (log entry 32). -/
def flr1 (p : Nat) (c : Chip) : Chip :=
  let k : Carrier := .mailbox p
  let c := if c.cmds.any (fun m => decide (m.car = k)) then renameCar k (lostCar c p) c else c
  c.setPath k {}

/-- A hot reset, a link down or a conventional reset of an endpoint (R430) (log entry 32). -/
def endpointReset (p : Nat) (c : Chip) : Chip := flr1 p (flr0 p c)

/-! ### A port -/

/-- RESET_FUNCTION with SCOPE 3 takes the link down (R431), and waits for it to come up again (log entry 32). -/
def pcxPortReset (p : Nat) (c : Chip) : Chip :=
  let c := linkClear p c
  let c := if isEp c p then endpointReset p c else (outsEnd p c).emit (.perst p)
  c.rput (PCX p) PCX_STATUS_FLR 1

/-- The reset of a port is over (R431). -/
def pcxResetOver (p : Nat) (c : Chip) : Chip := endWaits (.portReset p) (c.rput (PCX p) PCX_STATUS_FLR 0)

end Sys2Proof.Machine
end

