-- ==== Sys2Proof/Machine/FaultRows.lean ====
section
/-! DEFINITION. The commands of the fault unit (R351 to R354, R361). -/

namespace Sys2Proof.Machine

open Sys2Proof

/-- A response to a fault (R352): one that is pending is resolved by f; another sets RESP_UNKNOWN. Before READY the write is ignored and
logged (R519). -/
def faultResp (p : Path) (id : Nat) (f : PFault → Chip → Chip) (c : Chip) : Chip :=
  if !c.up then accLog 0 0x3018 .other p c
  else match c.pendingFaults.find? (fun x => x.id == id) with
  | some x => settleWaits (f x c)
  | none => c.rput MOD MOD_XLT_ERR_RESP_UNKNOWN 1

/-- FAULT_RETRY (R352). -/
def faultRetryStep (p : Path) (id : Nat) (c : Chip) : Chip := faultResp p id faultRetry c
/-- FAULT_DECLINE (R352, R353). -/
def faultDeclineStep (p : Path) (id : Nat) (c : Chip) : Chip := faultResp p id faultDecline c

/-- MOD_FR_CONSUMED (R351, R361). -/
def modFrConsumedStep (p : Path) (v : Nat) (c : Chip) : Chip :=
  if !c.up then accLog 0 0x3010 .other p c else c.rput MOD MOD_FR_CONSUMED_CONSUMED v

/-- FAULT_RING_WRITE (R351, R355): a pending fault, or a withdrawal, is written to the ring. -/
def faultRingWriteStep (id : Nat) (c : Chip) : Chip :=
  match c.xlt.pending.find? (fun x => x.id == id && !x.written) with
  | some x => faultWrite x c
  | none => c

/-- FAULT_TIMEOUT (R354): a command has waited on faults longer than its context's fault timeout. -/
def faultTimeoutStep (k : Carrier) (seq : Nat) (c : Chip) : Chip :=
  match c.findCmd k seq with
  | some m => if (faultTimeoutNs m.ctx c).isSome then settleWaits (faultTimeout m c) else c
  | none => c

end Sys2Proof.Machine
end

