-- ==== Sys2Proof/Machine/Power.lean ====
section
/-! DEFINITION. Power, clocks and heat (chapter 19): the grid governor's ticks, telemetry, thermal caps, memory temperature and
retraining, the optics switches, sleep and wake, and the engines whose clocks start and stop. -/

namespace Sys2Proof.Machine

open Sys2Proof

/-! ### The settings in force -/

/-- LIMIT in force in W (R480, R497), capped while a regulator phase group has lost two phases (R509). -/
def govLimit (c : Chip) : Nat :=
  let l := min 2400 (max 1200 (c.rget PWR PWR_LIMIT_CUR_LIMIT))
  if c.rget MGT MGT_CAP1_PHASE_CAP = 1 then min 2000 l else l

/-- RAMP in force in W per ms (R484, R497). -/
def govRamp (c : Chip) : Nat := min 200 (max 2 (c.rget PWR PWR_GRID_CUR_RAMP))

/-- RAMP / 50 W, the change of one tick (R487), in the governor's units. -/
def rampStep (c : Chip) : Nat := 256 * govRamp c

/-- FLOOR_W (R489) in the governor's units. -/
def floorU (c : Chip) : Nat := 128 * (min 100 (c.rget PWR PWR_GRID_CUR_FLOOR_PCT) * govLimit c)

/-- A thermal cap acts (R493). -/
def capped (c : Chip) : Bool := c.rget PWR PWR_STATUS_THERMAL_CAP == 1

/-- The floor may be engaged (R489). -/
def floorOn (c : Chip) : Bool := c.rget PWR PWR_GRID_CUR_FLOOR_EN == 1 && c.rget PWR PWR_STATUS_GRID_HINT == 0 && !capped c

/-- The floor is released in the cases of R489. -/
def floorCheck (c : Chip) : Chip :=
  if floorOn c then c else { c with gov := { c.gov with wakeFloor := false } }.rput PWR PWR_STATUS_FLOOR_HELD 0

/-! ### Admission by the governor -/

/-- A waiting start may be admitted (R482, R487). -/
def mayAdmit (a : Nat) (c : Chip) : Bool := c.rget PWR PWR_LIMIT_CUR_FIXED_FREQ == 0 || covered a c

/-- A start that waited takes its power and waits no more. -/
def takeStart (w : Start × Nat) (c : Chip) : Chip :=
  let c := unwaitStart w.1 c
  if c.rget PWR PWR_LIMIT_CUR_FIXED_FREQ = 0 then c else takePower w.2 c

/-- A port's optics are switched on, and its link trains (R439, R496). -/
def opticsUp (p : Nat) (c : Chip) : Chip := portTry p (setOptics p true c)

/-- A waiting start is admitted (R486, R487): a command that has stopped being ready waits no more (log entry 37). -/
def admitOne (w : Start × Nat) (c : Chip) : Chip :=
  match w.1 with
  | .cmd k seq =>
    (match c.findCmd k seq with
      | some m => unwaitStart w.1 (if ready c m then issueReady m c else c)
      | none => unwaitStart w.1 c)
  | .core h n =>
    let x := c.engine ⟨3, h, n⟩
    (takeStart w c).setEngine ⟨3, h, n⟩ { x with paid := true, starting := !x.awake }
  | .stack h n =>
    let x := c.engine ⟨0x15, h, n⟩
    if x.awake || x.starting then unwaitStart w.1 c else (takeStart w c).setEngine ⟨0x15, h, n⟩ { x with starting := true }
  | .mem d =>
    let c := takeStart w c
    { c with srv := { c.srv with waking := c.srv.waking.filter (fun k => k != devKey d) } }
  | .optics p =>
    let c := takeStart w c
    if bitAt (c.rget PWR PWR_OPTICS_STATUS_FAULT) p then { c with hedge := { c.hedge with optics := insertNat p c.hedge.optics } }
    else if bitAt (c.rget PWR PWR_OPTICS_CTL_ON) p then opticsUp p c
    else c

/-- Waiting starts are admitted in the order in which they became ready (R487) (log entry 37). -/
def admitLoop : Nat → Chip → Chip
  | 0, c => c
  | n + 1, c =>
    match c.gov.waiting.head? with
    | none => c
    | some w => if mayAdmit w.2 c then admitLoop n (admitOne w c) else c

/-! ### A tick -/

/-- What work gave up in this tick and no start took becomes ballast (R487) (log entry 36). -/
def useFreed (c : Chip) : Chip :=
  let c := setBallast (c.gov.bal + c.gov.freed) c
  { c with gov := { c.gov with freed := 0 } }

/-- Ballast of a tick in which no start waits, P being p (R487, R489, R490) (log entry 36). -/
def restBallast (p : Nat) (c : Chip) : Chip :=
  let b := c.gov.bal
  let f := floorU c
  let s := rampStep c
  if c.rget PWR PWR_STATUS_FLOOR_HELD = 1 then setBallast (if p < f then b + (f - p) else b - min s (p - f)) c
  else if c.gov.wakeFloor then (if p < f then setBallast (b + min s (f - p)) c else c)
  else setBallast (b - s) c

/-- The grant after a tick: it rises by RAMP / 50 W to LIMIT, and falls no faster to a LIMIT lowered below it (R487, R491) (log entry 36). -/
def nextGrant (c : Chip) : Nat :=
  let l := watt (govLimit c)
  if c.gov.grant > l then max l (c.gov.grant - rampStep c) else min l (c.gov.grant + rampStep c)

/-- The governor's part of a tick, P being p in its units (R487, R490, R508) (log entry 36). -/
def govTick (p : Nat) (c : Chip) : Chip :=
  let out := c.rget MGT MGT_STATUS_OUTPUTS
  let wait := !c.gov.waiting.isEmpty && !govHeld c
  if out = 2 then setBallast (c.gov.bal - watt 2 / 5) c
  else if out = 1 then c
  else if wait && c.rget PWR PWR_LIMIT_CUR_FIXED_FREQ == 1 then
    let g := nextGrant c
    let c : Chip := { c with gov := { c.gov with grant := g } }
    let c := setBallast (if p ≤ g then c.gov.bal + (g - p) else c.gov.bal - min (rampStep c) (p - g)) c
    useFreed (admitLoop c.gov.waiting.length c)
  else
    let c := if wait then admitLoop c.gov.waiting.length c else c
    let l := watt (govLimit c)
    let c : Chip := { c with gov := { c.gov with grant := if p ≤ l then p else max l (c.gov.grant - rampStep c) } }
    restBallast p (useFreed c)

/-- A sample enters a telemetry ring (R479) (log entry 39). -/
def ringPush (i : Nat) (d : List Byte) (c : Chip) : Chip :=
  let r := nth c.gov.rings i []
  let r := r ++ [(c.time, d)]
  { c with gov := { c.gov with next := setNth c.gov.next i (nth c.gov.next i 0 + 1), rings := setNth c.gov.rings i (r.drop (r.length - 65536)) } }

/-- FLAGS of a sample (R479), but for RAMP_BREACH. -/
def sampleFlags (src : Nat) (c : Chip) : Nat :=
  b2n (src != 0) + 2 * c.rget PWR PWR_STATUS_FLOOR_HELD + 8 * b2n (capped c) + 16 * b2n c.unsure + 32 * b2n (c.rget MGT MGT_STATUS_OUTPUTS != 0) +
    64 * b2n (!c.gov.waiting.isEmpty) + 128 * c.rget PWR PWR_STATUS_STAGGER

/-- SOURCE, and the fallback's error and event (R478). -/
def noteSource (m : PowerMeas) (c : Chip) : Chip :=
  let was := c.rget PWR PWR_STATUS_SOURCE
  let c := c.rput PWR PWR_STATUS_SOURCE m.source
  if m.source = 0 then c
  else
    let c := c.rput PWR PWR_ERR_SENSOR_FALLBACK 1
    if was = m.source then c else c.logEvent 0x0042 1 0x12 0xFF 0 (if m.source = 1 then 0xFF else m.group) m.source

/-- Energy, and the time that starts wait and caps act, of one tick of 20 µs (R497). -/
def countTick (power : Nat) (c : Chip) : Chip :=
  let e := c.gov.accE + power
  let b := c.gov.accB + c.gov.bal
  let c := (c.rcount PWR PWR_ENERGY (e / 500)).rcount PWR PWR_BALLAST_ENERGY (b / 640000)
  let c : Chip := { c with gov := { c.gov with accE := e % 500, accB := b % 640000 } }
  let c := if c.gov.waiting.isEmpty then c else c.rcount PWR PWR_WAIT_US 20
  if capped c then c.rcount PWR PWR_THROTTLE_US 20 else c

/-- What the registers show of the governor (R497), in whole W. -/
def showGov (c : Chip) : Chip := (c.rput PWR PWR_NOW_BALLAST (c.gov.bal / 12800)).rput PWR PWR_GRANT_GRANT (c.gov.grant / 12800)

/-- GOVERNOR_TICK (R477 to R479, R484 to R490): every 20 µs while standby is present. -/
def governorTickStep (m : PowerMeas) (c : Chip) : Chip :=
  if !c.hedge.standby then c
  else
    let c := floorCheck (noteSource m c)
    let f := sampleFlags m.source c
    let c := govTick (1280 * m.power) (countTick m.power c)
    let c := showGov { c with gov := { c.gov with accP := c.gov.accP + m.power, accN := c.gov.accN + 1, accMax := max c.gov.accMax m.power, accFlags := c.gov.accFlags ||| f } }
    ringPush 2 (fields 8 [(0, 2, m.power / 10), (2, 2, c.gov.grant / 12800), (4, 2, c.gov.bal / 12800), (6, 1, f)]) c

/-! ### Each millisecond -/

/-- The devices of a half's Infield or Outfield with their temperatures as the registers show them. -/
def hottest (c : Chip) (rs : List Nat) : Nat := ((rs.flatMap regionDevs).map (fun k => devGet c k INF_STATUS_TEMP OUT_STATUS_TEMP)).foldl max 0

/-- The breach of a millisecond whose mean is p (R484, R488): counted and shown, and logged as the run of such milliseconds ends (log entry 38). -/
def breachNow (br : Bool) (c : Chip) : Chip :=
  if br then
    let c := (c.rput PWR PWR_ERR_RAMP_BREACH 1).rcount PWR PWR_BREACHES 1
    { c with gov := { c.gov with run := c.gov.run + 1 } }
  else if c.gov.run = 0 then c
  else { (c.logEvent 0x0043 1 0x12 0xFF 0 0 c.gov.run) with gov := { c.gov with run := 0 } }

/-- The change of P in a millisecond breaks RAMP (R484): the host cores' own change, at most 75 W, is open; caps and takeovers are exempt (log entry 39). -/
def rampBroken (p : Nat) (c : Chip) : Bool × Chip :=
  let d := c.draw
  (match c.gov.lastMean with
    | none => c.gov.short
    | some q => c.gov.short || (!bitAt c.gov.accFlags 3 && !bitAt c.gov.accFlags 5 && (if p ≤ q then q - p else p - q) > 10 * govRamp c + d.1 % 751), d.2)

/-- TELEMETRY_SAMPLE (R479, R484, R489): the 1 ms samples of power and heat (log entries 38, 39). -/
def telemetrySampleStep (t : ThermMeas) (c : Chip) : Chip :=
  if !c.hedge.standby then c
  else
    let p := if c.gov.accN = 0 then c.gov.lastMean.getD 0 else c.gov.accP / c.gov.accN
    let b := rampBroken p c
    let f := c.gov.accFlags ||| 4 * b2n b.1
    let c := breachNow b.1 b.2
    let c := c.rput PWR PWR_NOW_POWER p
    let c := if floorOn c && 1280 * p ≥ floorU c && c.rget PWR PWR_STATUS_FLOOR_HELD == 0 then
        { c with gov := { c.gov with wakeFloor := false } }.rput PWR PWR_STATUS_FLOOR_HELD 1
      else c
    let c := ringPush 0 (fields 16 [(0, 4, nth c.gov.next 0 0), (4, 2, p), (6, 2, c.gov.grant / 1280), (8, 2, c.gov.bal / 1280), (10, 2, c.gov.accMax), (12, 1, f)]) c
    let c := ringPush 1 (fields 16 [(0, 4, nth c.gov.next 1 0), (4, 1, c.rget PWR PWR_TEMP_TJ_EAST), (5, 1, c.rget PWR PWR_TEMP_TJ_WEST),
      (6, 1, hottest c [0, 1]), (7, 1, hottest c [2, 3]), (8, 1, t.inlet), (9, 1, t.outlet), (10, 1, c.rget PWR PWR_TEMP_CAP_EAST),
      (11, 1, c.rget PWR PWR_TEMP_CAP_WEST)]) c
    { c with gov := { c.gov with accP := 0, accN := 0, accMax := 0, accFlags := 0, lastMean := some p, short := false } }

/-! ### Heat -/

/-- The cap of a half at a reading (R493): whether it acts, and its percentage. -/
def capAt (was : Bool) (t : Nat) : Bool × Nat :=
  if t ≥ 105 then (true, max 20 (100 - 10 * (t - 105)))
  else if was && t ≥ 103 then (true, 100)
  else (false, 100)

/-- JUNCTION_SENSE_TICK (R492, R493): the hottest junctions of the two halves; a cap in force releases the floor. -/
def junctionSenseTickStep (east west : Nat) (c : Chip) : Chip :=
  if !c.hedge.standby then c
  else
    let e := capAt (nth c.gov.caps 0 false) east
    let w := capAt (nth c.gov.caps 1 false) west
    let c := (((c.rput PWR PWR_TEMP_TJ_EAST east).rput PWR PWR_TEMP_TJ_WEST west).rput PWR PWR_TEMP_CAP_EAST e.2).rput PWR PWR_TEMP_CAP_WEST w.2
    let c := (c.rput (HALF 0) MOD_HALF_TEMP_TJ east).rput (HALF 1) MOD_HALF_TEMP_TJ west
    let c : Chip := { c with gov := { c.gov with caps := [e.1, w.1] } }
    floorCheck (c.rput PWR PWR_STATUS_THERMAL_CAP (b2n (e.1 || w.1)))

/-- THROTTLE at a temperature (R286), each step ending 2 °C below its threshold. -/
def throttleAt (was t : Nat) : Nat :=
  if t ≥ 100 || (was == 2 && t > 98) then 2 else if t ≥ 95 || (was ≥ 1 && t > 93) then 1 else 0

/-- Refresh is doubled at a temperature (R286). -/
def refreshAt (was : Bool) (t : Nat) : Bool := t > 85 || (was && t > 83)

/-- A device's training record. -/
def trainOf (c : Chip) (k : Nat) : Option Train := c.srv.trains.find? (fun t => t.dev == k)

/-- A device's training record replaced. -/
def setTrain (t : Train) (c : Chip) : Chip := { c with srv := { c.srv with trains := c.srv.trains.filter (fun x => x.dev != t.dev) ++ [t] } }

/-- A device is due for retraining (R521) (log entry 40). -/
def trainDue (k : Nat) (c : Chip) : Chip :=
  match trainOf c k with
  | some t => setTrain { t with due := true } c
  | none => c

/-- A slice test holds a device (R521, R525). -/
def underTest (c : Chip) (k : Nat) : Bool :=
  match c.hedge.slice with
  | some s => s.begun && ((s.kind == 9 && k == s.half * 16 + s.index / 1028) || (s.kind == 10 && k == (2 + s.half) * 16 + s.index / 2056))
  | none => false

/-- OFFLOAD of every slice of a half (R522). -/
def setOffload (h v : Nat) (c : Chip) : Chip := (List.range 16).foldl (fun c n => c.rput (SYC h n) SYC_STATUS_OFFLOAD v) c

/-- The retraining of a device that is due starts, one device at a time, once no migration, throttle or slice test holds it (R521, R522) (log entry 40). -/
def tryRetrain (c : Chip) : Chip :=
  if !c.up || c.srv.training.isSome then c
  else match c.srv.trains.find? (fun t => t.due && devState c t.dev == 2 && devThrottle c t.dev == 0 && !underTest c t.dev &&
      !c.srv.migs.any (fun m => m.started && migTouches c m t.dev)) with
    | none => c
    | some t =>
      let c := devPut t.dev INF_STATUS_STATE OUT_STATUS_STATE 1 (setOffload (dkHalf t.dev) 1 c)
      { c with srv := { c.srv with training := some t.dev } }

/-- RETRAINING_END (R522): the device leaves self-refresh, and OFFLOAD is cleared (log entry 40). -/
def retrainingEndStep (d : MemDev) (c : Chip) : Chip :=
  let k := devKey d
  if c.srv.training ≠ some k then c
  else
    let c := setOffload (dkHalf k) 0 (devPut k INF_STATUS_STATE OUT_STATUS_STATE 2 c)
    let c := setTrain ⟨k, devGet c k INF_STATUS_TEMP OUT_STATUS_TEMP, false⟩ c
    tryRetrain { c with srv := { c.srv with training := none, sr := c.srv.sr.filter (fun x => x != k) } }

/-- MEMORY_TEMP_POLL (R286, R521): a device's memory temperature (log entry 40). -/
def memoryTempPollStep (d : MemDev) (temp : Nat) (c : Chip) : Chip :=
  let k := devKey d
  let c : Chip := { c with hedge := { c.hedge with memT := c.hedge.memT.filter (fun x => x.1 != k) ++ [(k, temp)] } }
  if c.hedge.step < 8 then c
  else
    let c := devPut k INF_STATUS_TEMP OUT_STATUS_TEMP temp c
    let c := devPut k INF_STATUS_REFRESH_2X OUT_STATUS_REFRESH_2X (b2n (refreshAt (devGet c k INF_STATUS_REFRESH_2X OUT_STATUS_REFRESH_2X == 1) temp)) c
    let c := devPut k INF_STATUS_THROTTLE OUT_STATUS_THROTTLE (throttleAt (devThrottle c k) temp) c
    let h := dkHalf k
    let c := (c.rput (HALF h) MOD_HALF_TEMP_STACK (hottest c [h])).rput (HALF h) MOD_HALF_TEMP_PACKAGE (hottest c [2 + h])
    let c := match trainOf c k with
      | some t => if (if temp ≤ t.temp then t.temp - temp else temp - t.temp) ≥ 15 then trainDue k c else c
      | none => c
    tryRetrain c

/-! ### Sleep and wake -/

/-- ASLEEP (R490): no command and no ballast has run for WAKE_IDLE ms. -/
def asleepStep (c : Chip) : Chip :=
  if !c.hedge.standby || c.cmds.any (fun m => m.holds) || c.gov.bal > 0 || !c.gov.waiting.isEmpty then c
  else { c with gov := { c.gov with wakeFloor := false } }.rput PWR PWR_STATUS_ASLEEP 1

/-- A wake by the pin or by WAKE_REQ (R490): while the floor may be engaged, ballast grows to it (log entry 38). -/
def wakeBy (c : Chip) : Chip :=
  let c := wake c
  if floorOn c && c.rget PWR PWR_STATUS_FLOOR_HELD == 0 then { c with gov := { c.gov with wakeFloor := true } } else c

/-- WAKE_N_FALL (R490, R562). -/
def wakeNFallStep (c : Chip) : Chip := if c.hedge.standby then wakeBy (c.rput PWR PWR_STATUS_WAKE 1) else c
/-- WAKE_N_RISE (R562). -/
def wakeNRiseStep (c : Chip) : Chip := c.rput PWR PWR_STATUS_WAKE 0
/-- WAKE_REQ (R490, R497): a write of 1 to PWR_CTL.WAKE_REQ. -/
def wakeReqStep (_p : Path) (c : Chip) : Chip := if c.hedge.standby then wakeBy c else c

/-- STAGGER_END (R490): the delay d has passed (log entry 38). -/
def staggerEndStep (c : Chip) : Chip := (c.rput PWR PWR_STATUS_STAGGER 0).rput PWR PWR_STAGGER_NOW_DELAY_US 0

/-- GRID_HINT_RISE (R489): shedding is permitted. -/
def gridHintRiseStep (c : Chip) : Chip := if c.hedge.standby then floorCheck (c.rput PWR PWR_STATUS_GRID_HINT 1) else c
/-- GRID_HINT_FALL (R489). -/
def gridHintFallStep (c : Chip) : Chip := c.rput PWR PWR_STATUS_GRID_HINT 0

/-! ### The optics switches -/

/-- OPTICS_SWITCH_LIMIT (R495): a switch that reaches its limit turns off and latches a fault. -/
def opticsSwitchLimitStep (port : Nat) (c : Chip) : Chip :=
  if !opticsOn c port then c
  else
    let c := setOptics port false c
    let c := c.rput PWR PWR_OPTICS_STATUS_FAULT (setBits (c.rget PWR PWR_OPTICS_STATUS_FAULT) port 1 1)
    linkEvent port ((c.rput (AIHP port) AIH_PORT_ERR_OPTICS_FAULT 1).rput PWR PWR_ERR_OPTICS_LATCHED 1)

/-- A retry of a latched switch is still owed (R496). -/
def retryOwed (port : Nat) (c : Chip) : Bool :=
  c.hedge.step == 9 && bitAt (c.rget PWR PWR_OPTICS_STATUS_FAULT) port && !opticsOn c port && nth c.hedge.retries port 0 < 3 && bitAt (c.rget PWR PWR_OPTICS_CTL_ON) port

/-- OPTICS_RETRY (R496): the retry waits for its admission; one that succeeds retrains the port (log entry 38). -/
def opticsRetryStep (port : Nat) (ok : Bool) (c : Chip) : Chip :=
  if !retryOwed port c then c
  else
    let a := if c.hedge.optics.contains port then (true, c) else admission (.optics port) (watt 15) c
    if !a.1 then a.2
    else
      let c := a.2
      let c : Chip := { c with hedge := { c.hedge with optics := c.hedge.optics.filter (fun p => p != port), retries := setNth c.hedge.retries port (nth c.hedge.retries port 0 + 1) } }
      if ok then opticsUp port c else c.rput PWR PWR_ERR_OPTICS_LATCHED 1

/-- A port's optics are asked for (R486, R496): on once the governor admits them. -/
def opticsAsk (port : Nat) (c : Chip) : Chip :=
  if opticsOn c port || c.hedge.step != 9 then c
  else
    let a := admission (.optics port) (watt 15) c
    if a.1 then opticsUp port a.2 else a.2

/-- OPTICS_FAULT_CLEAR (R496): clearing FAULT re-arms three retries, and retries at once if ON is set. -/
def opticsFaultClear (port : Nat) (c : Chip) : Chip :=
  if !bitAt (c.rget PWR PWR_OPTICS_STATUS_FAULT) port then c
  else
    let c := c.rput PWR PWR_OPTICS_STATUS_FAULT (setBits (c.rget PWR PWR_OPTICS_STATUS_FAULT) port 1 0)
    let c : Chip := unwaitStart (.optics port) { c with hedge := { c.hedge with retries := setNth c.hedge.retries port 0, optics := c.hedge.optics.filter (fun p => p != port) } }
    if bitAt (c.rget PWR PWR_OPTICS_CTL_ON) port then opticsAsk port c else c

/-- A write of ON (R497): ports switched off lose their optics at once, and those switched on ask for admission unless latched. -/
def opticsSet (on : Nat) (c : Chip) : Chip :=
  (List.range 9).foldl (fun c p =>
    if bitAt on p == opticsOn c p then c
    else if !bitAt on p then setOptics p false (unwaitStart (.optics p) c)
    else if bitAt (c.rget PWR PWR_OPTICS_STATUS_FAULT) p then c
    else opticsAsk p c) c

/-! ### Clocks and power of engines -/

/-- ENGINE_CLOCK_START (R60, R136, R476): a start ordered has ended; the engine holds only the configuration in force. -/
def engineClockStartStep (e : Engine) (c : Chip) : Chip :=
  let x := c.engine e
  if x.starting then c.setEngine e { x with awake := true, starting := false, adopted := true, holdsPrev := false } else c

/-- An engine neither holds a command nor runs ballast. -/
def idle (e : Engine) (c : Chip) : Bool := !c.busy e && ballastOf (ballastSlots c) c.gov.bal e == 0

/-- An idle engine that is awake loses its clock or its power once its idle time, when not 0, has passed; it adopts first (R60) (log entries 7, 75). -/
def gate (e : Engine) (idleTime : Nat) (keep : Bool) (c : Chip) : Chip :=
  if (c.engine e).awake && idleTime != 0 && idle e c then
    let c := adopt keep e c
    c.setEngine e { c.engine e with awake := false }
  else c

/-- FURROW_IDLE_STOP (R136): after FUR_CTL.IDLE_STOP microseconds without work. -/
def furrowIdleStopStep (h : Nat) (c : Chip) : Chip := gate ⟨1, h, 0⟩ (c.rget (FUR h) FUR_CTL_IDLE_STOP) true c
/-- HARROW_IDLE_GATE (R210, R476). -/
def harrowIdleGateStep (h n : Nat) (c : Chip) : Chip := gate ⟨2, h, n⟩ (c.rget (HAR h n) HAR_CTL_IDLE_GATE) false c
/-- DRILL_IDLE_GATE (R244, R476). -/
def drillIdleGateStep (h n : Nat) (c : Chip) : Chip :=
  if (coreBlocks c h n).isEmpty && !(c.engine ⟨3, h, n⟩).paid then gate ⟨3, h, n⟩ (c.rget (DRL h n) DRL_CTL_IDLE_GATE) false c else c
/-- GLEANER_IDLE_GATE (R313, R476): the Gleaners of a stack. -/
def gleanerIdleGateStep (h n : Nat) (c : Chip) : Chip :=
  if c.cmds.any (fun m => m.holds && (glnStacks m c).contains ⟨0x15, h, n⟩) then c
  else gate ⟨0x15, h, n⟩ (c.rget (INF h n) INF_GLN_CTL_IDLE_GATE) false c

end Sys2Proof.Machine
end

