-- ==== Sys2Proof/Machine/Spares.lean ====
section
/-! DEFINITION. Parts put fallow and the spares that take their places (R16, R118, R315, R509, R510). -/

namespace Sys2Proof.Machine

open Sys2Proof

/-! ### What is in service -/

/-- Instances of an engine class that a half holds in full (R14). -/
def fullCount (cls : Nat) : Nat := if cls = 1 then 1 else if cls = 3 then 64 else 16

/-- Instances of an engine class in service on a half (log entry 41). -/
def svcCount (c : Chip) (cls h : Nat) : Nat := ((List.range (fullCount cls)).filter (fun i => (c.engine ⟨cls, h, i⟩).service)).length

/-- A hart has no core in service (R509, R510). -/
def hartOut (c : Chip) (hart : Nat) : Bool := c.rget (HST (hart / 36) (hart % 36)) HST_STATUS_STATE == 6

/-- Host cores in service on a half. -/
def hostCount (c : Chip) (h : Nat) : Nat := ((List.range 36).filter (fun n => !hartOut c (36 * h + n))).length

/-- Fallow parts of a kind on a half. -/
def fallowOf (c : Chip) (k : PartKind) (h : Nat) : List Part := c.hedge.nvParts.filter (fun p => decide (p.kind = k) && p.half == h)

/-- Balk link modules that have failed, on either half, beyond the two spares (R509). -/
def balkLost (c : Chip) : Nat := (c.hedge.nvParts.filter (fun p => decide (p.kind = .balkModule))).length - 2

/-- The physical core that serves a host or Drill core's number (log entry 41). -/
def physOf (c : Chip) (k : PartKind) (h n : Nat) : Nat :=
  if k = .drillCore then c.rget (DRL h n) DRL_STATUS_PHYS else c.rget (HST h n) HST_STATUS_PHYS

/-- The physical Drill core that a slice test holds (R523). -/
def testPhys (c : Chip) (h : Nat) : Option Nat := (c.hedge.slice.filter (fun s => stOn [2] h s && s.aside)).map (fun s => s.phys)

/-- A physical host or Drill core of a half that is neither fallow nor under test nor serves a number (R16, R509) (log entry 41). -/
def freePhys (c : Chip) (k : PartKind) (h : Nat) : Option Nat :=
  let n := if k = .drillCore then 64 else 36
  let on := fun (i : Nat) => if k = .drillCore then (c.engine ⟨3, h, i⟩).service else !hartOut c (36 * h + i)
  (List.range (n + 2)).find? (fun p => !(fallowOf c k h).any (fun x => x.phys == p) && !(decide (k = .drillCore) && testPhys c h == some p) && !(List.range n).any (fun i => on i && physOf c k h i == p))

/-- The unit code of a part (R501) (log entry 41). -/
def partUnit : PartKind → Nat
  | .hostCore => 0x0D | .drillCore => 0x03 | .furrowRow => 0x01 | .furrowCol => 0x01 | .harrow => 0x02 | .mover => 0x04 | .queueProc => 0x0C
  | .bankGroup => 0x08 | .way => 0x09 | .slice => 0x09 | .device => 0x0A | .gleaner => 0x0A | .dispatch => 0x0A | .balkModule => 0x0E | .phase => 0x12
  | .yoke => 0x05 | .surveyor => 0x06 | .xlate => 0x07

/-- The engine class of a part that is an instance of one. -/
def partCls : PartKind → Nat
  | .harrow => 2 | .drillCore => 3 | .mover => 4 | .queueProc => 0xE | _ => 1

/-- The record that a part is fallow with no spare (R16, R509), with the count now in service. -/
def noSpare (pt : Part) (n : Nat) (c : Chip) : Chip := c.logEvent 0x0001 3 (partUnit pt.kind) pt.half pt.inst pt.phys n

/-- The record that a spare has taken a part's place (R509). -/
def spareTook (pt : Part) (spare : Nat) (c : Chip) : Chip := c.logEvent 0x0002 2 (partUnit pt.kind) pt.half pt.inst pt.phys spare

/-- An engine instance leaves service or joins it; one that leaves has nothing to adopt (R60). -/
def setService (e : Engine) (on : Bool) (c : Chip) : Chip :=
  let c := if on then c else adopt false e c
  c.setEngine e { c.engine e with service := on, paid := if on then (c.engine e).paid else false }

/-! ### Spares -/

/-- Spare rows or columns in place of fallow ones (R118). -/
def mapCount (c : Chip) (k : PartKind) (h : Nat) : Nat := c.rget (FUR h) (if k = .furrowRow then FUR_MAP_ROWS_SPARED else FUR_MAP_COLS_SPARED)

/-- Spare rows or columns of an array (R118) (log entry 41). -/
def mapSpares (k : PartKind) : Nat := if k = .furrowRow then 4 else 16

/-- A part is waiting for its spare (R510). -/
def awaitSpare (pt : Part) (c : Chip) : Chip :=
  if c.hedge.repl.contains pt then c else { c with hedge := { c.hedge with repl := c.hedge.repl ++ [pt] } }

/-- The spare takes a part's place (R118, R509, R510); with none left the part's number goes out of service. `log` is false where the
non-volatile record is applied again after a module reset (log entry 41). -/
def spareIn (pt : Part) (log : Bool) (c : Chip) : Chip :=
  let h := pt.half
  let ev := fun (f : Chip → Chip) (c : Chip) => if log then f c else c
  match pt.kind with
  | .hostCore =>
    (match freePhys c .hostCore h with
      | some s => ev (spareTook pt s) (c.rput (HST h pt.inst) HST_STATUS_PHYS s)
      | none => let c := c.rput (HST h pt.inst) HST_STATUS_STATE 6; ev (noSpare pt (hostCount c h)) c)
  | .drillCore =>
    let c := if (freePhys c .drillCore h).isNone then stInterrupt (stOn [2] h) c else c
    (match freePhys c .drillCore h with
      | some s => ev (spareTook pt s) (setService ⟨3, h, pt.inst⟩ true (c.rput (DRL h pt.inst) DRL_STATUS_PHYS s))
      | none => let c := setService ⟨3, h, pt.inst⟩ false c; ev (noSpare pt (svcCount c 3 h)) c)
  | .furrowRow => ev (spareTook pt (128 + mapCount c .furrowRow h)) (c.rcount (FUR h) FUR_MAP_ROWS_SPARED 1)
  | .furrowCol => ev (spareTook pt (512 + mapCount c .furrowCol h)) (c.rcount (FUR h) FUR_MAP_COLS_SPARED 1)
  | .balkModule =>
    let c := [0, 1].foldl (fun c h => ((c.rput (BLK h) BLK_STATUS_SPARES (c.rget (BLK h) BLK_STATUS_SPARES - 1)).rput (BLK h) BLK_STATUS_HOLD 0).rput (BLK h)
      BLK_ERR_MODULE_SPARED (b2n log)) c
    ev (spareTook pt (20 + (1 - min 1 (c.rget (BLK 0) BLK_STATUS_SPARES)))) c
  | _ => c

/-- An array with no spare row or column left is fallow (R509, R511). -/
def arrayFallow (pt : Part) (log : Bool) (c : Chip) : Chip :=
  let c := setService ⟨1, pt.half, 0⟩ false c
  if log then noSpare pt (svcCount c 1 pt.half) c else c

/-- A part is fallow (R509): those with a spare wait for it (R510), or take it at once when `now`; the others leave service. -/
def fallowPart (pt : Part) (now log : Bool) (c : Chip) : Chip :=
  let h := pt.half
  let take := fun (c : Chip) => if now then spareIn pt log c else awaitSpare pt c
  match pt.kind with
  | .hostCore =>
    let serves := physOf c .hostCore h pt.inst == pt.phys && !hartOut c (36 * h + pt.inst)
    if serves then take (if now then noteFallow pt c else c) else noteFallow pt c
  | .drillCore =>
    let serves := physOf c .drillCore h pt.inst == pt.phys && (c.engine ⟨3, h, pt.inst⟩).service
    let c := noteFallow pt c
    if serves then take (setService ⟨3, h, pt.inst⟩ false c) else c
  | .furrowRow | .furrowCol =>
    let c := stInterrupt (stOn [if pt.kind = .furrowRow then 0 else 1] h) c
    if mapCount c pt.kind h + (c.hedge.repl.filter (fun x => decide (x.kind = pt.kind) && x.half == h)).length < mapSpares pt.kind then take (noteFallow pt c)
    else arrayFallow pt log (noteFallow pt c)
  | .harrow | .mover | .queueProc =>
    let c := setService ⟨(partCls pt.kind), h, pt.inst⟩ false (noteFallow pt c)
    if log then noSpare pt (svcCount c (partCls pt.kind) h) c else c
  | .bankGroup =>
    let c := noteFallow pt ((c.rput (SBD h) SBD_MAP_SPARED_GROUP pt.inst).rput (SBD h) SBD_MAP_SPARE_IN_USE 1)
    if log then spareTook pt 16 c else c
  | .way =>
    let b := SYC h (pt.inst / 16)
    let f := c.rget b SYC_WAYS_FALLOW
    let c := noteFallow pt c
    if bitAt f (pt.inst % 16) then c
    else
      let c := (c.rput b SYC_WAYS_FALLOW (setBits f (pt.inst % 16) 1 1)).rcount b SYC_STATUS_FALLOW_WAYS 1
      if log then (c.rput b SYC_ERR_WAY_FALLOW 1).logEvent 0x0015 2 0x09 h (pt.inst / 16) (pt.inst / 16) (pt.inst % 16) else c
  | .device =>
    let k := if pt.inst < 6 then h * 16 + pt.inst else (2 + h) * 16 + (pt.inst - 6)
    if log then pathFailed (k * 64) c else c
  | .gleaner =>
    let b := INF h pt.inst
    let c := c.rput b INF_GLN_STATUS_IN_SERVICE (c.rget b INF_GLN_STATUS_IN_SERVICE - 1)
    let lone := (fallowOf c .gleaner h).any (fun x => x.inst == pt.inst && x.phys == (pt.phys ^^^ 1))
    let c := noteFallow pt c
    if log then
      let c := c.rput b INF_GLN_ERR_FALLOW 1
      if lone then noSpare pt (c.rget b INF_GLN_STATUS_IN_SERVICE) c else spareTook pt (pt.phys ^^^ 1) c
    else c
  | .balkModule =>
    let used := (c.hedge.nvParts.filter (fun p => decide (p.kind = .balkModule))).length
    let c := noteFallow pt c
    if used < 2 then take (if now then c else [0, 1].foldl (fun c h => c.rput (BLK h) BLK_STATUS_HOLD 1) c)
    else
      let c := [0, 1].foldl (fun c h => (c.rput (BLK h) BLK_STATUS_ACTIVE (c.rget (BLK h) BLK_STATUS_ACTIVE - 1)).rput (BLK h) BLK_ERR_MODULE_LOST (b2n log)) c
      if log then noSpare pt (20 - balkLost c) c else c
  | .phase =>
    let first := !(fallowOf c .phase h).any (fun x => x.inst == pt.inst)
    let c := noteFallow pt c
    let c := if first then c else c.rput MGT MGT_CAP1_PHASE_CAP 1
    if log then (if first then spareTook pt 0 c else noSpare pt 0 c) else c
  | .slice | .yoke | .surveyor | .xlate | .dispatch => if log then noSpare pt 0 c else c

/-- SPARE_IN_SERVICE (R510): the replacement of a part in service is complete. -/
def spareInServiceStep (pt : Part) (c : Chip) : Chip :=
  if !c.hedge.repl.contains pt || decide (pt.kind = .hostCore) then c
  else
    let c := spareIn pt true c
    { c with hedge := { c.hedge with repl := c.hedge.repl.filter (fun x => decide (x ≠ pt)) } }

/-- The parts of the non-volatile record, applied to registers that a module reset has cleared (R505, R517) (log entry 10). -/
def applyRecord (c : Chip) : Chip :=
  let l := c.hedge.nvParts
  l.foldl (fun c p => fallowPart p true false c) { c with hedge := { c.hedge with nvParts := [] } }

end Sys2Proof.Machine
end

