-- ==== Sys2Proof/Machine/Host.lean ====
section
/-! DEFINITION. The host complex and the system cache (R387 to R409): what a home slice does for a host core, the Seedbed windows, and
the host complex going down and starting again. -/

namespace Sys2Proof.Machine

open Sys2Proof

/-! ### Copies and the directory -/

/-- The lead controller runs (R475). -/
def leadUp (c : Chip) : Bool := nth c.hedge.mcs (c.rget PWR PWR_MGR_LEAD) false

/-- A host core's register block (R410). -/
def hstBase (hart : Nat) : Nat := HST (hart / 36) (hart % 36)

/-- Requests of a hart are served: the host complex runs (R401) and the hart has a core in service. -/
def hostOn (hart : Nat) (c : Chip) : Bool := c.up && c.rget CPLX HST_CPLX_STATUS_STATE == 1 && !hartOut c hart

/-- A hart's copy of a sector (R391). -/
def copyOf (c : Chip) (hart sec : Nat) : Option HCopy := c.host.copies.find? (fun x => x.hart == hart && x.sec == sec)

/-- A copy replaced. -/
def putCopy (x : HCopy) (c : Chip) : Chip :=
  { c with host := { c.host with copies := c.host.copies.filter (fun y => !(y.hart == x.hart && y.sec == x.sec)) ++ [x] } }

/-- A copy dropped, with the reservation on it (R396). -/
def dropCopy (hart sec : Nat) (c : Chip) : Chip :=
  { c with host := { c.host with copies := c.host.copies.filter (fun y => !(y.hart == hart && y.sec == sec)),
                                 resv := c.host.resv.filter (fun r => !(r.1 == hart && r.2 == sec)) } }

/-- The directory entry of a sector (R391); one that lists no cluster is none. -/
def setDir (sec : Nat) (owned : Bool) (vec : Nat) (c : Chip) : Chip :=
  let l := c.host.dir.filter (fun d => d.sec != sec)
  { c with host := { c.host with dir := if vec = 0 then l else l ++ [⟨sec, owned, vec⟩] } }

/-- The cluster vector that the directory holds for a sector (R391). -/
def dirVec (c : Chip) (sec : Nat) : Nat := ((c.host.dir.find? (fun d => d.sec == sec)).map (fun d => d.vec)).getD 0

/-- A modified copy's data reaches its home slice (R393): a whole sector, with its poison mark (log entry 71). -/
def writeBack (x : HCopy) (c : Chip) : Chip :=
  let c := c.touch (x.sec * 64)
  let m := (List.range 64).foldl (fun m i => kset memDef m (x.sec * 64 + i) (nth x.data i 0)) c.mem
  let bad := c.memBad.filter (fun u => u != x.sec)
  let p := if x.poison then insertNat x.sec c.poison else c.poison.filter (fun u => u != x.sec)
  { c with mem := m, memBad := bad, poison := p }

/-- What the home slice gives of a sector: its bytes and poison; one that cannot be corrected is first written back poisoned (R279). -/
def sectorAt (sec : Nat) (c : Chip) : List Byte × Bool × Chip :=
  let c := if c.memBad.contains sec then memUncorr (sec * 64) c else c
  let c := c.touch (sec * 64)
  (c.rdMem (sec * 64) 64, c.poisoned (sec * 64), c)

/-- A hart gains a shared copy (R391, R392): a copy held modified elsewhere is written back first, and its core keeps it shared (log entry 42). -/
def gainShared (hart sec : Nat) (c : Chip) : Chip :=
  match copyOf c hart sec with
  | some _ => c
  | none =>
    let c := c.rcount (hstBase hart) HST_L2_MISS 1
    let c := match c.host.dir.find? (fun d => d.sec == sec && d.owned) with
      | some d =>
        let c := c.snoop sec (vecHarts d.vec)
        (c.host.copies.filter (fun x => x.sec == sec)).foldl (fun c x =>
          let c := if x.hold = .modified then writeBack x (c.rcount (SYC (c.home (sec * 64)).1 (c.home (sec * 64)).2) SYC_RECALLS 1) else c
          putCopy { x with hold := .shared } c) c
      | none => c
    let r := sectorAt sec c
    let vec := (c.host.copies.filter (fun x => x.sec == sec)).foldl (fun v x => v ||| 2 ^ (x.hart / 4)) (2 ^ (hart / 4))
    let vec := if (c.host.dir.any (fun d => d.sec == sec && !d.owned)) then dirVec c sec ||| vec else vec
    setDir sec false vec (putCopy ⟨hart, sec, .shared, r.2.1, r.1⟩ r.2.2)

/-- A hart gains a sector exclusive (R391, R394): every other copy is invalidated, one held modified being recalled first (log entry 42). -/
def gainOwned (hart sec : Nat) (c : Chip) : Chip :=
  match copyOf c hart sec with
  | some x => if decide (x.hold ≠ .shared) then c else
      let c := c.recall sec
      let r := sectorAt sec c
      setDir sec true (2 ^ (hart / 4)) (putCopy ⟨hart, sec, .exclusive, r.2.1, r.1⟩ r.2.2)
  | none =>
    let c := (c.rcount (hstBase hart) HST_L2_MISS 1).recall sec
    let r := sectorAt sec c
    setDir sec true (2 ^ (hart / 4)) (putCopy ⟨hart, sec, .exclusive, r.2.1, r.1⟩ r.2.2)

/-! ### A request of a host core -/

/-- The answer to a host core: status 0 served, 1 access fault, 2 a store-conditional that failed (log entry 42). -/
def hostAnswer (r : HostReq) (status : Nat) (data : List Byte) (c : Chip) : Chip := c.emit (.hostReply r.hart r.addr status data)

/-- A load meets poison (R500): the core takes an access fault, and the event is logged. -/
def hostPoison (r : HostReq) (c : Chip) : Chip :=
  let l := c.place (r.addr / 65536)
  hostAnswer r 1 [] (c.logEvent 0x0011 2 0x0D (r.hart / 36) (r.hart % 36) (r.addr / 64 * 64) (if l.region < 2 then 1 else 2))

/-- A load from a copy held (log entry 42). -/
def hostLoad (r : HostReq) (c : Chip) : Chip :=
  match copyOf c r.hart (r.addr / 64) with
  | none => c
  | some x => if x.poison then hostPoison r c else hostAnswer r 0 (sliceBytes x.data (r.addr % 64) r.size) c

/-- Bytes stored into a copy held exclusive, which becomes modified; a store of the whole sector clears its mark (R500). -/
def hostPut (r : HostReq) (bs : List Byte) (c : Chip) : Chip :=
  match copyOf c r.hart (r.addr / 64) with
  | none => c
  | some x => putCopy { x with hold := .modified, data := putBytes x.data (r.addr % 64) bs, poison := x.poison && bs.length != 64 } c

/-- An AMO at the home slice (R396, R406): the core gives up its own copy first. An access fault when the sector is poisoned. -/
def hostAmo (r : HostReq) (c : Chip) : Chip :=
  let x := atomAt r.addr r.aop .int32 (8 * r.size) r.operand r.compare (c.touch r.addr)
  match x.2.2.2 with
  | some _ => hostPoison r x.1
  | none => hostAnswer r 0 (leBytes r.size x.2.1) x.1

/-- Every modified copy of a sector is written to its home slice, and kept (cbo.clean, R398) (log entry 42). -/
def cleanSector (sec : Nat) (c : Chip) : Chip :=
  (c.host.copies.filter (fun x => x.sec == sec && decide (x.hold = .modified))).foldl (fun c x => putCopy { x with hold := .exclusive } (writeBack x c)) c

/-- Sizes of the AMOs and of CMPXCHG (R388, R406). -/
def amoSize (r : HostReq) : Bool :=
  r.addr % r.size == 0 && ((r.size == 1 || r.size == 2 || r.size == 4 || r.size == 8) || (r.size == 16 && r.aop == 6))

/-- A core that asks for memory is running (R410). -/
def hartRuns (hart : Nat) (c : Chip) : Chip := c.rput (hstBase hart) HST_STATUS_STATE 1

/-- HOST_CORE_MEMORY_REQUEST (R389 to R398, R500): requests for one sector are served in arrival order (R395) (log entry 42). -/
def hostCoreMemoryRequestStep (r : HostReq) (c : Chip) : Chip :=
  let sec := r.addr / 64
  if !hostOn r.hart c then c
  else
    let c := hartRuns r.hart c
    if !backed r.addr r.size then hostAnswer r 1 [] c
    else match r.kind with
    | .load => hostLoad r (gainShared r.hart sec c)
    | .own => hostLoad r (gainOwned r.hart sec c)
    | .store => hostAnswer r 0 [] (hostPut r (sliceBytes r.data 0 r.size) (gainOwned r.hart sec c))
    | .evict =>
      (match copyOf c r.hart sec with
        | some x => if x.hold = .modified then setDir sec false 0 (dropCopy r.hart sec (writeBack x c)) else dropCopy r.hart sec c
        | none => c)
    | .clean => hostAnswer r 0 [] (cleanSector sec c)
    | .flush => hostAnswer r 0 [] (c.recall sec)
    | .inval =>
      let d := c.draw
      let c := d.2
      hostAnswer r 0 [] (if d.1 % 2 = 0 then c.recall sec
        else (setDir sec false 0 { c with host := { c.host with copies := c.host.copies.filter (fun x => x.sec != sec), resv := c.host.resv.filter (fun x => x.2 != sec) } }))
    | .zero => hostAnswer r 0 [] (hostPut { r with addr := sec * 64 } (List.replicate 64 0) (gainOwned r.hart sec c))
    | .lr =>
      let c := gainOwned r.hart sec c
      let c : Chip := { c with host := { c.host with resv := c.host.resv.filter (fun x => x.1 != r.hart) ++ [(r.hart, sec)] } }
      hostLoad r c
    | .sc =>
      let ok := c.host.resv.contains (r.hart, sec) && (match copyOf c r.hart sec with
        | some x => decide (x.hold ≠ .shared)
        | none => false)
      let c' : Chip := { c with host := { c.host with resv := c.host.resv.filter (fun x => x.1 != r.hart) } }
      if ok then hostAnswer r 0 [] (hostPut r (sliceBytes r.data 0 r.size) c') else hostAnswer r 2 [] c'
    | .amo => if amoSize r then hostAmo r c else hostAnswer r 1 [] c
    | .ncLoad =>
      let x := sectorAt sec c
      if x.2.1 then hostPoison r x.2.2 else hostAnswer r 0 (sliceBytes x.1 (r.addr % 64) r.size) x.2.2
    | .ncStore =>
      let c := if c.memBad.contains sec && r.size != 64 then memUncorr (sec * 64) c else { c with memBad := c.memBad.filter (fun u => u != sec) }
      hostAnswer r 0 [] ((c.wrMem r.addr (sliceBytes r.data 0 r.size)).unpoisonRange r.addr r.size)

/-! ### Seedbed windows -/

/-- A host core's access to a Seedbed window faults (R265, R267). -/
def sbdFault (hart off : Nat) (c : Chip) : Chip :=
  (c.rput (SBD (off / 0x10000000 % 2)) SBD_ERR_HOST_FAULT 1).emit (.hostReply hart (0x100000000000 + off) 1 [])

/-- SEEDBED_WINDOW_ACCESS (R263 to R268, R519): a load, or a store of the value, at an offset from the first window. -/
def seedbedWindowAccessStep (hart off size : Nat) (wr : Option Nat) (c : Chip) : Chip :=
  let h := off / 0x10000000 % 2
  let o := off % 0x10000000
  if !c.up then
    (match wr with
      | some _ => accLog 0 off .other (.host hart) c
      | none => c.emit (.hostReply hart (0x100000000000 + off) 0 (List.replicate size 0)))
  else if !hostOn hart c then c
  else
    let c := hartRuns hart c
    if !(size == 1 || size == 2 || size == 4 || size == 8) || off % size != 0 || o ≥ sbdSize || off ≥ 0x20000000 then sbdFault hart off c
    else match wr with
    | some v => (c.wrSbd h o (leBytes size v)).emit (.hostReply hart (0x100000000000 + off) 0 [])
    | none =>
      match c.firstBadWord h o size with
      | some w => sbdFault hart off (parityRegs h w c)
      | none =>
        if c.sbdPoison.contains (sbdKey h o / 64) then sbdFault hart off c
        else c.emit (.hostReply hart (0x100000000000 + off) 0 (c.rdSbdBytes h o size))

/-! ### The complex as a whole -/

/-- Every hart with a core takes a STATE (R410). -/
def allHarts (st : Nat) (c : Chip) : Chip := (List.range 72).foldl (fun c n => if hartOut c n then c else c.rput (hstBase n) HST_STATUS_STATE st) c

/-- The host complex goes down (R400, R401): sectors owned by a core are poisoned, and the cores stop. -/
def hostDown (cause agent : Nat) (c : Chip) : Chip :=
  if c.rget CPLX HST_CPLX_STATUS_STATE ≠ 1 then c
  else
    let owned := (c.host.dir.filter (fun d => d.owned)).map (fun d => d.sec)
    let c := ((c.rput CPLX HST_CPLX_STATUS_STATE 2).rput CPLX HST_CPLX_STATUS_CAUSE cause).rsat CPLX HST_CPLX_STATUS_DOWNS 1
    let c := if cause = 1 then (c.rput CPLX HST_CPLX_STATUS_AGENT agent).rput (hstBase agent) HST_ERR_SNOOP_TIMEOUT 1 else c
    let c := if cause = 1 then awaitSpare ⟨.hostCore, agent / 36, agent % 36, physOf c .hostCore (agent / 36) (agent % 36)⟩ c else c
    let c := (allHarts 5 c).rcount CPLX HST_CPLX_POISONED owned.length
    let c : Chip := { c with poison := unionNat c.poison owned, memBad := c.memBad.filter (fun u => !owned.contains u),
                             host := { c.host with copies := [], resv := [] } }
    c.logEvent 0x0020 3 0x0D 0xFF 0 agent cause

/-- COHERENCE_TIMEOUT (R400): a hart has not answered a snoop or recall within 20 µs. -/
def coherenceTimeoutStep (hart : Nat) (c : Chip) : Chip := if hartOut c hart then c else hostDown 1 hart c

/-- Host cores marked or named by AGENT are put fallow during a reset of the complex (R402, R509) (log entry 41). -/
def replaceHosts (c : Chip) : Chip :=
  let l := c.hedge.repl.filter (fun p => decide (p.kind = .hostCore))
  let c : Chip := { c with hedge := { c.hedge with repl := c.hedge.repl.filter (fun p => decide (p.kind ≠ .hostCore)) } }
  l.foldl (fun c p => fallowPart p true true c) c

/-- DIRECTORY_SWEEP_END (R401, R402): the lead controller, when one runs, resets the complex. -/
def directorySweepEndStep (c : Chip) : Chip :=
  let s := c.rget CPLX HST_CPLX_STATUS_STATE
  if s < 2 then c
  else
    let c : Chip := { c with host := { c.host with dir := [] } }
    if leadUp c then
      let c : Chip := { c with host := { c.host with resetting := true } }
      replaceHosts (allHarts 0 (c.rput CPLX HST_CPLX_STATUS_STATE 0))
    else c.rput CPLX HST_CPLX_STATUS_STATE 3

/-- The host cores start at HST_CPLX_BOOT (R402, R517). -/
def hostsStart (c : Chip) : Chip := allHarts 1 (c.rput CPLX HST_CPLX_STATUS_STATE 1)

/-- HOST_COMPLEX_RESET_END (R402): 1 ms of reset is over; a RESET_FUNCTION that asked for it ends. -/
def hostComplexResetEndStep (c : Chip) : Chip :=
  if !c.host.resetting then c
  else endWaits .hostReset (hostsStart { c with host := { c.host with resetting := false } })

/-- MGT_HOST_RELEASE (R516, R536): a complex held by STRAP_HOST_HOLD is released; before READY the write is ignored. -/
def mgtHostReleaseStep (_p : Path) (c : Chip) : Chip :=
  if c.up && c.rget START MGT_STRAP_HOST_HOLD == 1 && c.rget CPLX HST_CPLX_STATUS_STATE == 0 && !c.host.resetting then hostsStart c else c

/-- HOST_CORE_GATE_IDLE (R410, R476): a core in WFI writes back its dirty lines and gates its caches. -/
def hostCoreGateIdleStep (hart : Nat) (c : Chip) : Chip :=
  if !hostOn hart c || c.rget (hstBase hart) HST_CTL_GATE_IDLE == 0 then c
  else
    let c := (c.host.copies.filter (fun x => x.hart == hart)).foldl (fun c x =>
      if x.hold = .modified then setDir x.sec false 0 (dropCopy hart x.sec (writeBack x c)) else dropCopy hart x.sec c) c
    c.rput (hstBase hart) HST_STATUS_STATE 3

/-- STREAM_TIMEOUT (R405): 1 µs without a write ends a stream (log entry 43). -/
def streamTimeoutStep (h slice stream : Nat) (c : Chip) : Chip :=
  { c with host := { c.host with streams := c.host.streams.filter (fun x => !(x.1 == h * 16 + slice && x.2.1 == stream)) } }

end Sys2Proof.Machine
end

