-- ==== Sys2Proof/Machine/Reset.lean ====
section
/-! DEFINITION. Module reset (R505, R546), the rails (R472, R473, R494) and what the order of the inputs asks (R558, R559). -/

namespace Sys2Proof.Machine

open Sys2Proof

/-! ### What a module reset leaves -/

/-- Offsets of the hedgerow blocks: power, management, start-up and management network (R537). -/
def hedgeOff (o : Nat) : Bool := 0x10000 ≤ o && o < 0x14000

/-- A management command that runs in the controllers alone, and goes on through a module reset (log entry 9). -/
def outlives (m : Cmd) : Bool :=
  m.queue?.isNone && m.cls == 0xF && (match m.wait with
    | .nothing => true
    | .activation u => u == 0
    | _ => false)

/-- Commands on management paths that a module reset ends: they are aborted as by the reset of a function (R84) (log entry 9). -/
def endPathCmds (c : Chip) : Chip :=
  (c.cmds.filter (fun m => m.queue?.isNone && !outlives m)).foldl (fun c m => retireOne m (abortRes m 5) c) c

/-- A start of an optical engine, which waits on through a module reset (log entry 13). -/
def opticsStart (w : Start × Nat) : Bool :=
  match w.1 with
  | .optics _ => true
  | _ => false

/-- The governor after a module reset: no work, no ballast (log entries 10, 39). -/
def resetGov (g : GovSt) : GovSt := { g with bal := 0, freed := 0, waiting := g.waiting.filter opticsStart, caps := [false, false], wakeFloor := false }

/-- The hedgerow domains' own state after a module reset: start-up and tests end; host cores still to be replaced are fallow (R509). -/
def resetHedge (h : HedgeSt) : HedgeSt :=
  { h with trained := [], filled := [], slice := none, repl := [],
           nvParts := h.nvParts ++ (h.repl.filter (fun p => decide (p.kind = .hostCore) && !h.nvParts.contains p)),
           act := h.act.filter (fun a => a.unit == 0) }

/-- The parts of the non-volatile record on the memory devices (R277, R282, R283): marks and devices out of service (log entry 10). -/
def applyMarks (c : Chip) : Chip :=
  let c := c.srv.devOut.foldl (fun c k => devPut k INF_STATUS_STATE OUT_STATUS_STATE 6 c) c
  c.srv.marks.foldl (fun c m =>
    let k := m.1 / 64
    if dkInf k then c.rput (pathBlock m.1) INF_STATUS_MARKS ((c.srv.marks.filter (fun x => x.1 / 64 == k)).length)
    else (c.rput (pathBlock m.1) OUT_STATUS_MARKED 1).rput (pathBlock m.1) OUT_STATUS_MARK_POS m.2) c

/-- Registers outside the hedgerow blocks that show the straps, the Stile and the optics (R414, R436, R439). -/
def shownAgain (stile : Nat) (c : Chip) : Chip :=
  let c := c.setReg (AIH + AIH_STILE_JOINED.off) (BitVec.ofNat 64 stile)
  let c := (c.rput (PCX 0) PCX_STATUS_ROLE (c.rget START MGT_STRAP_PCX0_ROLE)).rput (PCX 1) PCX_STATUS_ROLE (c.rget START MGT_STRAP_PCX1_ROLE)
  (List.range 9).foldl (fun c p => c.rput (AIHP p) AIH_PORT_STATUS_OPTICS_ON (b2n (opticsOn c p))) c

/-- PERST# of the root ports is asserted while their function is held in module reset (R562). -/
def perstAll (c : Chip) : Chip := [0, 1].foldl (fun c p => if c.rget (PCX p) PCX_STATUS_ROLE = 0 then c.emit (.perst p) else c) c

/-- A module reset (R505): everything outside the hedgerow domains takes its reset state; the commit locks are cleared (R546), and the
non-volatile record is applied again (log entries 9, 10). -/
def moduleReset (c : Chip) : Chip :=
  let c := endPathCmds c
  let stile := (c.reg (AIH + AIH_STILE_JOINED.off)).toNat
  let d : Chip := { regs := c.regs.filter (fun e => hedgeOff e.1), time := c.time, freeCtr := c.freeCtr, log := c.log, outs := c.outs,
                    cmds := c.cmds.filter (fun m => m.queue?.isNone), gord := c.gord, paths := c.paths, gov := resetGov c.gov,
                    hedge := resetHedge c.hedge,
                    srv := { fallow := c.srv.fallow, devOut := c.srv.devOut, marks := c.srv.marks },
                    fab := { frac := c.fab.frac, digestPrev := c.fab.digestPrev, withdrawn := c.fab.withdrawn } }
  let d := ((d.rput PWR PWR_CTL_LOCK 0).rput MGT MGT_CTL_LOCK 0).rput PWR PWR_STATUS_THERMAL_CAP 0
  let d := (d.rput START MGT_START_STOPPED 0).rput START MGT_START_STOP_PHASE 0
  let d := d.rput START MGT_ST_STATUS_ACTIVE 0
  stileCheck (perstAll (shownAgain stile (applyMarks (applyRecord d))))

/-! ### The rails -/

/-- PHASE of start-up (R517). -/
def phase (c : Chip) : Nat := c.rget START MGT_START_PHASE

/-- Start-up enters a phase. -/
def setPhase (n : Nat) (c : Chip) : Chip := c.rput START MGT_START_PHASE n

/-- Start-up has stopped (R520). -/
def stopped (c : Chip) : Bool := c.rget START MGT_START_STOPPED == 1

/-- Every optical engine loses its supply. -/
def opticsDown (c : Chip) : Chip := (List.range 9).foldl (fun c p => setOptics p false (unwaitStart (.optics p) c)) c

/-- The rails above a step come down, in reverse order (R473): the optics first, and with them the module is reset. -/
def railsFall (floor : Nat) (c : Chip) : Chip :=
  let c := setPhase 0 (moduleReset (opticsDown c))
  let h := c.hedge
  if h.step ≤ floor && !h.rising then { c with hedge := { h with rising := false, floor := floor } }
  else { c with hedge := { h with rising := false, falling := true, floor := floor, step := min h.step 8 } }

/-- Phase FUSES may start (R517, R562): rail 8 is good, the lead controller is up and MOD_RESET_N is high. -/
def tryFuses (c : Chip) : Chip :=
  if phase c == 1 && c.hedge.step ≥ 8 && !c.hedge.falling && leadUp c && c.hedge.resetHigh then setPhase 2 c else c

/-- RAIL_STEP_GOOD (R472): every rail of the step that ramps is good; step 9 supplies the optics of each port whose ON bit is set. -/
def railStepGoodStep (c : Chip) : Chip :=
  let h := c.hedge
  if !h.rising || h.step ≥ 9 then c
  else
    let c : Chip := { c with hedge := { h with step := h.step + 1, rising := h.step + 1 < 9 } }
    if h.step + 1 = 9 then
      (List.range 9).foldl (fun c p =>
        if bitAt (c.rget PWR PWR_OPTICS_CTL_ON) p && !bitAt (c.rget PWR PWR_OPTICS_STATUS_FAULT) p then setOptics p true c else c) c
    else tryFuses c

/-- RAIL_STEP_DOWN (R473): every rail of the step that falls is below 10 % of its set-point. -/
def railStepDownStep (c : Chip) : Chip :=
  let h := c.hedge
  if !h.falling then c
  else { c with hedge := { h with step := max h.floor (h.step - 1), falling := h.step - 1 > h.floor } }

/-- A sequence fault or a rail fault (R473): the rails come down, and the rail and the cause are recorded. -/
def railTrouble (rail mv : Nat) (c : Chip) : Chip :=
  if !c.hedge.standby || (c.hedge.step ≤ 1 && !c.hedge.rising) then c
  else railsFall 1 ((c.logEvent 0x0040 4 0x12 0xFF 0 rail mv).rput PWR PWR_ERR_RAIL_FAULT 1)

/-- SEQUENCE_FAULT (R472): a rail is not good 5 ms after it has started. -/
def sequenceFaultStep (rail mv : Nat) (c : Chip) : Chip := if c.hedge.rising then railTrouble rail mv c else c
/-- RAIL_FAULT (R473): a rail in service leaves ±5 % of its set-point, or a regulator reports over-current. -/
def railFaultStep (rail mv : Nat) (c : Chip) : Chip := railTrouble rail mv c

/-- ALERT_N asserted whatever ALERT_SEV says (R473, R559). -/
def alertNow (c : Chip) : Chip := (c.rput MGT MGT_ALERT_PENDING 1).rput MGT MGT_STATUS_ALERT 1

/-- MAIN_INPUT_FAULT (R559): 50 V below 38.0 V or above 61.0 V for more than 100 µs in service. -/
def mainInputFaultStep (mv : Nat) (c : Chip) : Chip :=
  if !c.hedge.standby || (c.hedge.step ≤ 1 && !c.hedge.rising) || c.hedge.falling then c
  else railsFall 1 (alertNow (c.logEvent 0x0045 3 0x12 0xFF 0 mv 1))

/-- A trip (R494): a junction sensor, numbered 0 to 63, at 118 °C, or a memory device, at 64 and its number, at 105 °C (log entry 11). -/
def tripAt (sensor reading : Nat) : Bool := if sensor < 64 then reading ≥ 118 else reading ≥ 105

/-- THERMAL_TRIP (R494): rails 9 to 3 are removed, THERMTRIP_N is asserted and the sensor is logged (log entry 11). -/
def thermalTripStep (sensor reading : Nat) (c : Chip) : Chip :=
  if !c.hedge.standby || c.hedge.trip || !tripAt sensor reading then c
  else
    let c := c.logEvent 0x0041 4 0x12 0xFF 0 sensor reading
    railsFall (min 2 c.hedge.step) { c with hedge := { c.hedge with trip := true, lock := true, tripped := true } }

/-! ### PWR_EN and standby -/

/-- The sensors are cool enough for the trip lockout to end (R494). -/
def cool (c : Chip) : Bool :=
  c.rget PWR PWR_TEMP_TJ_EAST < 90 && c.rget PWR PWR_TEMP_TJ_WEST < 90 && c.hedge.memT.all (fun x => x.2 < 80)

/-- Refusals that the sequencer has latched are logged by the lead controller when it runs (R559). -/
def logRefusals (c : Chip) : Chip :=
  if !leadUp c then c
  else c.hedge.refused.foldl (fun c r => c.logEvent 0x0044 1 0x12 0xFF 0 r.2 r.1) { c with hedge := { c.hedge with refused := [] } }

/-- A rising edge of PWR_EN is refused (R559) (log entry 13). -/
def refuse (v mv : Nat) (c : Chip) : Chip :=
  logRefusals { c with hedge := { c.hedge with refused := c.hedge.refused ++ [(v, mv)], told := true } }

/-- The rising edge ends the hold of ALERT_N by events of severity 4 (R502). -/
def endHold4 (c : Chip) : Chip :=
  if c.log.hold4 then ({ c with log := { c.log with hold4 := false } }.rput MGT MGT_ALERT_PENDING 0).rput MGT MGT_STATUS_ALERT 0 else c

/-- The rails start from rest (R472, R517). -/
def railsStart (c : Chip) : Chip :=
  setPhase 1 { c with hedge := { c.hedge with lock := false, rising := true, falling := false, started := c.time, step := 1 } }

/-- PWR_EN_RISE (R472, R494, R558, R559): the rails start, or the edge is refused; mv is the 50 V input (log entry 13). -/
def pwrEnRiseStep (mv : Nat) (c : Chip) : Chip :=
  if c.hedge.pwrEn then c
  else
    let c : Chip := { c with hedge := { c.hedge with pwrEn := true } }
    if !c.hedge.standby then c
    else
      let c := endHold4 c
      if !c.hedge.good then refuse 1 mv c
      else if mv < 40000 || mv > 59000 then refuse 2 mv c
      else if c.hedge.lock && !cool c then refuse 3 mv c
      else if c.hedge.falling then refuse 4 mv c
      else railsStart c

/-- PWR_EN_FALL (R473, R494): the rails come down, and THERMTRIP_N is released. -/
def pwrEnFallStep (c : Chip) : Chip :=
  let c : Chip := { c with hedge := { c.hedge with pwrEn := false, told := false, trip := false } }
  if !c.hedge.standby || (c.hedge.step ≤ 1 && !c.hedge.rising) then c else railsFall 1 c

/-- STANDBY_GOOD_FOR_10_MS (R559): a PWR_EN that is already high is refused. -/
def standbyGoodFor10MsStep (mv : Nat) (c : Chip) : Chip :=
  if !c.hedge.standby || c.hedge.good then c
  else
    let c : Chip := { c with hedge := { c.hedge with good := true } }
    if c.hedge.pwrEn && !c.hedge.told then refuse 1 mv c else c

/-- STANDBY_APPLIED (R472, R474, R516, R517): rail 1 comes up and both controllers boot the recorded slot of unit 0, or with STRAP_FW_ALT
the other one once (log entry 15). -/
def standbyAppliedStep (c : Chip) : Chip :=
  if c.hedge.standby then c
  else
    let alt := c.rget START MGT_STRAP_FW_ALT == 1 && slotOk c 0 (1 - c.hedge.fwRec)
    let c := c.rput MGT MGT_FW_MC_RUN (if alt then 1 - c.hedge.fwRec else c.hedge.fwRec)
    stileCheck { c with hedge := { c.hedge with standby := true, step := 1, booting := [true, true], mcs := [false, false] },
                        fab := { c.fab with withdrawn := false } }

/-- The levels of the input pins, which no reset changes: the offsets of the registers that show them, with their bits (log entry 15). -/
def pinBits : List (Nat × Fld) := [(AIH, AIH_STILE_JOINED), (AIH, AIH_STILE_MOVING), (AIH, AIH_STILE_REQ_PIN), (PWR, PWR_STATUS_WAKE), (PWR, PWR_STATUS_GRID_HINT)]

/-- What the hedgerow domains keep without standby (R474, R501, R505): the non-volatile record, the firmware slots, the levels of pins (log entry 15). -/
def standbyGone (c : Chip) : Chip :=
  let h := c.hedge
  let pins := pinBits.map (fun x => (x, c.rget x.1 x.2))
  let fw := c.reg (MGT + MGT_FW_MC_RUN.off)
  let d : Chip := { freeCtr := c.freeCtr, outs := c.outs, log := { nv := c.log.nv },
                    srv := { fallow := c.srv.fallow, devOut := c.srv.devOut, marks := c.srv.marks },
                    fab := { digestPrev := c.fab.digestPrev, withdrawn := c.fab.withdrawn },
                    hedge := { resetHigh := h.resetHigh, pwrEn := h.pwrEn, nvParts := (resetHedge h).nvParts, fw := h.fw, svn := h.svn, fwRec := h.fwRec } }
  let d := d.setReg (MGT + MGT_FW_MC_RUN.off) fw
  let d := d.rput MGT MGT_FW_ACTIVE 0
  let d := pins.foldl (fun d x => d.rput x.1.1 x.1.2 x.2) d
  stileCheck (applyMarks (applyRecord (d.rput MGT MGT_FW_ACTIVE_UNIT 0)))

/-- STANDBY_LOST (R559): with rails up, these come down and the event is kept in the non-volatile record; mv is the standby input. -/
def standbyLostStep (mv : Nat) (c : Chip) : Chip :=
  if !c.hedge.standby then c
  else standbyGone (if c.hedge.step > 1 || c.hedge.rising then c.logEvent 0x0045 3 0x12 0xFF 0 mv 2 else c)

/-! ### MOD_RESET_N -/

/-- MOD_RESET_ASSERT (R505, R562): low holds a module reset with the rails kept up. -/
def modResetAssertStep (c : Chip) : Chip :=
  if !c.hedge.resetHigh then c
  else
    let c : Chip := { c with hedge := { c.hedge with resetHigh := false } }
    if !c.hedge.standby then stileCheck c
    else setPhase (if c.hedge.falling || (c.hedge.step ≤ 1 && !c.hedge.rising) || c.hedge.trip then 0 else 1) (moduleReset c)

/-- MOD_RESET_RELEASE (R516, R562): the straps, laid out as MGT_STRAP, latch, and start-up runs from FUSES (log entry 13). -/
def modResetReleaseStep (straps : Nat) (c : Chip) : Chip :=
  if c.hedge.resetHigh then c
  else
    let c : Chip := { c with hedge := { c.hedge with resetHigh := true } }
    let c := c.setReg (START + MGT_STRAP_PCX0_ROLE.off) (BitVec.ofNat 64 (straps % 256))
    let c := (c.rput (PCX 0) PCX_STATUS_ROLE (c.rget START MGT_STRAP_PCX0_ROLE)).rput (PCX 1) PCX_STATUS_ROLE (c.rget START MGT_STRAP_PCX1_ROLE)
    tryFuses (stileCheck c)

end Sys2Proof.Machine
end

