-- ==== Sys2Proof/Machine/Start.lean ====
section
/-! DEFINITION. Start-up from FUSES to READY (R517 to R520), the two management controllers (R474, R475, R508, R535) and the hand-over of
unit 0 (R513, R514). -/

namespace Sys2Proof.Machine

open Sys2Proof

/-! ### Start-up -/

/-- Start-up stops (R520): the rails stay up and the engines stay in reset. -/
def stopStart (c : Chip) : Chip := (c.rput START MGT_START_STOP_PHASE (phase c)).rput START MGT_START_STOPPED 1

/-- A unit's image is loaded (R535): the other slot when the running one holds none that is verified; with neither, false (log entry 12). -/
def loadUnit (u : Nat) (c : Chip) : Bool × Chip :=
  let r := c.rget MGT (runFld u)
  if slotOk c u r then (true, c)
  else if slotOk c u (1 - r) then (true, (c.rput MGT (runFld u) (1 - r)).logEvent 0x0050 3 0x11 0xFF 0 (c.rget PWR PWR_MGR_LEAD) 2)
  else (false, c.logEvent 0x0001 3 0x11 0xFF u u 0)

/-- FUSES_DONE (R517, R535): the units' images are loaded, or start-up stops (log entry 12). -/
def fusesDoneStep (c : Chip) : Chip :=
  if phase c ≠ 2 || stopped c then c
  else
    let a := loadUnit 1 c
    let b := loadUnit 2 a.2
    if a.1 && b.1 then setPhase 3 b.2 else stopStart b.2

/-- A part that failed a start-up test is put fallow; a second bank group of a half has no spare (R266, R520). -/
def bistPart (p : Part) (c : Chip) : Chip :=
  if p.kind = .bankGroup && c.rget (SBD p.half) SBD_MAP_SPARE_IN_USE == 1 && c.rget (SBD p.half) SBD_MAP_SPARED_GROUP != p.inst then noSpare p 15 c
  else fallowPart p true true c

/-- Failures that stop start-up (R520), before the parts are put fallow. -/
def bistStops (l : List Part) (c : Chip) : Bool :=
  l.any (fun p => decide (p.kind = .slice) || decide (p.kind = .yoke) || decide (p.kind = .surveyor) || decide (p.kind = .xlate) || decide (p.kind = .dispatch) ||
    (decide (p.kind = .bankGroup) &&
      ((c.rget (SBD p.half) SBD_MAP_SPARE_IN_USE == 1 && c.rget (SBD p.half) SBD_MAP_SPARED_GROUP != p.inst) ||
        l.any (fun q => decide (q.kind = .bankGroup) && q.half == p.half && q.inst != p.inst))))

/-- A test phase ends: failed parts are put fallow, and the next phase starts unless start-up stops. -/
def bistDone (l : List Part) (next : Nat) (c : Chip) : Chip :=
  let stop := bistStops l c
  let c := l.foldl (fun c p => bistPart p c) c
  if stop || balkLost c > 0 then stopStart c else setPhase next c

/-- LOGIC_BIST_DONE (R517, R520): every engine and the Balk link have been tested. -/
def logicBistDoneStep (failed : List Part) (c : Chip) : Chip :=
  if phase c ≠ 3 || stopped c then c
  else
    let c := [0, 1].foldl (fun c h => c.rput (BLK h) BLK_STATUS_ACTIVE (20 - balkLost c)) c
    bistDone failed 4 c

/-- SRAM_BIST_DONE (R247, R517): the Seedbed is clear, and the devices start to train. -/
def sramBistDoneStep (failed : List Part) (c : Chip) : Chip :=
  if phase c ≠ 4 || stopped c then c
  else
    let c := bistDone failed 5 { c with sbd := [], sbdBad := [], sbdSlip := [], sbdPoison := [] }
    if stopped c then c
    else allDevs.foldl (fun c k => if c.srv.devOut.contains k then c else devPut k INF_STATUS_STATE OUT_STATUS_STATE 1 c) c

/-- Frames that R319 puts into fallow slots lie in spare slots instead (R282, R319) (log entry 10). -/
def placeFallow (c : Chip) : Chip :=
  c.srv.fallow.foldl (fun c l =>
    match defFrame l with
    | none => c
    | some f =>
      let r := retireDst f c
      match r.1 with
      | some d => { r.2 with plot := kset plotDef r.2.plot f d }
      | none => r.2) c

/-- The host boot loader that unit 0's running image carries is copied into frame 0 (R516); the manual gives neither its place in the
image nor its length (log entry 12). -/
def copyLoader (c : Chip) : Chip :=
  let a := c.draw
  let b := a.2.draw
  let c := b.2
  let slot := c.rget MGT MGT_FW_MC_RUN
  c.wrMem 0 ((List.range (a.1 % 65537)).map (fun i => fwByte c slot (256 + b.1 % 8388352 + i)))

/-- READY (R517, R518): engines accept commands, and the host complex starts unless STRAP_HOST_HOLD is high. -/
def goReady (c : Chip) : Chip :=
  let c := placeFallow c
  let hold := c.rget START MGT_STRAP_HOST_HOLD == 1
  let c := if hold then c else copyLoader c
  let c := setPhase 7 c
  let c := c.rput START MGT_START_MS_MS ((c.time - c.hedge.started) / 1000000)
  let c := c.rput START MGT_START_FULL (b2n (c.hedge.full || c.rget START MGT_STRAP_FULL_TEST == 1))
  let c := if c.hedge.tripped then c.rput PWR PWR_ERR_THERMAL_TRIP 1 else c
  let c : Chip := { c with hedge := { c.hedge with full := false, tripped := false } }
  let c := [0, 1].foldl (fun c h => (c.rput (HALF h) MOD_HALF_STATUS_READY 1).rput (SBD h) SBD_STATUS_INIT_DONE 1) (c.rput MOD MOD_STATUS_READY 1)
  let c := (List.range 9).foldl (fun c p => portTry p c) c
  if hold then c else hostsStart c

/-- Training and filling end when every device in service has ended them (R517). -/
def devicesCheck (c : Chip) : Chip :=
  let ks := allDevs.filter (fun k => !c.srv.devOut.contains k)
  let c := if phase c == 5 && !stopped c && ks.all (fun k => c.hedge.trained.contains k) then setPhase 6 c else c
  if phase c == 6 && !stopped c && ks.all (fun k => c.hedge.filled.contains k) then goReady c else c

/-- DEVICE_TRAINED (R517, R521): a device has been trained at its temperature, and starts to fill. -/
def deviceTrainedStep (d : MemDev) (c : Chip) : Chip :=
  let k := devKey d
  if phase c ≠ 5 || stopped c || c.srv.devOut.contains k || c.hedge.trained.contains k then c
  else
    let t := ((c.hedge.memT.find? (fun x => x.1 == k)).map (fun x => x.2)).getD 0
    devicesCheck (setTrain ⟨k, t, false⟩ { c with hedge := { c.hedge with trained := insertNat k c.hedge.trained } })

/-- DEVICE_FILLED (R517): a device's slots hold zeros, and it is in service. -/
def deviceFilledStep (d : MemDev) (c : Chip) : Chip :=
  let k := devKey d
  if (phase c ≠ 5 && phase c != 6) || stopped c || c.srv.devOut.contains k || !c.hedge.trained.contains k || c.hedge.filled.contains k then c
  else devicesCheck (devPut k INF_STATUS_STATE OUT_STATUS_STATE 2 { c with hedge := { c.hedge with filled := insertNat k c.hedge.filled } })

/-! ### The management controllers -/

/-- A controller runs. -/
def mcUp (c : Chip) (h : Nat) : Bool := nth c.hedge.mcs h false

/-- A controller is up. -/
def mcStart (h : Nat) (c : Chip) : Chip :=
  { c with hedge := { c.hedge with mcs := setNth c.hedge.mcs h true, booting := setNth c.hedge.booting h false } }

/-- Requests that executed on the management paths get no reply; the outcomes of those that had finished stay known (R475) (log entry 14). -/
def dropPaths (keep : Bool) (c : Chip) : Chip :=
  let f := fun (x : PathSt) =>
    let w := if keep then x.window.filter (fun s => s.res.isSome) else []
    { x with busy := false, senders := [], window := w, last := (w.getLast?).map (fun s => s.seq), reply := if keep then x.reply else [] }
  { c with cmds := c.cmds.filter (fun m => m.queue?.isSome), paths := c.paths.map (fun e => (e.1, f e.2)) }

/-- A controller claims the outputs in their present states (R508) (log entry 14). -/
def claimOutputs (c : Chip) : Chip :=
  let o := c.rget MGT MGT_STATUS_OUTPUTS
  if o = 0 then c
  else
    let c := if o = 2 then c.logEvent 0x0052 3 0x11 0xFF 0 0 ((c.time - c.hedge.heldAt) / 1000000) else c
    stileCheck (c.rput MGT MGT_STATUS_OUTPUTS 0)

/-- The follower becomes lead (R475) (log entry 14). -/
def leadTo (h : Nat) (c : Chip) : Chip :=
  let c := ((c.rput PWR PWR_MGR_LEAD h).rsat PWR PWR_MGR_TAKEOVERS 1).rput PWR PWR_ERR_TAKEOVER 1
  let c := (dropPaths true c).logEvent 0x0051 2 0x11 0xFF 0 h 0
  claimOutputs { c with hedge := { c.hedge with beat := c.time } }

/-- MANAGEMENT_CONTROLLER_BOOT (R517, R559): a controller boots after standby has appeared; the lead logs latched refusals. -/
def managementControllerBootStep (h : Nat) (c : Chip) : Chip :=
  if !c.hedge.standby || !nth c.hedge.booting h false || mcUp c h then c
  else
    let c := mcStart h c
    if c.rget PWR PWR_MGR_LEAD = h then tryFuses (logRefusals { c with hedge := { c.hedge with beat := c.time } }) else c

/-- A controller resets (R508): it boots again, and with the lead the outputs are held and its requests lost; without a follower, their
outcomes too. -/
def mcReset (h cause : Nat) (c : Chip) : Chip :=
  if !c.hedge.standby || !mcUp c h then c
  else
    let c : Chip := { c with hedge := { c.hedge with mcs := setNth c.hedge.mcs h false, booting := setNth c.hedge.booting h true } }
    let c := (c.rcount MGT MGT_MC_RESETS 1).logEvent 0x0050 3 0x11 h 0 h cause
    if c.rget PWR PWR_MGR_LEAD ≠ h then c
    else
      let c := dropPaths (mcUp c (1 - h)) c
      if c.rget MGT MGT_STATUS_OUTPUTS = 0 then { c with hedge := { c.hedge with heldAt := c.time } }.rput MGT MGT_STATUS_OUTPUTS 1 else c

/-- MC_WATCHDOG_EXPIRY (R508, R515). -/
def mcWatchdogExpiryStep (h : Nat) (c : Chip) : Chip := mcReset h 1 c
/-- MANAGEMENT_CONTROLLER_RESET (R508): by a firmware fault (cause 2) or through JTAG (3). -/
def managementControllerResetStep (h cause : Nat) (c : Chip) : Chip := mcReset h cause c

/-- HEARTBEAT (R475). -/
def heartbeatStep (c : Chip) : Chip := if leadUp c then { c with hedge := { c.hedge with beat := c.time } } else c

/-- TAKEOVER (R475): the follower has missed five heartbeats of 100 µs (log entries 7, 14). -/
def takeoverStep (c : Chip) : Chip :=
  let l := c.rget PWR PWR_MGR_LEAD
  if c.hedge.standby && mcUp c (1 - l) && (!mcUp c l || c.hedge.beat + 500000 ≤ c.time) then tryFuses (logRefusals (leadTo (1 - l) c)) else c

/-- OUTPUTS_SAFE_DEFAULTS (R508): after 2 s every optical engine whose switch has not latched is on, and the Stile joins (log entry 14). -/
def outputsSafeDefaultsStep (c : Chip) : Chip :=
  if c.rget MGT MGT_STATUS_OUTPUTS ≠ 1 then c
  else
    let c := c.rput MGT MGT_STATUS_OUTPUTS 2
    let c := if c.hedge.step = 9 then (List.range 9).foldl (fun c p =>
        if bitAt (c.rget PWR PWR_OPTICS_STATUS_FAULT) p || opticsOn c p then c else portTry p (setOptics p true c)) c
      else c
    stileCheck c

/-! ### Activations -/

/-- The command of an activation ends. -/
def endAct (a : Activation) (r : Res) (c : Chip) : Chip :=
  match c.findCmd a.car a.seq with
  | some m => if m.wait = .activation a.unit then finish m r c else c
  | none => c

/-- SVN of the image in a slot (R531). -/
def svnOf (c : Chip) (u i : Nat) : Nat := fwLe c (2 * u + i) 12 4

/-- No activation is in progress. -/
def clearAct (c : Chip) : Chip := ({ c with hedge := { c.hedge with act := none } }.rput MGT MGT_FW_ACTIVE 0).rput MGT MGT_FW_ACTIVE_UNIT 0

/-- An activation completes (R513, R532): the image runs, and the unit's SVN floor rises to its. -/
def actDone (a : Activation) (c : Chip) : Chip :=
  let c := c.rput MGT (runFld a.unit) a.image
  let c : Chip := { c with hedge := { c.hedge with svn := setNth c.hedge.svn a.unit (max (nth c.hedge.svn a.unit 0) (svnOf c a.unit a.image)),
                                                   fwRec := if a.unit = 0 then a.image else c.hedge.fwRec } }
  endAct a doneRes ((clearAct c).logEvent 0x0053 0 0x11 0xFF 0 a.unit a.image)

/-- A controller restarts for an activation of unit 0 (R508, R513); a lead hands the outputs to the other first. -/
def actRestart (h : Nat) (c : Chip) : Chip :=
  let c := if c.rget PWR PWR_MGR_LEAD = h && mcUp c (1 - h) then leadTo (1 - h) c else c
  mcReset h 4 c

/-- An activation of unit 0 goes on as controller h comes up (R513, R514) (log entry 22). -/
def actNext (h : Nat) (c : Chip) : Chip :=
  match c.hedge.act with
  | none => c
  | some a =>
    let o := 1 - h
    if a.unit ≠ 0 then c
    else if a.back then
      if bitAt a.done o then actRestart o { c with hedge := { c.hedge with act := some { a with done := 0, now := o } } } else clearAct c
    else if a.now = h then
      let a := { a with done := a.done ||| 2 ^ h }
      if bitAt a.done o then actDone a c
      else if mcUp c o then actRestart o { c with hedge := { c.hedge with act := some { a with now := o } } }
      else { c with hedge := { c.hedge with act := some a } }
    else if bitAt a.done o && !bitAt a.done h then actRestart h { c with hedge := { c.hedge with act := some { a with now := h } } }
    else c

/-- MC_RESTART_DONE (R475, R508): a controller comes up, as follower, or as the lead it still is, which claims the outputs (log entries 14, 22). -/
def mcRestartDoneStep (h : Nat) (c : Chip) : Chip :=
  if !c.hedge.standby || !nth c.hedge.booting h false || mcUp c h then c
  else
    let c := mcStart h c
    let c := if c.rget PWR PWR_MGR_LEAD = h then tryFuses (logRefusals (claimOutputs { c with hedge := { c.hedge with beat := c.time } })) else c
    actNext h c

/-- MC_BOOT_FALLBACK (R535): the other slot, if it is verified, is booted and recorded as running (log entry 12). -/
def mcBootFallbackStep (h : Nat) (c : Chip) : Chip :=
  let i := 1 - c.rget MGT MGT_FW_MC_RUN
  if !c.hedge.standby || !nth c.hedge.booting h false || mcUp c h || !slotOk c 0 i then c
  else
    let c := (c.rput MGT MGT_FW_MC_RUN i).rcount MGT MGT_MC_RESETS 1
    { c with hedge := { c.hedge with fwRec := i } }.logEvent 0x0050 3 0x11 h 0 h 2

/-- FW_ACTIVATION_FAIL (R514): a unit has not started on the new image within 1 s, and returns to its previous one; controllers that had
switched go back once the other is up (log entry 22). -/
def fwActivationFailStep (c : Chip) : Chip :=
  match c.hedge.act with
  | none => c
  | some a =>
    if a.back then c
    else
      let c := endAct a (mkRes sRetryEx []) (c.logEvent 0x0054 3 0x11 0xFF 0 a.unit a.image)
      if a.unit = 0 then { c with hedge := { c.hedge with act := some { a with back := true } } } else clearAct c

end Sys2Proof.Machine
end

