-- ==== Sys2Proof/Machine/RegRead.lean ====
section
/-! DEFINITION. What a read of register space returns (R6, R519, R537 to R541, and each chapter's register tables): the value held, with
the fields that show the state of the module at the moment of the read. -/

namespace Sys2Proof.Machine

open Sys2Proof

/-- A register's value with some of its fields replaced (log entry 44). -/
def seen (l : List (Fld × Nat)) (v : Nat) : Nat := l.foldl (fun v x => setBits v x.1.lo x.1.w x.2) v

/-! ### The fields that show the state -/

/-- Global control (R58, R361). -/
def viewMod (c : Chip) (o : Nat) : List (Fld × Nat) :=
  if o = MOD_INFLIGHT_COUNT.off then [(MOD_INFLIGHT_COUNT, c.inflight)]
  else if o = MOD_FAULT_STATUS_PENDING.off then
    [(MOD_FAULT_STATUS_PENDING, c.pendingFaults.length), (MOD_FAULT_STATUS_TABLE_FULL, b2n c.xlt.tableFull),
     (MOD_FAULT_STATUS_RING_WAIT, b2n (c.pendingFaults.any (fun f => !f.written) && frHeld c ≥ frEntries c))]
  else []

/-- The power block (R497): measured fields read 0 while only the hedgerow domains are powered. -/
def viewPwr (c : Chip) (o : Nat) : List (Fld × Nat) :=
  if o = PWR_STATUS_WAIT.off then [(PWR_STATUS_FIXED_FREQ, c.rget PWR PWR_LIMIT_CUR_FIXED_FREQ), (PWR_STATUS_WAIT, b2n (!c.gov.waiting.isEmpty))]
  else if o = PWR_GRANT_WAITING.off then [(PWR_GRANT_WAITING, min 0xFFFF (sumNat (c.gov.waiting.map (fun w => w.2)) / 12800))]
  else if o = PWR_TEMP_TJ_EAST.off && c.hedge.step ≤ 1 then [(PWR_TEMP_TJ_EAST, 0), (PWR_TEMP_TJ_WEST, 0)]
  else if o = PWR_MGR_FOLLOWER_OK.off then [(PWR_MGR_FOLLOWER_OK, b2n (mcUp c 0 && mcUp c 1))]
  else []

/-- Instances of a class in service on both halves. -/
def bothCount (c : Chip) (cls : Nat) : Nat := svcCount c cls 0 + svcCount c cls 1

/-- The management block (R515): what is in service. -/
def viewMgt (c : Chip) (o : Nat) : List (Fld × Nat) :=
  if o = MGT_CAP0_HOST.off then
    [(MGT_CAP0_HOST, hostCount c 0 + hostCount c 1), (MGT_CAP0_DRILL, bothCount c 3), (MGT_CAP0_HARROW, bothCount c 2), (MGT_CAP0_DMA, bothCount c 4)]
  else if o = MGT_CAP1_QPR.off then [(MGT_CAP1_QPR, bothCount c 0xE), (MGT_CAP1_FURROW, bothCount c 1), (MGT_CAP1_BALK, 20 - balkLost c)]
  else []

/-- MGT_ST_STATUS (R536): a SELFTEST_SLICE waits for another to end, or for its device (R524, R525). -/
def viewStart (c : Chip) (o : Nat) : List (Fld × Nat) :=
  if o = MGT_ST_STATUS_ACTIVE.off then
    let ms := c.cmds.filter (fun m => m.cls == 0xF && m.op == 6)
    let held := ms.any (fun m => decide (m.phase = .executing)) && ms.any (fun m => decide (m.phase = .accepted))
    [(MGT_ST_STATUS_WAITING, b2n (held || c.hedge.slice.any (fun s => !s.aside)))]
  else []

/-- Half control (R550). -/
def viewHalf (c : Chip) (h o : Nat) : List (Fld × Nat) :=
  if o = MOD_HALF_STATUS_HALF.off then
    [(MOD_HALF_STATUS_FURROW, svcCount c 1 h), (MOD_HALF_STATUS_HARROWS, svcCount c 2 h), (MOD_HALF_STATUS_DRILL, svcCount c 3 h),
     (MOD_HALF_STATUS_DMA, svcCount c 4 h), (MOD_HALF_STATUS_QPR, svcCount c 0xE h), (MOD_HALF_STATUS_HOST, hostCount c h)]
  else []

/-- An open value that a read at this moment shows; reading changes nothing (log entry 44). -/
def openRead (c : Chip) (o : Nat) : Nat := Config.free (2 ^ 200 + o * 2 ^ 128 + c.freeCtr)

/-- The commands that hold an engine instance. -/
def usersOf (c : Chip) (e : Engine) : List Cmd := c.cmds.filter (fun m => m.uses e)

/-- FUR_STATUS (R148): which of filling, computing and draining a running array does is timing. -/
def viewFur (c : Chip) (h o : Nat) : List (Fld × Nat) :=
  if o ≠ FUR_STATUS_STATE.off then [] else
  let e : Engine := ⟨1, h, 0⟩
  let ms := usersOf c e
  let on := (c.engine e).awake
  let st := if !on then 0 else if remapping c h || ms.any (fun m => m.stall.isSome) then 5 else if ms.isEmpty then 1 else 2 + openRead c (FUR h) % 3
  [(FUR_STATUS_STATE, st), (FUR_STATUS_TANDEM, b2n (ms.any (fun m => m.tandem))), (FUR_STATUS_CLK_LOCKED, b2n on),
   (FUR_STATUS_EPI, b2n (ms.any (fun m => m.op != 3 && m.claims.any (fun x => x.cls == 2 && x.half == h))))]

/-- HAR_STATUS (R214). -/
def viewHar (c : Chip) (h n o : Nat) : List (Fld × Nat) :=
  if o ≠ HAR_STATUS_STATE.off then [] else
  let e : Engine := ⟨2, h, n⟩
  let st := if !(c.engine e).awake then 0 else match usersOf c e with
    | [] => 1
    | m :: _ => if m.cls = 2 then 2 else if m.op = 3 then 4 else 3
  [(HAR_STATUS_STATE, st), (HAR_STATUS_PHASE2, if st = 2 then openRead c (HAR h n) % 2 else 0)]

/-- The launch whose blocks are resident on a core. -/
def coreLaunch (c : Chip) (h n : Nat) : Option DLaunch := c.drill.launches.find? (fun l => l.half == h && l.blocks.any (fun b => b.core == n && !b.exited))

/-- DRL_STATUS and DRL_SEQ (R245). -/
def viewDrl (c : Chip) (h n o : Nat) : List (Fld × Nat) :=
  if o = DRL_STATUS_STATE.off then
    let x := c.engine ⟨3, h, n⟩
    let bs := coreBlocks c h n
    [(DRL_STATUS_STATE, if !x.service then 3 else if !x.awake then 0 else if bs.isEmpty then 1 else 2), (DRL_STATUS_BLOCKS, bs.length),
     (DRL_STATUS_GROUPS, sumNat (bs.map (fun b => b.groups.length)))]
  else if o = DRL_SEQ_SEQ.off then [(DRL_SEQ_SEQ, ((coreLaunch c h n).map (fun l => l.seq)).getD 0)]
  else []

/-- A command waits on a fault, a migration window or a retraining (R330, R522, R551). -/
def heldNow (c : Chip) (m : Cmd) : Bool :=
  m.stall.isSome || m.pages.any (fun p => p.ok && (c.srv.migs.any (fun g => g.window && g.has p.frame) || c.srv.training == some (c.place p.frame).dk))

/-- DMA_STATUS (R551). -/
def viewDma (c : Chip) (h n o : Nat) : List (Fld × Nat) :=
  if o ≠ DMA_STATUS_STATE.off then [] else
  let e : Engine := ⟨4, h, n⟩
  let ms := usersOf c e
  [(DMA_STATUS_STATE, if !(c.engine e).service then 3 else if ms.isEmpty then 0 else if ms.any (heldNow c) then 2 else 1),
   (DMA_STATUS_MIGRATING, b2n (c.srv.migs.any (fun m => m.started && m.half == h && m.mover == n)))]

/-- Barriers of a half that are defined. -/
def halfBars (c : Chip) (h : Nat) : List Barrier := (c.yoke.bars.filter (fun e => e.1 / 4096 == h)).filterMap (fun e => e.2)

/-- The flag byte of a semaphore (R363). -/
def semFlags (s : Sem) : Nat := b2n s.owned + 2 * b2n s.openWait + 4 * b2n s.openWrite + 8 * b2n s.fabric + 16 * b2n s.sat

/-- The Yoke block (R386). -/
def viewYok (c : Chip) (h o : Nat) : List (Fld × Nat) :=
  let n := c.rget (YOK h) YOK_SEM_SELECT_SEM
  if o = YOK_STATUS_WATCH_FREE.off then [(YOK_STATUS_WATCH_FREE, c.watchFree h)]
  else if o = YOK_BAR_STATUS_BAR_FREE.off then
    [(YOK_BAR_STATUS_BAR_FREE, 4096 - (halfBars c h).length),
     (YOK_BAR_STATUS_HELD, b2n ((halfBars c h).any (fun b => b.entries.any (fun e => e.gen.isNone))))]
  else if o = YOK_SEM_READ_VALUE.off then [(YOK_SEM_READ_VALUE, (c.sem h n).value), (YOK_SEM_READ_OWNER, (c.sem h n).owner)]
  else if o = YOK_SEM_FLAGS_FLAGS.off then
    [(YOK_SEM_FLAGS_FLAGS, semFlags (c.sem h n)), (YOK_SEM_FLAGS_WATCHES, min 0xFFFF (c.yoke.watches.filter (fun w => w.half == h && w.sem == n)).length)]
  else []

/-- SRV_LOOKUP (R336). -/
def viewLookup (c : Chip) (h : Nat) : List (Fld × Nat) :=
  let f := c.rget (SRV h) SRV_LOOKUP_FRAME_FRAME
  if f ≥ backedFrames then [] else
  let l := c.place f
  let x := c.pflags f
  [(SRV_LOOKUP_VALID, 1), (SRV_LOOKUP_REGION, l.region), (SRV_LOOKUP_DEVICE, l.dev), (SRV_LOOKUP_SLOT, l.slot), (SRV_LOOKUP_PINNED, b2n x.pin.isSome),
   (SRV_LOOKUP_KEEP_COLD, b2n x.cold), (SRV_LOOKUP_PREFER, x.prefer), (SRV_LOOKUP_INTERLEAVE, b2n x.ilv.isSome), (SRV_LOOKUP_ILV_INDEX, x.ilv.getD 0),
   (SRV_LOOKUP_MIGRATING, b2n (c.srv.migs.any (fun m => m.started && m.has f))),
   (SRV_LOOKUP_HEAT, min 0xFFFF (c.heat (f / 32) + openRead c (SRV h)))]

/-- The Surveyor block (R336). Heat counts of this period's fills are open until the period ends. -/
def viewSrv (c : Chip) (h o : Nat) : List (Fld × Nat) :=
  if o = SRV_STATUS_ACTIVE.off then
    [(SRV_STATUS_ACTIVE, activeMigs c h), (SRV_STATUS_WINDOW, b2n (c.srv.migs.any (fun m => m.window))),
     (SRV_STATUS_CREDIT_LOW, b2n ((regionDevs h ++ regionDevs (2 + h)).any (creditLow c)))]
  else if o = SRV_LOOKUP_VALID.off then viewLookup c h
  else []

/-- Parked lines of the other half lie in a slice only while that half offloads (R408); whether any do is not modelled. -/
def viewSyc (c : Chip) (h n o : Nat) : List (Fld × Nat) :=
  if o ≠ SYC_STATUS_PARKED.off then []
  else [(SYC_STATUS_PARKED, if c.rget (SYC (1 - h) n) SYC_STATUS_OFFLOAD = 1 then openRead c (SYC h n) % 2 else 0)]

/-- The Gleaners and the dispatch of a stack (R316, R317). -/
def viewGln (c : Chip) (h n o : Nat) : List (Fld × Nat) :=
  let e : Engine := ⟨0x15, h, n⟩
  let ms := c.cmds.filter (fun m => m.holds && (glnStacks m c).contains e)
  if o = INF_GLN_STATUS_STATE.off then
    [(INF_GLN_STATUS_STATE, if !(c.engine e).awake then 0 else if ms.any (fun m => m.cls == 1) then 3 else if ms.isEmpty then 1 else 2)]
  else if o = INF_GDS_STATUS_CMDS.off then
    [(INF_GDS_STATUS_CMDS, (c.cmds.filter (fun m => m.cls == 5 && m.holds)).length),
     (INF_GDS_STATUS_ATTN, b2n (c.cmds.any (fun m => m.cls == 1 && m.op == 3 && m.holds && m.claims.any (fun x => x.cls == 5 && x.half == h))))]
  else []

/-- A stack controller (R287). -/
def viewInf (c : Chip) (h n o : Nat) : List (Fld × Nat) :=
  let k := h * 16 + n
  if o = INF_STATUS_STATE.off then [(INF_STATUS_STATE, if underTest c k then 5 else shownState c k 0)]
  else if o = INF_SPARE_FREE.off then [(INF_SPARE_FREE, freeSpares c k), (INF_SPARE_FALLOW, min 0xFFFF (fallowSlots c k))]
  else if o ≥ 0x8000 then viewGln c h n o
  else []

/-- An Outfield channel (R288). -/
def viewOut (c : Chip) (h n o : Nat) : List (Fld × Nat) :=
  let k := (2 + h) * 16 + n / 4
  if o = OUT_STATUS_STATE.off then [(OUT_STATUS_STATE, if underTest c k then 5 else shownState c k (n % 4))]
  else if o = OUT_SPARE_FREE.off then [(OUT_SPARE_FREE, freeSpares c k), (OUT_SPARE_FALLOW, min 0xFFFF (fallowSlots c k))]
  else []

/-- Bits of the numbers below n for which P holds. -/
def maskOf (n : Nat) (P : Nat → Bool) : Nat := sumNat ((List.range n).map (fun i => if P i then 2 ^ i else 0))

/-- The queue processors (R552). -/
def viewQpb (c : Chip) (h o : Nat) : List (Fld × Nat) :=
  if o = QPR_INSERVICE_IN_SERVICE.off then
    [(QPR_INSERVICE_IN_SERVICE, maskOf 16 (fun i => (c.engine ⟨0xE, h, i⟩).service)),
     (QPR_INSERVICE_LOADING, b2n ((c.hedge.act.map (fun a => a.unit)) == some 1))]
  else if o = QPR_BUSY_BUSY.off then [(QPR_BUSY_BUSY, maskOf 16 (fun i => c.busy ⟨0xE, h, i⟩))]
  else []

/-- The fields of a register that show the state of the module. -/
def viewOf (c : Chip) (p : Place) (o : Nat) : List (Fld × Nat) :=
  match p.blk with
  | .mod => viewMod c o
  | .pwr => viewPwr c o
  | .mgt => viewMgt c o
  | .half => viewHalf c p.half o
  | .fur => viewFur c p.half o
  | .har => viewHar c p.half p.inst o
  | .drl => viewDrl c p.half p.inst o
  | .dma => viewDma c p.half p.inst o
  | .yok => viewYok c p.half o
  | .srv => viewSrv c p.half o
  | .xlt => if o = XLT_STATUS_STORE_FREE.off then [(XLT_STATUS_STORE_FREE, storeFree c p.half)] else []
  | .sbd => if o = SBD_SB_STATUS_FREE.off then [(SBD_SB_STATUS_FREE, 4096 - sbHeld c p.half)] else []
  | .syc => viewSyc c p.half p.inst o
  | .inf => viewInf c p.half p.inst o
  | .out => viewOut c p.half p.inst o
  | .qpb => viewQpb c p.half o
  | .blk => if o = BLK_STATUS_UP.off then [(BLK_STATUS_UP, b2n (c.rget (BLK p.half) BLK_STATUS_ACTIVE != 0 && c.rget (BLK p.half) BLK_STATUS_HOLD == 0))] else []
  | .aih => if o = AIH_TIME_TIME.off then [(AIH_TIME_TIME, c.time)] else []
  | .start => viewStart c o
  | .net | .hst | .cplx | .aihp | .pcx => []

/-- Counters whose advance the model does not follow (timing and cache residency): a read shows an open value (log entry 44). -/
def openCounters : Block → List Fld
  | .sbd => [SBD_RD_UNITS, SBD_WR_UNITS, SBD_CYC_CONFLICT, SBD_NET_UNITS, SBD_BALK_UNITS]
  | .syc => [SYC_HITS, SYC_MISSES, SYC_WRITEBACKS, SYC_OFFERED, SYC_DECLINED]
  | .inf => [INF_RD_UNITS, INF_WR_UNITS, INF_CYC_THROTTLE]
  | .out => [OUT_RD_UNITS, OUT_WR_UNITS, OUT_CYC_THROTTLE]
  | .hst => [HST_CYCLES, HST_INSTRET, HST_HOLD_CYC]
  | .blk => [BLK_TX_MEM, BLK_TX_COH, BLK_TX_EVT, BLK_TX_MGT, BLK_HOLD_NS]
  | .pcx => [PCX_REPLAYS]
  | _ => []

/-! ### Where a register stands -/

/-- The offset that an access reaches: West's copy of the host complex block is East's (R411). -/
def aliasOff (o : Nat) : Nat := if halfBase 1 + 0x43F000 ≤ o && o < halfBase 1 + 0x440000 then o - 0x4000000 else o

/-- The register at an offset from REG_BASE, if it is not reserved: the dispatch of a half stands in stack 0 alone (R538). -/
def liveReg (o : Nat) : Option (Place × RegDef) :=
  match regAt (aliasOff o) with
  | some (p, r) => if p.blk = .inf && p.inst != 0 && r.off ≥ 0x9000 then none else some (p, r)
  | none => none

/-- Offset from REG_BASE of the first byte of a register (log entry 8). -/
def regStart (o : Nat) (p : Place) (r : RegDef) : Nat := if r.wide && listedOff p.blk p.off != r.off then aliasOff o - 4 else aliasOff o

/-- An instance whose part is out of service (R541) (log entry 45). -/
def instOut (c : Chip) (p : Place) : Bool :=
  match p.blk with
  | .har => !(c.engine ⟨2, p.half, p.inst⟩).service
  | .drl => !(c.engine ⟨3, p.half, p.inst⟩).service
  | .dma => !(c.engine ⟨4, p.half, p.inst⟩).service
  | .hst => hartOut c (p.half * 36 + p.inst)
  | .out => c.srv.devOut.contains ((2 + p.half) * 16 + p.inst / 4)
  | _ => false

/-- A register's value as a read shows it (R6, R541). -/
def regFull (c : Chip) (o : Nat) (p : Place) (r : RegDef) : Nat :=
  let s := regStart o p r
  let f := r.flds.filter (fun x => x.acc != .wo)
  let v := (c.reg s).toNat
  let v := f.foldl (fun acc x => setBits acc x.lo x.w (bits v x.lo x.w)) 0
  if instOut c p && (r.off != 0 || p.blk == .har) then 0
  else if (openCounters p.blk).any (fun x => x.off == r.off) then openRead c s % 2 ^ 64
  else seen (viewOf c p r.off) v

/-- A port's last concord record (R471). -/
def peerRec (c : Chip) (o : Nat) : Option Nat :=
  if 0x9000000 ≤ o && o < 0x9090000 && 0x100 ≤ o % 0x10000 && o % 0x10000 < 0x140 then
    some (leAt (c.aport ((o - 0x9000000) / 0x10000)).peer (o % 0x10000 - 0x100) 4)
  else none

/-- The aligned 32-bit word at an offset from REG_BASE, below the MSI-X table. Before READY only the management region is served (R519);
the image window reads 0 (R534). -/
def regWord (c : Chip) (o : Nat) : Nat :=
  if !reached o c then 0
  else match peerRec c o with
  | some v => v
  | none =>
    match liveReg o with
    | none => 0
    | some (p, r) => let v := regFull c o p r; if regStart o p r = aliasOff o then v % 2 ^ 32 else bits v 32 32

/-- A size and an offset that an access of register space may have (R539). -/
def accessFits (off size : Nat) : Bool := (size == 1 || size == 2 || size == 4 || size == 8) && off % size == 0

/-- The bytes that an access of `size` bytes reads (R539), given what reads a word. -/
def readBytes (f : Nat → Nat) (off size : Nat) : List Byte :=
  if size = 8 then leBytes 4 (f off) ++ leBytes 4 (f (off + 4)) else sliceBytes (leBytes 4 (f (off / 4 * 4))) (off % 4) size

end Sys2Proof.Machine
end

