-- ==== Sys2Proof/Machine/RegWrite.lean ====
section
/-! DEFINITION. What a write of register space does (R6 to R8, R519, R534, R539 to R542, R546), and the commands that are writes of one
register. -/

namespace Sys2Proof.Machine

open Sys2Proof

/-! ### Fields -/

/-- The commit lock of a block is set (R8, R546). -/
def lockOn (c : Chip) (p : Place) : Bool :=
  match p.blk with
  | .mod => c.rget MOD MOD_CTL_LOCK == 1
  | .mgt | .net => c.rget MGT MGT_CTL_LOCK == 1
  | .sbd => c.rget (SBD p.half) SBD_CTL_LOCK == 1
  | .yok => c.rget (YOK p.half) YOK_CTL_LOCK == 1
  | .cplx => c.rget CPLX HST_CPLX_CTL_LOCK == 1
  | .pcx => c.rget (PCX p.inst) PCX_CTL_LOCK == 1
  | .aih | .aihp => c.rget AIH AIH_CTL_LOCK == 1
  | _ => false

/-- A field is a commit lock: once 1 it stays so (R8). -/
def isLock (b : Block) (o lo : Nat) : Bool :=
  lo == 0 && (match b with
    | .mod => o == MOD_CTL_LOCK.off
    | .pwr => o == PWR_CTL_LOCK.off
    | .mgt => o == MGT_CTL_LOCK.off
    | .sbd => o == SBD_CTL_LOCK.off
    | .yok => o == YOK_CTL_LOCK.off
    | .cplx => o == HST_CPLX_CTL_LOCK.off
    | .pcx => o == PCX_CTL_LOCK.off
    | .aih => o == AIH_CTL_LOCK.off
    | _ => false)

/-- One field of a register that holds x takes what a write of v gives it (R6, R8). -/
def takeField (b : Block) (o : Nat) (lock : Bool) (v x : Nat) (f : RegField) : Nat :=
  let n := bits v f.lo f.w
  let old := bits x f.lo f.w
  match f.acc with
  | .rw => setBits x f.lo f.w (if isLock b o f.lo && old == 1 then 1 else n)
  | .w1c => setBits x f.lo f.w (old &&& (2 ^ f.w - 1 - n))
  | .rwl => if lock then x else setBits x f.lo f.w n
  | .ro | .wo | .hwi => x

/-- The registers that a write of one reaches: OUT_CTL of a package's four channels together (R288). -/
def writeStarts (s : Nat) (p : Place) (r : RegDef) : List Nat :=
  if p.blk = .out && r.off == OUT_CTL_SCRUB_HOURS.off then (List.range 4).map (fun i => OUT p.half (p.inst / 4 * 4 + i) + r.off) else [s]

/-- A register takes a write of its own width: fields under a commit lock keep their values, and the write is logged (R6, R546) (log entry 45). -/
def regStore (path : Path) (s : Nat) (p : Place) (r : RegDef) (v : Nat) (c : Chip) : Chip :=
  let lock := lockOn c p
  let c' := (writeStarts s p r).foldl (fun c s => c.setReg s (BitVec.ofNat 64 (r.flds.foldl (takeField p.blk r.off lock v) (c.reg s).toNat))) c
  if lock && r.flds.any (fun f => decide (f.acc = .rwl)) then accLog 0 s .locked path c' else c'

/-! ### Writes that act -/

/-- A write of 1 to MGT_ALERT.PENDING (R502): ALERT_N is deasserted, except under an event of severity 4. -/
def alertClear (c : Chip) : Chip := if c.log.hold4 then c else (c.rput MGT MGT_ALERT_PENDING 0).rput MGT MGT_STATUS_ALERT 0

/-- A write of AIH_PORT_CTL (R439, R471), once stored: USE takes effect at the next training. -/
def portCtl (p v : Nat) (c : Chip) : Chip :=
  if bitAt v 3 then portRetrain p c
  else if c.rget (AIHP p) AIH_PORT_CTL_ENABLE = 0 then portOff p c
  else if portState c p = 0 then portTry p c
  else c

/-- A write of MOD_QCTL_CMD (R548, R549). -/
def qctlCmd (path : Path) (v : Nat) (c : Chip) : Chip :=
  let q := bits v 0 20
  match bits v 20 4 with
  | 1 => qctlEnableStep path q c
  | 2 => qctlDisableStopStep path q c
  | 3 => qctlDisableDrainStep path q c
  | _ => accLog 0 0x1018 .other path c

/-- A write of MOD_FAULT_RESP (R352, R361). -/
def faultCmd (path : Path) (v : Nat) (c : Chip) : Chip :=
  match bits v 32 2 with
  | 0 => faultRetryStep path (bits v 0 32) c
  | 1 => faultDeclineStep path (bits v 0 32) c
  | _ => c.rput MOD MOD_XLT_ERR_RESP_BAD 1

/-- FAULT bits of the optics written as 1 (R496). -/
def faultBits (v : Nat) (c : Chip) : Chip := (List.range 9).foldl (fun c p => if bitAt v (9 + p) then opticsFaultClear p c else c) c

/-- What a write of v to a register does: the registers that act on the write instead of, or beside, storing it. -/
def regAct (path : Path) (s : Nat) (p : Place) (r : RegDef) (v : Nat) (c : Chip) : Chip :=
  let store := regStore path s p r v
  match p.blk, r.off with
  | .mod, 0x1018 => qctlCmd path v c
  | .mod, 0x2004 => modCfgCommitStep path v c
  | .mod, 0x3010 => modFrConsumedStep path v c
  | .mod, 0x3018 => faultCmd path v c
  | .pwr, 0x4 => let c := store c; if bitAt v 1 then wakeReqStep path c else c
  | .pwr, 0x30 => opticsSet (bits v 0 9) (store c)
  | .pwr, 0x34 => faultBits v c
  | .mgt, 0x8 => if bitAt v 0 then alertClear c else c
  | .start, 0x8 => if bitAt v 0 then mgtHostReleaseStep path c else c
  | .aihp, 0x4 => portCtl p.inst v (store c)
  | .aih, 0x70 => timeCheck (store c)
  | .aih, 0x78 => aihTimeSetStep path v c
  | .pcx, 0x4 => let c := store c; if bitAt v 1 then linkRetrainNow p.inst c else c
  | _, _ => store c

/-! ### The image window -/

/-- The bytes a firmware slot of a unit may hold (R531). -/
def fwLimit (u : Nat) : Nat := if u = 0 then 0x800000 else if u = 1 then 0x400000 else 0x200000

/-- Bytes stored into a firmware slot (unit × 2 + image) from byte i on. -/
def fwStore (slot i : Nat) (bs : List Byte) (c : Chip) : Chip :=
  { c with hedge := { c.hedge with fw := (List.range bs.length).foldl (fun m j => kset fwDef m (slot * 2 ^ 24 + i + j) (nth bs j 0)) c.hedge.fw } }

/-- A 32-bit write at an offset w of the image window (R534). -/
def imageWrite (path : Path) (w v : Nat) (c : Chip) : Chip :=
  let u := c.rget START MGT_FW_WIN_CTL_UNIT
  let i := c.rget START MGT_FW_WIN_CTL_IMAGE
  let o := c.rget START MGT_FW_WIN_CTL_BASE * 256 + w
  if u = 3 || o + 4 > fwLimit u || c.rget MGT (runFld u) == i then accLog 0 (0x110000 + w) .other path c
  else fwStore (2 * u + i) o (leBytes 4 v) c

/-! ### The MSI-X table -/

/-- A 32-bit write at an offset from the MSI-X table of a port's function 0 (R418, R425): an entry that is no longer masked sends the
message that waited. -/
def msixWrite (q o v : Nat) (c : Chip) : Chip :=
  if o ≥ 0x8000 then c
  else
    let x := c.port q
    let e := o / 16
    let c := c.setPcx q { x with table := kset msixDef x.table (o / 4) v }
    if x.pba.contains e then msixRaise e q c else c

/-! ### An access -/

/-- What stands at an offset, as a write finds it. -/
inductive Target
  | early | window | msix (port : Nat) | silent | west | none | reg (p : Place) (r : RegDef)
  deriving DecidableEq, Repr

/-- What a write by a path to an aligned offset finds (R411, R471, R519, R537, R541) (log entry 45). -/
def targetOf (path : Path) (o : Nat) (c : Chip) : Target :=
  if !reached o c then .early
  else if 0x110000 ≤ o && o < 0x120000 then .window
  else if o ≥ 0xF000000 then
    (match path with
      | .pcx q => if isEp c q && o < 0x10000000 then .msix q else .none
      | _ => .none)
  else if (peerRec c o).isSome then .silent
  else match liveReg o with
  | none => .none
  | some (p, r) => if instOut c p then .silent else if aliasOff o != o then .west else .reg p r

/-- A 32-bit write at an aligned offset (R539). -/
def wordWrite (path : Path) (o v : Nat) (c : Chip) : Chip :=
  match targetOf path o c with
  | .early => accLog 0 o .other path c
  | .window => imageWrite path (o - 0x110000) v c
  | .msix q => msixWrite q (o - 0xF000000) v c
  | .silent => c
  | .west => accLog 0 o .other path c
  | .none => accLog 0 o .reserved path c
  | .reg p r => if r.wide then accLog 0 o .narrow path c else regAct path o p r v c

/-- A 64-bit write at an aligned offset (R539): a 64-bit register takes it whole; otherwise it is two words, the lower first. An access that
reaches no register at all is one access (log entry 45). -/
def dwordWrite (path : Path) (o v : Nat) (c : Chip) : Chip :=
  let t := targetOf path o c
  match t with
  | .reg p r =>
    if r.wide then regAct path o p r v c else wordWrite path (o + 4) (bits v 32 32) (wordWrite path o (bits v 0 32) c)
  | _ =>
    if (decide (t = .early) || decide (t = .none)) && decide (targetOf path (o + 4) c = t) then wordWrite path o (bits v 0 32) c
    else wordWrite path (o + 4) (bits v 32 32) (wordWrite path o (bits v 0 32) c)

/-- A write narrower than 32 bits stores nothing (R539, R541, R542) (log entry 45). -/
def narrowWrite (path : Path) (o : Nat) (c : Chip) : Chip :=
  match targetOf path (o / 4 * 4) c with
  | .silent => c
  | .none => accLog 0 o .reserved path c
  | .early => accLog 0 o .other path c
  | _ => accLog 0 o .narrow path c

/-- A host core's access that the module does not take ends in an access fault (R537, R539). -/
def hostFault (path : Path) (o : Nat) (c : Chip) : Chip :=
  match path with
  | .host n => c.emit (.hostReply n (0x200000000000 + o) 1 [])
  | _ => c

/-- A path can send at all: a host core only while its complex runs (log entry 45). -/
def pathLive (path : Path) (c : Chip) : Bool :=
  match path with
  | .host n => !c.up || hostOn n c
  | _ => true

/-- A write of `size` bytes at an offset from REG_BASE (R537 to R542) (log entry 45). -/
def regWriteNow (path : Path) (o size v : Nat) (c : Chip) : Chip :=
  if !c.hedge.standby || !pathLive path c then c
  else if o ≥ 0x10000000 then hostFault path o c
  else if !accessFits o size then hostFault path o (accLog 0 o .rejected path c)
  else if size = 4 then wordWrite path o (bits v 0 32) c
  else if size = 8 then dwordWrite path o v c
  else narrowWrite path o c

/-! ### Commands -/

/-- REGISTER_WRITE (R540). -/
def registerWriteStep (p : Path) (off size v : Nat) (c : Chip) : Chip := regWriteNow p off size v c

/-- IMAGE_WINDOW_WRITE (R534). -/
def imageWindowWriteStep (p : Path) (w v : Nat) (c : Chip) : Chip := regWriteNow p (0x110000 + w) 4 v c

/-- PCX_FLUSH (R426): a read of PCX_FLUSH. -/
def pcxFlushStep (p : Path) (port : Nat) (c : Chip) : Chip :=
  if !c.hedge.standby || !pathLive p c then c
  else if c.up then pcxFlushNow p port c
  else c.emit (.read p (PCX port + PCX_FLUSH.off) 0)

/-- PCX_RETRAIN (R433): PCX_CTL written with RETRAIN. -/
def pcxRetrainStep (p : Path) (port : Nat) (c : Chip) : Chip := regWriteNow p (PCX port + 4) 4 2 c

/-- AIH_PORT_RETRAIN (R471): AIH_PORT_CTL written with RETRAIN and its other fields as they stand. -/
def aihPortRetrainStep (p : Path) (port : Nat) (c : Chip) : Chip :=
  regWriteNow p (AIHP port + 4) 4 (setBits (c.reg (AIHP port + 4)).toNat 3 1 1) c

/-- MGT_ALERT_CLEAR (R502): 1 written to MGT_ALERT.PENDING. -/
def mgtAlertClearStep (p : Path) (c : Chip) : Chip := regWriteNow p (MGT + 8) 4 1 c

/-- OPTICS_FAULT_CLEAR (R496): 1 written to a port's FAULT bit. -/
def opticsFaultClearStep (p : Path) (port : Nat) (c : Chip) : Chip := regWriteNow p (PWR + 0x34) 4 (2 ^ (9 + port)) c

end Sys2Proof.Machine
end

