-- ==== Sys2Proof/Machine/Mgmt.lean ====
section
/-! DEFINITION. Management commands (R73, R76, R436, R479, R491, R504, R506, R507, R512, R513, R529 to R533, R544, R545). -/

namespace Sys2Proof.Machine

open Sys2Proof

/-- A row of the management class: f ends the command, or leaves it waiting. -/
def mgmtRow (k : Carrier) (seq op : Nat) (f : Cmd → Chip → Chip) (c : Chip) : Chip :=
  match control k seq 0xF op c with
  | some m => f m c
  | none => c

/-- BUSY_REFUSED, without effect (R84). -/
def busyRefused (m : Cmd) (c : Chip) : Chip := finish m (mkRes sBusy []) c

/-! ### IDENTIFY -/

/-- PART of IDENTIFY: "LMK-KN1-A". -/
def partName : List Byte := [0x4C, 0x4D, 0x4B, 0x2D, 0x4B, 0x4E, 0x31, 0x2D, 0x41]

/-- VERSION of the running image of a unit (R531, R545). -/
def runVersion (c : Chip) (u : Nat) : Nat := fwLe c (2 * u + c.rget MGT (runFld u)) 8 4

/-- Backed frames in service (R545): those that lie on a device in service. -/
def framesInService (c : Chip) : Nat := backedFrames - sumNat (c.srv.devOut.map (fun k => visSlots k - framesOn c k))

/-- The reply of IDENTIFY (R545); fields whose source is not powered read 0 (log entry 19). -/
def identReply (c : Chip) : List Byte :=
  let v := fun (x : Nat) => if c.hedge.step < 8 then 0 else x
  let w := fun (o : Nat) => regWord c o
  let ip := if c.rget NET MGT_NET_CTL_IPV6 = 1 then
      [(160, 4, c.rget NET MGT_NET_IP6_0), (164, 4, c.rget NET MGT_NET_IP6_1), (168, 4, c.rget NET MGT_NET_IP6_2), (172, 4, c.rget NET MGT_NET_IP6_3)]
    else [(160, 4, c.rget NET MGT_NET_IP4)]
  putBytes (fields 256 (
    [(0, 2, v (c.rget MOD MOD_ID_VENDOR)), (2, 2, v (c.rget MOD MOD_ID_DEVICE)), (4, 1, v (c.rget MOD MOD_REV_SI_REV)),
     (5, 1, v (c.rget MOD MOD_REV_MODULE_REV)), (6, 1, 1), (24, 8, v (c.rget MOD MOD_SERIAL_SERIAL)), (32, 4, runVersion c 0),
     (36, 4, runVersion c 1), (40, 4, runVersion c 2), (44, 4, w (MGT + 0x10)), (48, 4, w (MGT + 0x14)), (52, 4, w (MGT + 0x18)), (56, 4, w START),
     (60, 4, w (START + 0xC)), (64, 4, v (c.rget AIH AIH_NODE_ID_NODE)), (68, 4, v (c.rget AIH AIH_SELF_RANK_CUR_RANK)),
     (72, 4, v (c.rget AIH AIH_JOB_CUR_JOB)), (76, 2, v (c.rget MOD MOD_CFG_EPOCH_CURRENT)), (80, 4, w PWR), (84, 4, w (PWR + 0x38)), (88, 4, w MGT),
     (92, 4, v (framesInService c)), (96, 6, c.rget NET MGT_NET_MAC), (176, 8, c.time)] ++
    (List.range 9).map (fun p => (104 + 6 * p, 6, v (c.rget (AIHP p) AIH_PORT_MAC))) ++ ip)) 8 partName

/-- IDENTIFY (R545). -/
def identifyStep (k : Carrier) (seq : Nat) (c : Chip) : Chip := mgmtRow k seq 1 (fun m c => answer m (identReply c) c) c

/-! ### Register access -/

/-- The path of a command's register accesses (R548). -/
def carPath : Carrier → Path
  | .queue q => .queue q
  | .smbus => .smbus
  | .net _ => .net
  | .mailbox p => .mailbox p

/-- A REG_READ or REG_WRITE before READY that leaves the management region (R89, R544). -/
def beyondStandby (m : Cmd) (c : Chip) : Bool := !c.up && !(0x10000 ≤ m.par 32 8 && m.par 32 8 < 0x1000000)

/-- REG_READ (R544) (log entry 21). -/
def regReadStep (k : Carrier) (seq : Nat) (c : Chip) : Chip :=
  mgmtRow k seq 2 (fun m c =>
    if beyondStandby m c then busyRefused m c
    else answer m ((List.range (m.par 40 2)).flatMap (fun i => leBytes 4 (regWord c (m.par 32 8 + 4 * i)))) c) c

/-- A 64-bit register starts at an offset. -/
def wideAt (o : Nat) : Bool :=
  match liveReg o with
  | some (p, r) => r.wide && regStart o p r == aliasOff o
  | none => false

/-- Words written in ascending order; two that form a 64-bit register are one access (R544). -/
def writeWords (path : Path) : Nat → List Nat → Chip → Chip
  | _, [], c => c
  | o, [x], c => regWriteNow path o 4 x c
  | o, x :: y :: ws, c =>
    if wideAt o then writeWords path (o + 8) ws (regWriteNow path o 8 (x + 2 ^ 32 * y) c)
    else writeWords path (o + 4) (y :: ws) (regWriteNow path o 4 x c)

/-- REG_WRITE (R544). -/
def regWriteStep (k : Carrier) (seq : Nat) (c : Chip) : Chip :=
  mgmtRow k seq 3 (fun m c =>
    if beyondStandby m c then busyRefused m c
    else
      let c := writeWords (carPath k) (m.par 32 8) ((List.range (m.par 40 2)).map (fun i => m.par (64 + 4 * i) 4)) c
      finish ((c.findCmd k seq).getD m) doneRes c) c

/-! ### Rings -/

/-- How far back from the next index an index counted in 32 bits lies; none for one that is not yet taken (log entry 18). -/
def back32 (next first : Nat) : Option Nat :=
  if next ≤ 2 ^ 32 then (if first < next then some (next - first) else none)
  else
    let d := wrapSub 32 next first
    if d = 0 || d ≥ 2 ^ 31 then none else some d

/-- TELEMETRY_READ's reply (R479): the header and whole samples; with none, the first two fields of the header have no sample to show and
are open (log entry 18). -/
def telemReply (set first : Nat) (c : Chip) : List Byte × Chip :=
  let ring := nth c.gov.rings set []
  let next := nth c.gov.next set 0
  let size := if set = 2 then 8 else 16
  match back32 next first with
  | some d =>
    let n := min d ring.length
    let l := (ring.drop (ring.length - n)).take (1008 / size)
    (fields 16 [(0, 4, next - n), (4, 4, l.length), (8, 8, (l.head?.map (fun x => x.1)).getD 0)] ++ l.flatMap (fun x => sliceBytes x.2 0 size), c)
  | none => let a := c.draw; let b := a.2.draw; (fields 16 [(0, 4, a.1), (8, 8, b.1)], b.2)

/-- TELEMETRY_READ (R479). -/
def telemetryReadStep (k : Carrier) (seq : Nat) (c : Chip) : Chip :=
  mgmtRow k seq 4 (fun m c => let r := telemReply (m.par 32 1) (m.par 36 4) c; answer m r.1 r.2) c

/-- The 32 bytes of an event log record (R501). -/
def LogRec.bytes (r : LogRec) : List Byte :=
  fields 32 [(0, 4, r.index), (4, 8, r.time), (12, 1, r.sev), (13, 1, r.flags), (14, 2, r.code), (16, 1, r.unit), (17, 1, r.half), (18, 2, r.inst),
    (20, 8, r.addr), (28, 4, r.value)]

/-- EVENT_LOG_READ's reply (R504): the header and at most 31 records; what the header shows of a record that does not exist is open (log entry 18). -/
def logReply (first : Nat) (c : Chip) : List Byte × Chip :=
  let n := c.log.recs.length
  let a := c.draw
  let oldest := (c.log.recs.head?.map (fun r => r.index)).getD a.1
  let hdr := fun (i cnt : Nat) => fields 16 [(0, 4, i), (4, 4, cnt), (8, 4, oldest), (12, 4, c.rget MGT MGT_LOG_NEXT_NEXT)]
  match back32 (c.rget MGT MGT_EVENTS) first with
  | some d =>
    let l := (c.log.recs.drop (n - min d n)).take 31
    (hdr ((l.head?.map (fun r => r.index)).getD a.1) l.length ++ l.flatMap LogRec.bytes, a.2)
  | none => (hdr a.1 0, a.2)

/-- EVENT_LOG_READ (R504). -/
def eventLogReadStep (k : Carrier) (seq : Nat) (c : Chip) : Chip :=
  mgmtRow k seq 0xC (fun m c => let r := logReply (m.par 36 4) c; answer m r.1 r.2) c

/-! ### LIMIT_SET and STILE_SET -/

/-- LIMIT_SET (R76, R491): the shadow registers take the limits; a floor of 0 only clears FLOOR_EN. -/
def limitSetStep (k : Carrier) (seq : Nat) (c : Chip) : Chip :=
  mgmtRow k seq 5 (fun m c =>
    let c := (c.rput PWR PWR_LIMIT_LIMIT (m.par 32 4)).rput PWR PWR_LIMIT_FIXED_FREQ (bits (m.par 41 1) 0 1)
    let c := c.rput PWR PWR_GRID_RAMP (m.par 36 4)
    let f := m.par 40 1
    let c := if f = 0 then c.rput PWR PWR_GRID_FLOOR_EN 0 else (c.rput PWR PWR_GRID_FLOOR_PCT f).rput PWR PWR_GRID_FLOOR_EN 1
    finish m doneRes c) c

/-- STILE_SET (R436). -/
def stileSetStep (k : Carrier) (seq : Nat) (c : Chip) : Chip :=
  mgmtRow k seq 0xB (fun m c => finish m doneRes (stileCheck (c.rput AIH AIH_STILE_ORDERED (m.par 32 1)))) c

/-! ### SELFTEST_SLICE -/

/-- The device of a memory slice (R523). -/
def stDev (s : SliceTest) : Nat := if s.kind = 9 then s.half * 16 + s.index / 1028 else (2 + s.half) * 16 + s.index / 2056

/-- The spare capacity that a slice's work moves to is free (R523, R524, R525) (log entry 20). -/
def stFree (s : SliceTest) (c : Chip) : Bool :=
  let h := s.half
  let band := fun (k : PartKind) => (c.engine ⟨1, h, 0⟩).service && mapCount c k h == 0 && !c.hedge.repl.any (fun p => decide (p.kind = k) && p.half == h)
  match s.kind with
  | 0 => band .furrowRow
  | 1 => band .furrowCol
  | 2 => (c.engine (stEngine s)).service && (freePhys c .drillCore h).isSome
  | 3 => (c.engine (stEngine s)).service && svcCount c 2 h ≥ 2
  | 4 => (c.engine (stEngine s)).service && svcCount c 4 h ≥ 2
  | 5 => (c.engine (stEngine s)).service && svcCount c 0xE h ≥ 2
  | 6 => c.rget (SBD h) SBD_MAP_SPARE_IN_USE == 0 && !c.bank.moving.any (fun e => e.1 == h)
  | 7 =>
    let b := SYC h (s.index / 16)
    !bitAt (c.rget b SYC_WAYS_FALLOW) (s.index % 16) && c.rget b SYC_STATUS_FALLOW_WAYS < 15
  | 8 => !(fallowOf c .gleaner h).any (fun p => p.inst == s.index / 4 && p.phys % 4 / 2 == s.index % 4 / 2)
  | _ =>
    let d : Chip := { c with hedge := { c.hedge with slice := some { s with aside := true } } }
    let k := stDev s
    !c.srv.devOut.contains k &&
      sumNat (((regionDevs (dkRegion k)).filter (fun x => !c.srv.devOut.contains x)).map (fun x => freeSpares d x)) ≥ 1024

/-- A memory slice's device is throttled, or a retraining holds it (R525). -/
def stHeld (s : SliceTest) (c : Chip) : Bool := s.kind ≥ 9 && (devThrottle c (stDev s) != 0 || c.srv.training == some (stDev s))

/-- The slice test in execution replaced. -/
def setSlice (s : SliceTest) (c : Chip) : Chip := { c with hedge := { c.hedge with slice := some s } }

/-- An engine slice that its work has left is tested (R523, R524): a Drill core's number goes to the spare. -/
def stIdle (s : SliceTest) (c : Chip) : Chip :=
  let e := stEngine s
  if s.kind = 2 then
    if (coreBlocks c s.half s.index).isEmpty then
      match freePhys c .drillCore s.half with
      | some p => setSlice { s with begun := true } (setService e true (c.rput (DRL s.half s.index) DRL_STATUS_PHYS p))
      | none => c
    else c
  else if c.busy e || (s.kind = 4 && c.srv.migs.any (fun m => m.started && m.half == s.half && m.mover == s.index)) then c
  else setSlice { s with begun := true } c

/-- The work of a slice moves aside (R523, R524). -/
def stAside (s : SliceTest) (c : Chip) : Chip :=
  let h := s.half
  let s := { s with aside := true }
  let c := c.rput START MGT_ST_STATUS_ACTIVE 1
  match s.kind with
  | 0 | 1 => setSlice { s with begun := true } (c.rput (FUR h) FUR_MAP_BAND_TEST 1)
  | 2 =>
    let s := { s with phys := c.rget (DRL h s.index) DRL_STATUS_PHYS }
    stIdle s (setService (stEngine s) false (setSlice s c))
  | 3 | 4 | 5 => stIdle s (setService (stEngine s) false (setSlice s c))
  | 6 => setSlice s ({ c with bank := { c.bank with moving := c.bank.moving ++ [(h, (s.index, true))] } }.rput (SBD h) SBD_STATUS_MOVE_ACTIVE 1)
  | 7 | 8 => setSlice { s with begun := true } c
  | _ => stMoves (setSlice s c)

/-- Step 1 of a test is due (R524, R525): it waits for its device, is not run for want of spares, or moves its work aside. -/
def stDue (s : SliceTest) (c : Chip) : Chip :=
  if stHeld s c then c
  else if !stFree s c then stOver s (stReply s ⟨2, 0, 0, 0, 0, (c.time - s.at_) / 1000⟩ c) c
  else stAside s c

/-- SELFTEST_SLICE (R523, R524): the test starts, or goes on as its slice becomes free. -/
def selftestSliceStep (k : Carrier) (seq : Nat) (c : Chip) : Chip :=
  mgmtRow k seq 6 (fun m c =>
    match c.hedge.slice with
    | none =>
      let s : SliceTest := { car := k, seq := seq, kind := m.par 32 1, half := m.par 33 1, index := m.par 34 2, at_ := c.time }
      let c := ((c.rput START MGT_ST_STATUS_KIND s.kind).rput START MGT_ST_STATUS_HALF s.half).rput START MGT_ST_STATUS_INDEX s.index
      stDue s (setSlice s c)
    | some s =>
      if s.car ≠ k || s.seq != seq then c
      else if !s.aside then stDue s c
      else if !s.begun && 2 ≤ s.kind && s.kind ≤ 5 then stIdle s c
      else c) c

/-- Slots of the block under test that failed, the frame of the first failing unit among them (R526, R527): the others are open, no more
of them than failing units (log entry 20). -/
def stBadSlots (s : SliceTest) (o : SliceOutcome) (c : Chip) : List Nat × Chip :=
  let k := stDev s
  let b := ((testBlock c).getD (0, 0)).2
  let slots := (rangeFrom (1024 * b) 1024).filter (fun i => !c.srv.fallow.contains ⟨dkRegion k, dkDev k, i⟩)
  let r := match s.moved.find? (fun x => x.1 == o.first / 65536) with
    | some x => (some x.2, c)
    | none => c.pick (slots.filter (fun i => !s.moved.any (fun x => x.2 == i)))
  match r.1 with
  | none => ([], r.2)
  | some f =>
    (slots.filter (fun i => i != f)).foldl (fun (acc : List Nat × Chip) i =>
      let d := acc.2.draw
      if acc.1.length < o.fails && d.1 % 2 == 1 then (acc.1 ++ [i], d.2) else (acc.1, d.2)) ([f], r.2)

/-- The march of a memory slice is over (R524, R525): failed slots are retired, their frames go to other spares and the rest return (log entry 20). -/
def stBack (s : SliceTest) (o : SliceOutcome) (c : Chip) : Chip :=
  let rep := stReply s o c
  let k := stDev s
  let at_ := fun (i : Nat) => (⟨dkRegion k, dkDev k, i⟩ : FrameLoc)
  let r := if stVerdict s.kind o = 1 then stBadSlots s o c else ([], c)
  let c := r.1.foldl (fun c i => match s.moved.find? (fun x => x.2 == i) with
    | some x => slotRetired x.1 (at_ i) c
    | none => slotOut (at_ i) c) r.2
  let c := s.moved.foldl (fun c x =>
    if r.1.contains x.2 then
      let d := regionSpare k c
      match d.1 with
      | some l => stMig .testBack x.1 l d.2
      | none => d.2
    else stMig .testBack x.1 (at_ x.2) c) c
  stMoves (setSlice { s with back := some rep } c)

/-- The part that a failed test puts fallow (R509, R524), with its physical index. -/
def stFail (s : SliceTest) (o : SliceOutcome) (c : Chip) : Chip :=
  let h := s.half
  let i := s.index
  match s.kind with
  | 0 => let n := 4 * i + o.first % 4; fallowPart ⟨.furrowRow, h, n, n⟩ true true c
  | 1 => let n := 16 * i + o.first % 16; fallowPart ⟨.furrowCol, h, n, n⟩ true true c
  | 2 => let pt : Part := ⟨.drillCore, h, i, s.phys⟩; spareTook pt (c.rget (DRL h i) DRL_STATUS_PHYS) (noteFallow pt c)
  | 3 => fallowPart ⟨.harrow, h, i, i⟩ true true c
  | 4 => fallowPart ⟨.mover, h, i, i⟩ true true c
  | 5 => fallowPart ⟨.queueProc, h, i, i⟩ true true c
  | 6 => (noteFallow ⟨.bankGroup, h, i, i⟩ (c.rput (SBD h) SBD_MAP_TEST 0)).logEvent 0x0016 2 0x08 h 0 i 0
  | 7 => fallowPart ⟨.way, h, i, i⟩ true true c
  | _ => let d := c.draw; fallowPart ⟨.gleaner, h, i / 4, d.1 % 64 * 4 + i % 4⟩ true true d.2

/-- SLICE_TEST_END (R524, R527, R528): the test itself has run; whether it is run, and whether a fault interrupts it, the module decides (log entry 20). -/
def sliceTestEndStep (o : SliceOutcome) (c : Chip) : Chip :=
  match c.hedge.slice with
  | none => c
  | some s =>
    if !s.begun || s.back.isSome || o.result ≥ 2 then c
    else if s.kind ≥ 9 then stBack s o c
    else
      let o := { o with result := 0 }
      let rep := stReply s o c
      let bad := stVerdict s.kind o == 1
      let c := if bad && s.kind ≥ 2 then c else stUndo s c
      let c := stOver s rep c
      if bad then stFail s o c else c

/-! ### SELFTEST_FULL -/

/-- The module is quiescent (R529) (log entry 16). -/
def quiescent (m : Cmd) (c : Chip) : Bool :=
  c.queues.all (fun e => decide (e.2.st = .disabled) || m.queue? == some e.1) && (m.queue?.isNone || (c.cmdsOf m.car).length == 1) &&
    c.inflight ≤ 1 && !c.srv.migs.any (fun g => g.started) && c.hedge.act.isNone

/-- The module takes a module reset and starts again from phase RAILS with the full tests (R530) (log entry 16). -/
def fullRestart (c : Chip) : Chip :=
  let c := moduleReset (opticsDown c)
  setPhase 1 { c with hedge := { c.hedge with full := true, rising := true, falling := false, started := c.time, step := 1 } }

/-- SELFTEST_FULL (R529, R530): the record is written, then the module resets. How long the full start takes is open (log entry 16). -/
def selftestFullStep (k : Carrier) (seq : Nat) (c : Chip) : Chip :=
  mgmtRow k seq 7 (fun m c =>
    if !quiescent m c then busyRefused m c
    else
      let d := c.draw
      let c := answer m (fields 8 [(0, 4, d.1)]) d.2
      match c.findCmd k seq with
      | some m => fullRestart (retire m (m.res.getD doneRes) c)
      | none => c) c

/-! ### Firmware -/

/-- Frame-space addresses of the bytes of an image's source (R533): by the run list on a queue, as they are on a management path. -/
def stageAddr (m : Cmd) (i : Nat) : Option Nat :=
  let a := bits (m.par 32 8) 0 57 + i
  if m.queue?.isSome then pageAddr m.pages a else some (m.par 32 8 + i)

/-- What a read of the image meets first in memory: a poisoned unit, or one that cannot be corrected (R279, R500) (log entry 17). -/
def stageBad (m : Cmd) (n : Nat) (c : Chip) : Option (Nat × Nat) :=
  if c.poison.isEmpty && c.memBad.isEmpty then none
  else (List.range n).findSome? (fun i => match stageAddr m i with
    | some a => if c.poison.contains (a / 64) then some (i, a) else if c.memBad.contains (a / 64) then some (i, a) else none
    | none => none)

/-- The image is copied into a slot; a byte that is not backed is not read (R569) (log entry 17). -/
def stageCopy (m : Cmd) (slot n : Nat) (c : Chip) : Chip :=
  (List.range n).foldl (fun c i => match stageAddr m i with
    | some a => if backed a 1 then fwStore slot i [c.rdByte a] c else c
    | none => c) c

/-- RESULT of an image's verification (R532, R533); n is BYTES when it has just been written (log entry 17). -/
def fwVerify (u i : Nat) (n : Option Nat) (c : Chip) : Nat :=
  let s := 2 * u + i
  let bs := fun (o k : Nat) => (List.range k).map (fun j => fwByte c s (o + j))
  let len := fwLe c s 20 4
  if fwLe c s 0 4 ≠ 0x4E4B4657 || fwLe c s 5 1 != 1 then 1
  else if fwLe c s 4 1 ≠ u || 256 + len > fwLimit u || n.any (fun k => k > fwLimit u) then 5
  else if n.any (fun k => 256 + len > k) then 1
  else if sha384 (bs 256 len) ≠ bs 24 48 then 2
  else if !Config.sigOk (bs 0 128) (bs 128 96) then 3
  else if svnOf c u i < nth c.hedge.svn u 0 then 4
  else 0

/-- FW_STAGE (R533): the image is written and verified; its slot's OK bit follows (log entry 17). -/
def fwStageStep (k : Carrier) (seq : Nat) (c : Chip) : Chip :=
  mgmtRow k seq 8 (fun m c =>
    if m.prog = 0 then busyRefused m c
    else
      let u := m.par 44 1
      let i := m.par 45 1
      let src := decide (m.par 32 8 ≠ 0)
      let n := min (m.par 40 4) (fwLimit u)
      match (if src then stageBad m n c else none) with
      | some (j, a) =>
        let res := fun (st : Nat) (c : Chip) => finish m (mkRes st [(0, 8, m.par 32 8 + j), (8, 1, c.srcOf a), (9, 1, 0xFF)]) c
        if c.poison.contains (a / 64) then res sPoisoned c else res sUncorr (memUncorr a c)
      | none =>
        let c := if src then stageCopy m (2 * u + i) n c else c
        let r := fwVerify u i (if src then some (m.par 40 4) else none) c
        answer m (fields 8 [(0, 1, r), (4, 4, fwLe c (2 * u + i) 8 4)]) (if r = 0 then setSlotOk u i 1 c else c)) c

/-- An activation starts (R513): of unit 0 the follower restarts first, or the lead when it runs alone (log entry 22). -/
def actStart (m : Cmd) (u i : Nat) (c : Chip) : Chip :=
  let l := c.rget PWR PWR_MGR_LEAD
  let now := if mcUp c (1 - l) then 1 - l else l
  let a : Activation := { car := m.car, seq := m.seq, unit := u, image := i, now := if u = 0 then now else 0 }
  let c := ((c.rput MGT MGT_FW_ACTIVE 1).rput MGT MGT_FW_ACTIVE_UNIT u).putCmd { m with wait := .activation u }
  let c : Chip := { c with hedge := { c.hedge with act := some a } }
  if u = 0 then actRestart now c else c

/-- FW_ACTIVATE (R512, R513): it starts the activation; of units 1 and 2 it is applied again as the last step ends, and new records of the
ports then carry the image's FW_EPOCH (log entry 22). -/
def fwActivateStep (k : Carrier) (seq : Nat) (c : Chip) : Chip :=
  match control k seq 0xF 9 c with
  | some m =>
    let u := m.par 44 1
    let i := m.par 45 1
    if c.hedge.act.isSome || !slotOk c u i then busyRefused m c else actStart m u i c
  | none =>
    match c.hedge.act with
    | some a =>
      if a.unit = 0 || a.back || a.car ≠ k || a.seq != seq then c
      else
        let c := actDone a c
        if a.unit = 2 then (List.range 9).foldl (fun c p => concordSendStep p c) c else c
    | none => c

/-! ### RESET_FUNCTION -/

/-- The engine instance of SCOPE 1 (R507); the dispatch is class 5. -/
def resetEngine (h i : Nat) : Engine :=
  if i = 0 then ⟨1, h, 0⟩ else if i ≤ 16 then ⟨2, h, i - 1⟩ else if i ≤ 80 then ⟨3, h, i - 17⟩ else if i ≤ 96 then ⟨4, h, i - 81⟩
  else if i = 97 then ⟨5, h, 0⟩ else ⟨0xE, h, i - 98⟩

/-- A command in execution that a reset of an instance reaches (R507). -/
def resetHits (c : Chip) (e : Engine) (m : Cmd) : Bool :=
  match e.cls with
  | 3 => m.holds && m.cls == 3 && c.drill.launches.any (fun l => decide (m.car = .queue l.q) && l.seq == m.seq && l.half == e.half &&
      l.blocks.any (fun b => b.core == e.idx && !b.exited))
  | 5 => m.holds && (m.cls == 5 || m.claims.contains ⟨5, 0, 0⟩)
  | _ => m.uses e

/-- The error and control fields of a register at an offset take their reset values; counters and maps stay (R507) (log entry 21). -/
def clearFields (o : Nat) (c : Chip) : Chip :=
  match regAt o with
  | none => c
  | some (p, r) =>
    c.setReg o (BitVec.ofNat 64 (r.flds.foldl (fun x f =>
      if f.acc = .rw || decide (f.acc = .w1c) then setBits x f.lo f.w (rstVal p o f) else x) (c.reg o).toNat))

/-- The registers that a reset of an instance clears (R148, R214, R245, R551); a queue processor's says that it was reset (R552). -/
def clearInst (e : Engine) (c : Chip) : Chip :=
  match e.cls with
  | 1 => clearFields (FUR e.half + FUR_ERR_RERUN.off) (clearFields (FUR e.half + FUR_CTL_IDLE_STOP.off) c)
  | 2 => clearFields (HAR e.half e.idx + HAR_ERR_RERUN.off) (clearFields (HAR e.half e.idx + HAR_CTL_IDLE_GATE.off) c)
  | 3 => clearFields (DRL e.half e.idx + DRL_ERR_RERUN.off) (clearFields (DRL e.half e.idx + DRL_CTL_IDLE_GATE.off) c)
  | 4 => clearFields (DMA e.half e.idx + DMA_ERR_RERUN.off) c
  | 0xE => c.rput (QPB e.half) QPR_ERR_RESET 1
  | _ => c

/-- Unit code of an engine class in the event log (R501). -/
def clsUnit (cls : Nat) : Nat := if cls = 0xE then 0x0C else if cls = 5 then 0x0A else cls

/-- An engine instance is reset (R507) (log entry 21). -/
def engineReset (i : Nat) (e : Engine) (c : Chip) : Chip :=
  let ms := c.cmds.filter (resetHits c e)
  let r := ms.foldl (fun (acc : Nat × Chip) m =>
    match acc.2.findCmd m.car m.seq with
    | some m => let a := abortCmd 5 true m acc.2; (acc.1 + b2n a.1, a.2)
    | none => acc) (0, c)
  let c := r.2.setEngine e { r.2.engine e with upset := false }
  (clearInst e c).logEvent 0x0021 2 (clsUnit e.cls) e.half e.idx i r.1

/-- RESET_FUNCTION (R401, R431, R505 to R507) (log entry 21). -/
def resetFunctionStep (k : Carrier) (seq : Nat) (c : Chip) : Chip :=
  mgmtRow k seq 0xA (fun m c =>
    let i := m.par 34 1
    let count := fun (c : Chip) => c.rcount MGT MGT_ENGINE_RESETS 1
    match m.par 32 1 with
    | 0 =>
      let on := c.rget CPLX HST_CPLX_STATUS_STATE == 1
      if on then hostDown 4 0 (c.putCmd { m with wait := .hostReset }) else finish m doneRes c
    | 1 =>
      let c := engineReset i (resetEngine (m.par 33 1) i) (count c)
      finish ((c.findCmd k seq).getD m) doneRes c
    | 2 => portReset i ((count (c.putCmd { m with wait := .aihalPort i })).logEvent 0x0022 2 0x0F (i % 2) i i 0)
    | _ => pcxPortReset i ((count (c.putCmd { m with wait := .portReset i })).logEvent 0x0022 2 0x10 i i i 1)) c

/-- PORT_RESET_TIMEOUT (R431, R506): 100 ms after a port's reset with its link not up. -/
def portResetTimeoutStep (aihal : Bool) (p : Nat) (c : Chip) : Chip :=
  if aihal then endWaits (.aihalPort p) c else pcxResetOver p c

end Sys2Proof.Machine
end

