-- ==== Sys2Proof/Machine/Errors.lean ====
section
/-! DEFINITION. Errors that the hardware detects by itself (R143, R263, R277, R279, R310, R320, R327, R377, R400, R409, R498 to R500, R503,
R509 to R511, R553). -/

namespace Sys2Proof.Machine

open Sys2Proof

/-! ### Engines -/

/-- The error bit of a part of an engine's own storage (R148, R214, R245, R551, R552) (log entry 33). -/
def storeBit (e : Engine) (store : Nat) : Option (Nat × Fld) :=
  match e.cls, store with
  | 1, 0 => some (FUR e.half, FUR_ERR_FEED_PARITY)
  | 1, 1 => some (FUR e.half, FUR_ERR_PLANE_PARITY)
  | 2, 0 => some (HAR e.half e.idx, HAR_ERR_REG_PARITY)
  | 2, 1 => some (HAR e.half e.idx, HAR_ERR_ROWBUF_PARITY)
  | 3, 0 => some (DRL e.half e.idx, DRL_ERR_REG_PARITY)
  | 3, 1 => some (DRL e.half e.idx, DRL_ERR_LOCAL_PARITY)
  | 3, _ => some (DRL e.half e.idx, DRL_ERR_L1_PARITY)
  | 4, 0 => some (DMA e.half e.idx, DMA_ERR_BUF_PARITY)
  | 0xE, 0 => some (QPB e.half, QPR_ERR_SRAM_PARITY)
  | _, _ => none

/-- Parity of an engine's own storage (R143, R212, R243): what runs there meets it; a Drill core's L1 lines are fetched again (log entries 33, 61). -/
def engineParity (e : Engine) (store : Nat) (c : Chip) : Chip :=
  match storeBit e store with
  | none => c
  | some b =>
    let c := c.rput b.1 b.2 1
    let runs := if e.cls = 3 then !(coreBlocks c e.half e.idx).isEmpty else c.busy e
    if runs && e.cls ≤ 4 && !(e.cls == 3 && store ≥ 2) then c.setEngine e { c.engine e with upset := true } else c

/-- Parity of a Gleaner's buffer (R310): it worked for one of the commands that run on its stack. -/
def gleanerParity (h n : Nat) (c : Chip) : Chip :=
  let c := c.rput (INF h n) INF_GLN_ERR_BUF_PARITY 1
  let r := c.pick (c.cmds.filter (fun m => decide (m.phase = .executing) && m.cls == 5 && (glnStacks m c).contains ⟨0x15, h, n⟩))
  match r.1 with
  | some m => r.2.putCmd { m with upset := true }
  | none => r.2

/-! ### Memory -/

/-- One second in nanoseconds. -/
def secNs : Nat := 1000000000

/-- A parity or link retry of an access path (R274, R275, R521); a path that fails is put out of service (R283). -/
def memRetry (k path : Nat) (failed : Bool) (c : Chip) : Chip :=
  let p := k * 64 + path
  let c := c.rput (pathBlock p) (if dkInf k then INF_ERR_LINK_RETRY else OUT_ERR_LINK_RETRY) 1
  let l := (((c.srv.retried.find? (fun x => x.1 == k)).map (fun x => x.2)).getD []).filter (fun t => c.time < t + secNs) ++ [c.time]
  let c : Chip := { c with srv := { c.srv with retried := c.srv.retried.filter (fun x => x.1 != k) ++ [(k, l)] } }
  if failed then devicesCheck (pathFailed p c) else if l.length > 1000 then tryRetrain (trainDue k c) else c

/-! ### The system cache and the host cores -/

/-- Times of the corrected errors of a cache way or a host core's L2 within 24 hours. -/
def histOf (c : Chip) (key : Nat) : List Nat := ((c.hedge.hist.find? (fun x => x.1 == key)).map (fun x => x.2)).getD []

/-- A corrected error added to a history (R409, R509). -/
def histNote (key : Nat) (c : Chip) : Chip :=
  { c with hedge := { c.hedge with hist := c.hedge.hist.filter (fun x => x.1 != key) ++ [(key, histAdd c.time (histOf c key))] } }

/-- A way is put fallow (R409): its lines, which of them the model leaves open, are recalled from the host cores; of the last two ways of a
slice only a capacity risk is raised (log entry 33). -/
def wayLost (h n way : Nat) (c : Chip) : Chip :=
  let b := SYC h n
  if bitAt (c.rget b SYC_WAYS_FALLOW) way then c
  else if c.rget b SYC_STATUS_FALLOW_WAYS ≥ 14 then c.logEvent 0x0003 2 0x09 h n way (16 - c.rget b SYC_STATUS_FALLOW_WAYS)
  else
    let c := stInterrupt (fun s => stOn [7] h s && s.index == n * 16 + way) c
    let c := (c.host.dir.filter (fun d => c.home (d.sec * 64) == (h, n))).foldl (fun c d =>
      let x := c.draw
      if x.1 % 2 = 0 then x.2.recall d.sec else x.2) c
    fallowPart ⟨.way, h, n * 16 + way, n * 16 + way⟩ true true c

/-- A corrected error of a slice (R409, R503): more than 4 of a way in 24 hours put it fallow. -/
def sycCorrected (h n addr way : Nat) (c : Chip) : Chip :=
  let c := (c.rput (SYC h n) SYC_ERR_CORRECTED 1).rcount (SYC h n) SYC_CORRECTED 1
  let key := (h * 16 + n) * 16 + way
  let c := histNote key c
  let k := (histOf c key).length
  let c := corrEvent 0x09 h n (addr / 256 * 256) k c
  if k = 5 then wayLost h n way (c.logEvent 0x0010 1 0x09 h n way k) else if k > 5 then wayLost h n way c else c

/-- An error of a slice's data that cannot be corrected (R409): a clean sector is filled again; a dirty one, which the model leaves open, is
written back as poisoned. The way is put fallow (log entry 33). -/
def sycLost (h n addr way : Nat) (c : Chip) : Chip :=
  let b := SYC h n
  let c := c.rput b SYC_ERR_UNCORR 1
  let c := if c.rget b SYC_ERR_ADDR_VALID = 1 then c else ((c.rput b SYC_ERR_ADDR_ADDR (addr / 256)).rput b SYC_ERR_ADDR_WAY way).rput b SYC_ERR_ADDR_VALID 1
  let d := c.draw
  let c := if d.1 % 2 = 1 then
      { d.2 with poison := insertNat (addr / 64) d.2.poison, memBad := d.2.memBad.filter (fun u => u != addr / 64) }.logEvent 0x0011 2 0x09 h n (addr / 64 * 64) 4
    else d.2
  wayLost h n way c

/-- A corrected error of a host core's L2 (R410, R509): with more than 16 in 24 hours the core is marked, and replaced as the complex is next
reset. -/
def hostL2 (hart : Nat) (c : Chip) : Chip :=
  let h := hart / 36
  let n := hart % 36
  let key := 512 + hart
  let c := histNote key (c.rput (hstBase hart) HST_ERR_L2_CORR 1)
  let k := (histOf c key).length
  let c := corrEvent 0x0D h n 0 k c
  if k ≤ 16 || hartOut c hart then c
  else
    let c := if k = 17 then c.logEvent 0x0010 1 0x0D h n (physOf c .hostCore h n) k else c
    awaitSpare ⟨.hostCore, h, n, physOf c .hostCore h n⟩ c

/-- A sector of a host core's L2 that cannot be corrected (R410, R498): a modified one is written back as poisoned; another is fetched again (log entry 34). -/
def hostSector (hart sec : Nat) (c : Chip) : Chip :=
  match c.host.copies.find? (fun x => x.hart == hart && x.sec == sec) with
  | none => c
  | some x =>
    if x.hold ≠ .modified then c.rput (hstBase hart) HST_ERR_L1_CORR 1
    else
      let c := setDir sec false 0 (dropCopy hart sec (writeBack { x with poison := true } c))
      (c.rput (hstBase hart) HST_ERR_L2_POISON 1).logEvent 0x0011 2 0x0D (hart / 36) (hart % 36) (sec * 64) 4

/-! ### Other blocks -/

/-- A look-aside or pointer-cache entry failed parity, and was dropped (R361) (log entry 33). -/
def xltParity (h : Nat) (c : Chip) : Chip :=
  let c := c.rput (XLT h) XLT_ERR_CACHE_PARITY 1
  let r := c.pick (c.xlt.tlb.map (fun t => (some t, none)) ++ c.xlt.ptrs.map (fun p => (none, some p)))
  match r.1 with
  | some (some t, _) => { r.2 with xlt := { r.2.xlt with tlb := r.2.xlt.tlb.filter (fun x => x != t) } }
  | some (_, some p) => { r.2 with xlt := { r.2.xlt with ptrs := r.2.xlt.ptrs.filter (fun x => x != p) } }
  | _ => r.2

/-- A run of the store was uncorrectable, and was walked again from the tables (R361) (log entry 33). -/
def storeRun (h : Nat) (c : Chip) : Chip :=
  let c := c.rput (XLT h) XLT_ERR_STORE_ERR 1
  let r := c.pick (c.cmds.filter (fun m => !m.pages.isEmpty && (match m.car with
    | .queue q => q % 2 == h
    | _ => false)))
  match r.1 with
  | none => r.2
  | some m =>
    let d := r.2.draw
    let i := d.1 % m.pages.length
    match m.pages[i]? with
    | none => d.2
    | some p =>
      let x := xlatePage m.half m.ctx (d.2.ctxDesc m.ctx).ptRoot p d.2
      x.2.putCmd { m with pages := setNth m.pages i x.1 }

/-- A unit of the exchange store was uncorrectable (R327): it reaches its destination poisoned as its migration ends; units from 1,024 on
are of the second frame (log entry 33). -/
def exchangeStore (i unit : Nat) (c : Chip) : Chip :=
  match c.srv.migs.find? (fun m => m.id == i && m.started) with
  | none => c
  | some m => (putMig { m with bad := insertNat unit m.bad } c).rput (SRV m.half) SRV_ERR_STORE_ERR 1

/-- A part that meets the condition under which it is put fallow (R509) (log entry 34). -/
def partFails (pt : Part) (c : Chip) : Chip :=
  let h := pt.half
  let held := fun (s : SliceTest) => s.half == h && (match pt.kind with
    | .drillCore => s.kind == 2 && s.phys == pt.phys
    | .harrow => s.kind == 3 && s.index == pt.inst
    | .mover => s.kind == 4 && s.index == pt.inst
    | .queueProc => s.kind == 5 && s.index == pt.inst
    | .bankGroup => s.kind == 6
    | .gleaner => s.kind == 8 && s.index / 4 == pt.inst && s.index % 4 / 2 == pt.phys % 4 / 2
    | _ => false)
  let c := stInterrupt held c
  match pt.kind with
  | .bankGroup =>
    if c.rget (SBD h) SBD_MAP_SPARE_IN_USE = 1 || c.bank.moving.any (fun e => e.1 == h) then c.logEvent 0x0003 2 0x08 h 0 pt.inst 0
    else { c with bank := { c.bank with moving := c.bank.moving ++ [(h, (pt.inst, false))] } }.rput (SBD h) SBD_STATUS_MOVE_ACTIVE 1
  | .way => wayLost h (pt.inst / 16) (pt.inst % 16) c
  | _ => fallowPart pt false true c

/-! ### Commands -/

/-- ERROR_REPORT (R498 to R500, R503, R509): an error detected while the module is powered (log entry 33). -/
def errorReportStep (e : ErrorIn) (c : Chip) : Chip :=
  if c.hedge.step < 8 then c
  else match e with
  | .engine e s => engineParity e s c
  | .sbdWord h o => { c with sbdBad := insertNat (sbdKey h o / 4) c.sbdBad }
  | .sbdRead h o => { c with sbdSlip := insertNat (sbdKey h o / 4) c.sbdSlip }
  | .memCorrected a pos => memCorrect (c.place (a / 65536)) a pos c
  | .memLost a => { c with memBad := insertNat (a / 64) c.memBad }
  | .memRetry d path failed => memRetry (devKey d) path failed c
  | .semCorrected s => corrEvent 0x05 (s / 131072) 0 (s % 131072) 1 (c.rput (YOK (s / 131072)) YOK_ERR_CORRECTED 1)
  | .semLost s => c.setSem (s / 131072) (s % 131072) { c.sem (s / 131072) (s % 131072) with bad := true }
  | .sycCorrected h n a w => sycCorrected h n a w c
  | .sycLost h n a w => sycLost h n a w c
  | .dirCorrected h n => corrEvent 0x09 h n 0 1 ((c.rput (SYC h n) SYC_ERR_DIR_CORR 1).rcount (SYC h n) SYC_CORRECTED 1)
  | .dirLost h n => hostDown 2 0 (c.rput (SYC h n) SYC_ERR_DIR_UNCORR 1)
  | .xltCache h => xltParity h c
  | .xltStore h => storeRun h c
  | .srvStore i u => exchangeStore i u c
  | .plotCopy h => c.rput (SRV h) SRV_ERR_MAP_COPY 1
  | .qpSram h n => engineParity ⟨0xE, h, n⟩ 0 c
  | .hostL1 n => corrEvent 0x0D (n / 36) (n % 36) 0 1 (c.rput (hstBase n) HST_ERR_L1_CORR 1)
  | .hostL2 n => hostL2 n c
  | .hostSector n s => hostSector n s c
  | .gleaner h n => gleanerParity h n c
  | .part p => partFails p c

/-- BALK_LINK_ERROR (R395, R400, R500, R509, R553): of the direction that leaves half h. A module of the link that fails is taken by a
spare, or is lost (log entry 34). -/
def balkLinkErrorStep (h : Nat) (k : BalkErr) (c : Chip) : Chip :=
  if c.hedge.step < 8 then c
  else
    let b := BLK h
    match k with
    | .lane => corrEvent 0x0E h 0 0 1 (c.rput b BLK_ERR_LANE_REPAIRED 1)
    | .frame => corrEvent 0x0E h 0 0 (c.rget b BLK_REPLAYS + 1) ((c.rput b BLK_ERR_REPLAY 1).rcount b BLK_REPLAYS 1)
    | .linkModule =>
      let r := c.pick ((List.range 22).filter (fun i => !(c.hedge.nvParts ++ c.hedge.repl).any (fun p => decide (p.kind = .balkModule) && p.inst == i)))
      match r.1 with
      | some i => fallowPart ⟨.balkModule, h, i, i⟩ false true r.2
      | none => r.2
    | .poison => c.rcount b BLK_POISON 1
    | .coherence => hostDown 3 0 (c.rput b BLK_ERR_COH_UNCORR 1)

end Sys2Proof.Machine
end

