-- ==== Sys2Proof/Machine/Paths.lean ====
section
/-! DEFINITION. The management paths (R86 to R89, R419, R554, R555): SMBus, the management Ethernet and the mailbox; and answers to ARP. -/

namespace Sys2Proof.Machine

open Sys2Proof

/-! ### A request on a path -/

/-- Commands carried out while only the hedgerow domains are powered (R89); REG_READ and REG_WRITE check their range as they run. -/
def standbyOk (m : Cmd) : Bool :=
  m.cls == 0xF && (m.op == 1 || m.op == 2 || m.op == 3 || m.op == 4 || m.op == 0xB || m.op == 0xC || (m.op == 8 && m.par 44 1 == 0))

/-- A record that answers a request at once, without data (R40). -/
def pathAnswer (k : Carrier) (from_ : Option NetFrom) (rec : List Byte) (c : Chip) : Chip :=
  match k, from_ with
  | .net s, some f => netSend s f rec c
  | .net _, none => c
  | k, _ => c.setPath k { c.path k with busy := false, reply := rec, cursor := 0 }

/-- A request that is not newer than the last (R40, R88): a repeat, or one whose first outcome is unknown (log entry 23). -/
def pathRepeat (k : Carrier) (from_ : Option NetFrom) (seq cls : Nat) (c : Chip) : Chip :=
  let x := c.path k
  let rec_ := fun (st : Nat) (d : List Byte) => recordBytes c seq st (engByte cls 0) 0xFF d
  match x.window.find? (fun s => s.seq == seq) with
  | none => pathAnswer k from_ (rec_ sDupSupp (setDflag (detail []) 1)) c
  | some s =>
    match s.res with
    | some r => pathAnswer k from_ (rec_ r.status (setDflag r.detail 0)) c
    | none =>
      match from_ with
      | some f => c.setPath k { x with senders := x.senders ++ [{ f with dup := true }] }
      | none => c

/-- A command enters on a path (R88), and waits to issue; MALFORMED and BUSY_REFUSED end it at once (R68, R89) (log entry 23). -/
def pathEnter (k : Carrier) (from_ : Option NetFrom) (bytes : List Byte) (c : Chip) : Chip :=
  let x := c.path k
  let seq := leAt bytes 4 4
  let m : Cmd := { car := k, seq := seq, ord := 2 * c.gord, gord := c.gord, bytes := bytes, ctx := 65536, priv := true, half := c.rget PWR PWR_MGR_LEAD }
  let c := c.setPath k { x with last := some seq, window := windowPush x.window ⟨seq, none⟩, busy := true, reply := [], cursor := 0,
                                used := c.time, senders := x.senders ++ from_.toList }
  let c : Chip := { c with cmds := c.cmds ++ [m], gord := c.gord + 1 }
  if !paramsOk c m || m.preWaitField != 0 then retire m malformedRes (rejectLog (carPath k) m c)
  else if !c.up && !standbyOk m then retire m (mkRes sBusy []) c
  else c

/-- A request arrives on a path: one whose header fails its check is discarded; the others go by their SEQ (R40, R66, R88) (log entry 23). -/
def pathAccept (k : Carrier) (from_ : Option NetFrom) (bytes : List Byte) (c : Chip) : Chip :=
  if headerCheck (bytes.take 16) ≠ 0 || bytes.length != 64 * leAt bytes 3 1 then c
  else
    let seq := leAt bytes 4 4
    let newer := match (c.path k).last with
      | some l => seqNewer seq l
      | none => true
    if newer then pathEnter k from_ bytes c else pathRepeat k from_ seq (bits (leAt bytes 0 2) 12 4) c

/-- The lead controller serves the paths (log entry 23). -/
def pathsServed (c : Chip) : Bool := c.hedge.standby && leadUp c

/-! ### SMBus -/

/-- SMBUS_REQUEST (R86): a Block Write with code 0xC0 (log entry 24). -/
def smbusRequestStep (pec : Bool) (bytes : List Byte) (c : Chip) : Chip :=
  let len := leAt bytes 3 1
  if !pathsServed c || (c.path .smbus).busy || !pec || len < 1 || len > 3 || bytes.length != 64 * len then c.emit (.smbus false [])
  else pathAccept .smbus none bytes (c.emit (.smbus true []))

/-- SMBUS_REPLY_READ (R86): a Block Read with code 0xC1 (log entry 24). -/
def smbusReplyReadStep (c : Chip) : Chip :=
  if !pathsServed c then c.emit (.smbus false [])
  else
    let x := c.path .smbus
    let l := if x.busy then [] else (x.reply.drop x.cursor).take 255
    if l.isEmpty then c.emit (.smbus true [1, 0xFF])
    else (c.setPath .smbus { x with cursor := x.cursor + l.length }).emit (.smbus true (BitVec.ofNat 8 l.length :: l))

/-! ### The mailbox -/

/-- MBX_STATE (R419) (log entry 25). -/
def mbxState (c : Chip) (p : Nat) : Nat := if (c.path (.mailbox p)).busy then 1 else if (c.path (.mailbox p)).reply.isEmpty then 0 else 2

/-- The command in a mailbox is submitted (R419). The offset that the log shows for one that is ignored is open: it lies in no register (log entry 25). -/
def mailboxSubmitNow (p : Nat) (c : Chip) : Chip :=
  let x := c.path (.mailbox p)
  if x.busy then
    let d := c.draw
    accLog 0 (d.1 % 2 ^ 28) .other (.mailbox p) d.2
  else if !pathsServed c then c
  else
    let b := x.buf ++ List.replicate (320 - x.buf.length) 0
    pathAccept (.mailbox p) none (b.take (64 * leAt b 3 1)) c

/-- MAILBOX_SUBMIT (R419): offset 0x1000 of function 1 written with 1 (log entry 25). -/
def mailboxSubmitStep (p : Nat) (c : Chip) : Chip := if isEp c p && pcxUp c p then mailboxSubmitNow p c else c

/-! ### The management Ethernet -/

/-- Four words of an IPv6 address from a register offset on (log entry 19). -/
def ipWords (c : Chip) (b o : Nat) : Nat := sumNat ((List.range 4).map (fun i => c.rget b ⟨o + 4 * i, 0, 32⟩ * 2 ^ (32 * i)))

/-- The module's own management address (R554). -/
def netAddr (c : Chip) : Nat := if c.rget NET MGT_NET_CTL_IPV6 = 1 then ipWords c NET 0x20 else c.rget NET MGT_NET_IP4

/-- Entry n of the allow list admits an address (R554, R555). -/
def allows (c : Chip) (v6 : Bool) (a n : Nat) : Bool :=
  let o := 0x100 + 0x20 * n
  let w := if v6 then 128 else 32
  let e := if v6 then ipWords c NET o else c.rget NET ⟨o, 0, 32⟩
  let s := 2 ^ (w - min w (c.rget NET ⟨o + 0x10, 0, 8⟩))
  c.rget NET ⟨o + 0x10, 8, 1⟩ == 1 && (c.rget NET ⟨o + 0x10, 9, 1⟩ == 1) == v6 && a / s == e / s

/-- The envelope of a request (R87) (log entry 26). -/
def envelopeOk (b : List Byte) : Bool := leAt b 0 2 == 0x4E4B && leAt b 2 1 == 1 && !bitAt (leAt b 3 1) 0

/-- Sessions of the Ethernet path. -/
def sessions (c : Chip) : List (Nat × PathSt) := c.paths.filterMap (fun e => match e.1 with
  | .net s => some (s, e.2)
  | _ => none)

/-- A session is idle: none of its commands executes (log entry 26). -/
def idleSession (c : Chip) (s : Nat) : Bool := !c.cmds.any (fun m => decide (m.car = .net s))

/-- The one of some sessions used longest ago (log entry 26). -/
def oldest (l : List (Nat × PathSt)) : Option Nat :=
  (l.foldl (fun (b : Option (Nat × PathSt)) x => match b with
    | none => some x
    | some y => if x.2.used < y.2.used then some x else some y) none).map (fun x => x.1)

/-- A new session takes the place of the one idle longest when there are 16 (R88) (log entry 26). -/
def makeSession (s : Nat) (c : Chip) : Chip :=
  let l := sessions c
  if l.any (fun x => x.1 == s) || l.length < 16 then c
  else match (oldest (l.filter (fun x => idleSession c x.1))).orElse (fun _ => oldest l) with
  | some old =>
    let c := if idleSession c old then c else renameCar (.net old) (lostCar c 0) c
    { c with paths := c.paths.filter (fun e => !decide (e.1 = .net old)) }
  | none => c

/-- MGT_DATAGRAM (R87, R88, R555) (log entry 26). -/
def mgtDatagramStep (d : Datagram) (c : Chip) : Chip :=
  if !pathsServed c || c.rget NET MGT_NET_CTL_ENABLE == 0 || d.v6 != (c.rget NET MGT_NET_CTL_IPV6 == 1) then c
  else
    let cmd := d.bytes.drop 16
    let ok := (List.range 16).any (allows c d.v6 d.src) && envelopeOk d.bytes && cmd.length ≥ 16 && cmd.length == 64 * leAt cmd 3 1
    if !ok then c.rcount NET MGT_NET_DISCARDED 1
    else
      let s := leAt d.bytes 4 4
      let c := makeSession s (c.rcount NET MGT_NET_ACCEPTED 1)
      let c := c.setPath (.net s) { c.path (.net s) with used := c.time }
      pathAccept (.net s) (some ⟨leAt cmd 4 4, false, d.v6, d.src, d.mac, d.sport⟩) cmd c

/-! ### ARP -/

/-- The address of an encapsulated port (R451): the prefix in force and the node identifier. -/
def encapAddr (c : Chip) : Nat :=
  if c.rget AIH AIH_ENCAP_CUR_IPV6 = 1 then ipWords c AIH AIH_IP6_PREFIX0_CUR_PREFIX.off / 2 ^ 24 * 2 ^ 24 + c.node
  else c.rget AIH AIH_ENCAP_CUR_IP4_PREFIX * 2 ^ 24 + c.node

/-- ARP_REQUEST (R451, R555): the module answers for its own address only, to the sender's MAC address. -/
def arpRequestStep (r : ArpReq) (c : Chip) : Chip :=
  if r.port = 9 then
    if pathsServed c && c.rget NET MGT_NET_CTL_ENABLE == 1 && r.v6 == (c.rget NET MGT_NET_CTL_IPV6 == 1) && r.target == netAddr c then
      c.emit (.arp 9 r.v6 r.target (c.rget NET MGT_NET_MAC) r.mac)
    else c
  else if portState c r.port == 4 && c.rget (AIHP r.port) AIH_PORT_STATUS_USE == 3 && r.v6 == (c.rget AIH AIH_ENCAP_CUR_IPV6 == 1) && r.target == encapAddr c then
    c.emit (.arp r.port r.v6 r.target (c.rget (AIHP r.port) AIH_PORT_MAC) r.mac)
  else c

/-! ### The presence contact -/

/-- MODULE_WITHDRAWN (R436, R437): the presence contact opens, and the Stile goes to JOINED. -/
def moduleWithdrawnStep (c : Chip) : Chip := stileCheck { c with fab := { c.fab with withdrawn := true } }

end Sys2Proof.Machine
end

