-- ==== Sys2Proof/Machine/Pcie.lean ====
section
/-! DEFINITION. Requests on the PCI Express ports (R414 to R433, R519, R539): inbound through windows, BARs and the message page, and those
of host cores going out. -/

namespace Sys2Proof.Machine

open Sys2Proof

/-! ### Completions -/

/-- A completion of an inbound request: status 0 success, 1 Unsupported Request, 4 Completer Abort (R428). -/
def complete (r : InboundReq) (status : Nat) (ep : Bool) (bs : List Byte) (c : Chip) : Chip :=
  (c.emit (.pcxCpl r.port r.tag status ep bs)).rcount (PCX r.port) PCX_IN_RD_BYTES bs.length

/-- A non-posted request that no part of the module serves (log entry 29). -/
def unsupported (r : InboundReq) (c : Chip) : Chip := complete r 1 false [] c

/-- An inbound request passes the link only while it is up. -/
def inLive (c : Chip) (r : InboundReq) : Bool := c.hedge.standby && pcxUp c r.port

/-! ### Windows -/

/-- An inbound window (R420, R433). -/
structure InWin where
  n : Nat
  base : Nat
  size : Nat
  place : Nat
  rights : Nat
  tgt : Nat
  ctx : Nat

/-- Inbound window n of a port as its registers stand. -/
def inWin (c : Chip) (p n : Nat) : InWin :=
  let g := fun (o lo w : Nat) => c.rget (PCX p) (winFld n o lo w)
  ⟨n, g 0 16 48 * 65536, g 0x10 0 26 * 65536, g 8 16 32 * 65536, g 0x14 1 3, g 0x14 4 2, g 0x14 16 16⟩

/-- The valid window of lowest number that holds every byte of a request (R420, step 1); one of TARGET 3 is none (log entry 29). -/
def findWin (c : Chip) (p a n : Nat) : Option InWin :=
  ((List.range 64).find? (fun i =>
    c.rget (PCX p) (winFld i 0x14 0 1) == 1 && (let w := inWin c p i; w.tgt != 3 && w.base ≤ a && a + n ≤ w.base + w.size))).map (inWin c p)

/-- The window and target of a request, or why it has none (R420, steps 2 and 3): 1 no window, 2 rights, 3 not backed. Rights are bit 0
read, bit 1 write, bit 2 atomic. -/
inductive InHit
  | noWin
  | rights (w : InWin) (t : Nat)
  | unbacked (w : InWin) (t : Nat)
  | ok (w : InWin) (t : Nat)

/-- What an inbound request of n bytes at bus address a that needs a right finds (R420). -/
def inHit (c : Chip) (p a n right : Nat) : InHit :=
  match findWin c p a n with
  | none => .noWin
  | some w =>
    let t := w.place + (a - w.base)
    if !bitAt w.rights right || (right == 2 && w.tgt != 0) then .rights w t
    else if (if w.tgt = 0 then backed t n else decide (t + n ≤ sbdSize)) then .ok w t
    else .unbacked w t

/-- The place of a byte of a window's target. -/
def inLoc (w : InWin) (t : Nat) : Loc := if w.tgt = 0 then .frame t else .sbd (w.tgt - 1) t

/-! ### Writes -/

/-- A posted write through the windows (R420, R421, R427). -/
def winWrite (r : InboundReq) (c : Chip) : Chip :=
  let n := r.data.length
  match inHit c r.port r.addr n 1 with
  | .noWin => inFailed r.port PCX_ERR_IN_NOWIN r.addr c
  | .rights w t => writeFailed r.port w.n r.req w.ctx t 2 sAccess [(8, 1, 5), (9, 1, 0xFF)] (inFailed r.port PCX_ERR_IN_RIGHTS r.addr c)
  | .unbacked w _ => writeFailed r.port w.n r.req w.ctx r.addr 1 sUnmapped [(8, 1, 1), (9, 1, 0xFF)] (inFailed r.port PCX_ERR_IN_UNBACKED r.addr c)
  | .ok w t =>
    let src := if w.tgt = 0 then c.srcOf t else 3
    let c := if r.poison then writeFailed r.port w.n r.req w.ctx t 3 sPoisoned [(8, 1, src), (9, 1, 0xFF)] (inFailed r.port PCX_ERR_IN_POISON r.addr c) else c
    let ps := (chunks 256 t n).map (fun u => (⟨r.req, w.tgt, u.1, (r.data.drop (u.1 - t)).take u.2, r.poison, w.n, w.ctx, r.addr⟩ : Posted))
    let x := c.port r.port
    drainSome r.port (c.setPcx r.port { x with posted := x.posted ++ ps })

/-- Bytes of the mailbox buffer (R419). -/
def mbxBuf : Nat := 320

/-- A write to the mailbox (R419): the buffer takes bytes at once, and a 32-bit 1 at 0x1000 submits them; a write to any other offset has
no effect (log entry 25). -/
def mailboxWrite (p o : Nat) (bs : List Byte) (c : Chip) : Chip :=
  if o + bs.length ≤ mbxBuf then
    let x := c.path (.mailbox p)
    c.setPath (.mailbox p) { x with buf := putBytes (x.buf ++ List.replicate (mbxBuf - x.buf.length) 0) o bs }
  else if o = 0x1000 && bs.length == 4 && leNat bs == 1 then mailboxSubmitNow p c
  else c

/-- A 32-bit write of a queue page (R35, R539). -/
def pageWord (path : Path) (q o v : Nat) (c : Chip) : Chip :=
  if !c.up then accLog 1 (q * 64 + o) .other path c
  else if o < 8 then accLog 1 (q * 64 + o) .narrow path c
  else if o = 0x1C then qprCqConsumedStep path q 4 v c
  else if o = 0x24 then qprEqConsumedStep path q 4 v c
  else if o ≥ 0x28 then accLog 1 (q * 64 + o) .reserved path c
  else c

/-- A write of a queue page at any offset and size (R35, R539, R541, R542). -/
def pageStore (path : Path) (q o size v : Nat) (c : Chip) : Chip :=
  if !accessFits o size then accLog 1 (q * 64 + o) .rejected path c
  else if size = 8 then
    (if o = 0 then qprDoorbellStep path q 8 v c
     else if !c.up then accLog 1 (q * 64 + o) .other path c
     else pageWord path q (o + 4) (bits v 32 32) (pageWord path q o (bits v 0 32) c))
  else if size = 4 then pageWord path q o (bits v 0 32) c
  else if !c.up then accLog 1 (q * 64 + o) .other path c
  else accLog 1 (q * 64 + o) (if o ≥ 0x28 then .reserved else .narrow) path c

/-- A message at the page of PCX_MSI_BASE (R424): the interrupt waits for the requester's earlier writes. -/
def msiNow (p req data : Nat) (c : Chip) : Chip := (drainReq p req c).raiseVector (bits data 0 15)

/-- An address lies in the message page of a root port (R424). -/
def msiPage (c : Chip) (p a : Nat) : Bool :=
  !isEp c p && c.rget (PCX p) PCX_MSI_BASE_ENABLE == 1 && a / 4096 == c.rget (PCX p) PCX_MSI_BASE_BASE

/-- A write to a root port (R420, R424) (log entry 29). -/
def rootWrite (r : InboundReq) (c : Chip) : Chip :=
  if msiPage c r.port r.addr then
    (if r.data.length ≠ 4 || r.addr % 4 != 0 then inFailed r.port PCX_ERR_IN_NOWIN r.addr c
     else if r.poison then inFailed r.port PCX_ERR_IN_POISON r.addr c
     else msiNow r.port r.req (leNat r.data) c)
  else winWrite r c

/-- A write to an endpoint (R418, R419): a poisoned one to registers or the mailbox is dropped (log entry 29). -/
def epWrite (r : InboundReq) (c : Chip) : Chip :=
  let n := r.data.length
  let o := r.addr
  if r.fn = 0 && r.bar == 4 then (if o + n ≤ 2 ^ 42 then winWrite r c else inFailed r.port PCX_ERR_IN_NOWIN o c)
  else if r.poison then inFailed r.port PCX_ERR_IN_POISON o c
  else if r.fn = 1 then (if r.bar = 0 && o + n ≤ 0x2000 then mailboxWrite r.port o r.data c else c)
  else if r.bar = 0 then (if o + n ≤ 0x10000000 then regWriteNow (.pcx r.port) o n (leNat r.data) c else c)
  else if o + n ≤ 2 ^ 26 then pageStore (.pcx r.port) (o / 64) (o % 64) n (leNat r.data) c
  else c

/-- PCX_INBOUND_WRITE (R418 to R421, R424, R427). -/
def pcxInboundWriteStep (r : InboundReq) (c : Chip) : Chip :=
  if !inLive c r || r.data.isEmpty then c
  else
    let c := c.rcount (PCX r.port) PCX_IN_WR_BYTES r.data.length
    if isEp c r.port then epWrite r c else rootWrite r c

/-- PCX_MSI_RECEIVE (R424): a 32-bit write to the message page. -/
def pcxMsiReceiveStep (p req a data : Nat) (c : Chip) : Chip :=
  if c.hedge.standby && pcxUp c p && msiPage c p a && a % 4 == 0 then msiNow p req data (c.rcount (PCX p) PCX_IN_WR_BYTES 4) else c

/-! ### Reads -/

/-- What n bytes of a place that do not cross a unit come to: bytes, and the kind of error in the unit (R278, R279, R428). -/
def readUnit (l : Loc) (n : Nat) (c : Chip) : List Byte × Option Nat × Chip :=
  let c := match l with
    | .frame a => c.touch a
    | _ => c
  let b := locBad l n c
  let at_ := fun (i : Nat) => match l with
    | .frame a => b.2.rdByte (a + i)
    | .sbd h o => b.2.rdSbd h (o + i)
    | .none => 0
  ((List.range n).map at_, b.1.map (fun x => x.1), b.2)

/-- A read through the windows (R420, R422, R428). -/
def winRead (r : InboundReq) (c : Chip) : Chip :=
  let c := drainReq r.port r.req c
  match inHit c r.port r.addr r.size 0 with
  | .noWin => unsupported r (inFailed r.port PCX_ERR_IN_NOWIN r.addr c)
  | .rights _ _ => unsupported r (inFailed r.port PCX_ERR_IN_RIGHTS r.addr c)
  | .unbacked _ _ => unsupported r (inFailed r.port PCX_ERR_IN_UNBACKED r.addr c)
  | .ok w t =>
    let x := (chunks 64 t r.size).foldl (fun (x : List Byte × List Nat × Chip) u =>
      let y := readUnit (inLoc w u.1) u.2 x.2.2
      (x.1 ++ y.1, x.2.1 ++ y.2.1.toList, y.2.2)) ([], [], c)
    let c := x.2.2
    if x.2.1.isEmpty then complete r 0 false x.1 c
    else complete r 0 true x.1 (if x.2.1.contains sUncorr then inFailed r.port PCX_ERR_IN_UNCORR r.addr c else failNote r.port r.addr c)

/-- A word of the MSI-X table or the pending bits of a port's function 0 (R418). -/
def msixWord (c : Chip) (p o : Nat) : Nat :=
  let x := c.port p
  if !c.up then 0
  else if 0xF000000 ≤ o && o < 0xF008000 then kget msixDef x.table ((o - 0xF000000) / 4)
  else if 0xF800000 ≤ o && o < 0xF800100 then maskOf 32 (fun i => x.pba.contains ((o - 0xF800000) * 8 + i))
  else 0

/-- STATE of a queue (R35). -/
def qstateCode : QState → Nat
  | .disabled => 0
  | .enabled => 1
  | .draining => 2
  | .error => 3
  | .preempted => 4

/-- A word of a queue page (R35). -/
def pageRead (c : Chip) (q o : Nat) : Nat :=
  let x := c.queue q
  let y := (queueCtx c q).map (fun n => c.ctx n)
  if !c.up then 0
  else match o with
  | 0x08 => x.head + 2 ^ 20 * x.staleDb
  | 0x0C => x.tail + 2 ^ 24 * qstateCode x.st
  | 0x10 => x.doneThrough
  | 0x14 => x.lastAccepted
  | 0x18 => x.cqCount
  | 0x1C => x.cqConsumed
  | 0x20 => (y.map (fun x => x.eqCount)).getD 0
  | 0x24 => (y.map (fun x => x.eqConsumed)).getD 0
  | _ => 0

/-- A byte of the mailbox (R419). -/
def mbxByte (c : Chip) (p o : Nat) : Byte :=
  let x := c.path (.mailbox p)
  if o < mbxBuf then nth x.buf o 0
  else if 0x1004 ≤ o && o < 0x1008 then nth (leBytes 4 (mbxState c p)) (o - 0x1004) 0
  else if 0x1400 ≤ o && o < 0x1820 then nth x.reply (o - 0x1400) 0
  else 0

/-- A read of an endpoint (R418, R419, R422, R539) (log entry 29). -/
def epRead (r : InboundReq) (c : Chip) : Chip :=
  let o := r.addr
  let path : Path := .pcx r.port
  if r.fn = 1 then
    (if r.bar = 0 && o + r.size ≤ 0x2000 then complete r 0 false ((List.range r.size).map (fun i => mbxByte c r.port (o + i))) c else unsupported r c)
  else if r.bar = 4 then (if o + r.size ≤ 2 ^ 42 then winRead r c else unsupported r (inFailed r.port PCX_ERR_IN_NOWIN o c))
  else if r.bar = 0 then
    (if o + r.size > 0x10000000 then unsupported r c
     else
       let c := drainReq r.port r.req c
       if !accessFits o r.size then unsupported r (accLog 0 o .rejected path c)
       else complete r 0 false (readBytes (fun w => if w ≥ 0xF000000 then msixWord c r.port w else regWord c w) o r.size) c)
  else if o + r.size > 2 ^ 26 then unsupported r c
  else
    let c := drainReq r.port r.req c
    if !accessFits o r.size then unsupported r (accLog 1 o .rejected path c)
    else complete r 0 false (readBytes (fun w => pageRead c (w / 64) (w % 64)) o r.size) c

/-- PCX_INBOUND_READ (R418 to R422, R426, R428). -/
def pcxInboundReadStep (r : InboundReq) (c : Chip) : Chip :=
  if !inLive c r then c else if isEp c r.port then epRead r c else winRead r c

/-! ### Atomics -/

/-- The operation of an AtomicOp among the atomics of R11 (R415): FetchAdd, Swap, CAS. -/
def tlpAop (k : Nat) : Nat := if k = 0 then 0 else if k = 1 then 7 else 6

/-- An AtomicOp through the windows (R415, R420, R422, R428) (log entry 29). -/
def winAtomic (r : InboundReq) (c : Chip) : Chip :=
  let c := drainReq r.port r.req c
  if !(r.size == 4 || r.size == 8) || r.addr % r.size != 0 then unsupported r c
  else match inHit c r.port r.addr r.size 2 with
  | .noWin => unsupported r (inFailed r.port PCX_ERR_IN_NOWIN r.addr c)
  | .rights _ _ => unsupported r (inFailed r.port PCX_ERR_IN_RIGHTS r.addr c)
  | .unbacked _ _ => unsupported r (inFailed r.port PCX_ERR_IN_UNBACKED r.addr c)
  | .ok _ t =>
    if r.poison then complete r 4 false [] (inFailed r.port PCX_ERR_IN_POISON r.addr c)
    else
      let x := atomAt t (tlpAop r.aop) .int32 (8 * r.size) r.operand r.compare (c.touch t)
      match x.2.2.2 with
      | none => complete r 0 false (leBytes r.size x.2.1) x.1
      | some st => complete r 4 false [] (if st = sUncorr then inFailed r.port PCX_ERR_IN_UNCORR r.addr x.1 else failNote r.port r.addr x.1)

/-- PCX_INBOUND_ATOMIC (R420, R428); registers and the mailbox take no AtomicOp. -/
def pcxInboundAtomicStep (r : InboundReq) (c : Chip) : Chip :=
  if !inLive c r then c
  else if !isEp c r.port then winAtomic r c
  else if r.fn = 0 && r.bar == 4 && r.addr + r.size ≤ 2 ^ 42 then winAtomic r c
  else unsupported r c

/-! ### Configuration requests -/

/-- MSI-X of a function enabled and masked by its control word, as messages that waited go out (R425) (log entry 28). -/
def msixCtl (p v : Nat) (c : Chip) : Chip :=
  let x := c.port p
  x.pba.foldl (fun c e => msixRaise e p c) (c.setPcx p { x with msix := bitAt v 31, msixMask := bitAt v 30 })

/-- A configuration read (R418): the identifiers, and of the MSI-X capability the enable, mask and table size; the base specification gives
the rest, which is open here (log entry 28). -/
def cfgRead (p fn off : Nat) (c : Chip) : Nat × Chip :=
  if off / 4 = 0 then (c.rget MOD MOD_ID_VENDOR + 65536 * (if fn = 0 then c.rget MOD MOD_ID_DEVICE else 0x4B02), c)
  else
    let d := c.draw
    if fn = 0 && off / 4 == Config.msixCap / 4 then
      (d.1 % 65536 + 65536 * (2047 + 2 ^ 14 * b2n (c.port p).msixMask + 2 ^ 15 * b2n (c.port p).msix), d.2)
    else (d.1 % 2 ^ 32, d.2)

/-- PCX_CONFIG_REQUEST (R418, R429, R519): a function that is not ready answers with Request Retry Status (log entry 28). -/
def pcxConfigRequestStep (p fn off : Nat) (wr : Option Nat) (c : Chip) : Chip :=
  if !c.hedge.standby || !pcxUp c p || !isEp c p then c
  else if fn = 0 && (!c.up || c.rget (PCX p) PCX_STATUS_FLR == 1) then c.emit (.pcxCfg p fn off 2 0)
  else match wr with
  | some v => (if fn = 0 && off / 4 == Config.msixCap / 4 then msixCtl p v c else c).emit (.pcxCfg p fn off 0 0)
  | none => let r := cfgRead p fn off c; r.2.emit (.pcxCfg p fn off 0 r.1)

/-! ### Resets and the link -/

/-- PCX_FLR_FUNCTION0 (R429). -/
def pcxFlrFunction0Step (p : Nat) (c : Chip) : Chip := if isEp c p && pcxUp c p then flr0 p c else c

/-- PCX_FLR_FUNCTION1 (R430). -/
def pcxFlrFunction1Step (p : Nat) (c : Chip) : Chip := if isEp c p && pcxUp c p then flr1 p c else c

/-- PCX_ENDPOINT_RESET (R430). -/
def pcxEndpointResetStep (p : Nat) (c : Chip) : Chip := if isEp c p && c.hedge.standby then endpointReset p c else c

/-- PCX_LINK_DOWN (R430, R433): other than under a port reset. -/
def pcxLinkDownStep (p : Nat) (c : Chip) : Chip :=
  if !pcxUp c p then c
  else
    let c := (linkClear p c).rput (PCX p) PCX_ERR_LINK_DOWN 1
    if isEp c p then endpointReset p c else c

/-- A link width there is (R415). -/
def widthOk (w : Nat) : Bool := w == 1 || w == 2 || w == 4 || w == 8 || w == 16

/-- PCX_LINK_UP (R415, R431, R433): the link comes up, in FLIT mode at 64 GT/s and otherwise as the partner can (log entry 32). -/
def pcxLinkUpStep (p speed width : Nat) (c : Chip) : Chip :=
  if !c.hedge.standby || pcxUp c p || speed < 1 || speed > 6 || !widthOk width then c
  else
    let d := c.draw
    let c := (((d.2.rput (PCX p) PCX_STATUS_LINK_UP 1).rput (PCX p) PCX_STATUS_SPEED speed).rput (PCX p) PCX_STATUS_WIDTH width).rput (PCX p)
      PCX_STATUS_FLIT (if speed = 6 then 1 else d.1 % 2)
    if c.rget (PCX p) PCX_STATUS_FLR = 1 then pcxResetOver p c else c

/-- PCX_ERROR_MESSAGE (R433). -/
def pcxErrorMessageStep (p : Nat) (c : Chip) : Chip := if pcxUp c p && !isEp c p then c.rput (PCX p) PCX_ERR_AER_MSG 1 else c

/-! ### Requests of host cores -/

/-- The port that a physical address of a host core names, whether it lies in ECAM, and the offset (R417). -/
def outTarget (a : Nat) : Option (Nat × Bool × Nat) :=
  if 0x400000000000 ≤ a && a < 0x480000000000 then some ((a - 0x400000000000) / 2 ^ 42, false, a % 2 ^ 42)
  else if 0x480000000000 ≤ a && a < 0x480020000000 then some ((a - 0x480000000000) / 2 ^ 28, true, a % 2 ^ 28)
  else none

/-- A tag that no request of a port has, the next first; at most 1,024 are outstanding (R415) (log entry 30). -/
def freeTag (x : PcxSt) : Option Nat :=
  if x.outs.length ≥ 1024 then none
  else ((List.range 1025).map (fun i => (x.nextTag + i) % 16384)).find? (fun t => !x.outs.any (fun o => o.tag == t))

/-- A non-posted request goes out; with every tag in use the core waits (R415, R417) (log entry 30). -/
def outNonPosted (p kind o : Nat) (r : OutReq) (c : Chip) : Chip :=
  let x := c.port p
  match freeTag x with
  | none => c
  | some t =>
    let d := r.wr.getD []
    let c := c.setPcx p { x with outs := x.outs ++ [⟨t, r.hart, r.addr, if kind = 3 then 0 else r.size⟩], nextTag := (t + 1) % 16384 }
    (c.emit (.pcxReq p t kind o r.size d)).rcount (PCX p) PCX_OUT_BYTES d.length

/-- The root port's own configuration registers, bus 0, device 0, function 0 (R417): the base specification gives them, and they are open
here (log entry 28). -/
def ownCfg (r : OutReq) (c : Chip) : Chip :=
  match r.wr with
  | some _ => c.emit (.hostReply r.hart r.addr 0 [])
  | none => let d := c.draw; d.2.emit (.hostReply r.hart r.addr 0 (leBytes r.size d.1))

/-- PCX_OUTBOUND_REQUEST (R416, R417) (log entry 30). -/
def pcxOutboundRequestStep (r : OutReq) (c : Chip) : Chip :=
  match outTarget r.addr with
  | none => c
  | some (p, ecam, o) =>
    if !hostOn r.hart c then c
    else
      let c := hartRuns r.hart c
      if ecam && isEp c p then outFault p r.hart r.addr c
      else if ecam && o < 4096 then ownCfg r c
      else if !pcxUp c p then outFault p r.hart r.addr c
      else if ecam then outNonPosted p (if r.wr.isSome then 3 else 2) o r c
      else match r.wr with
      | none => outNonPosted p 0 o r c
      | some d => (((c.emit (.pcxReq p 0 1 o r.size d)).emit (.hostReply r.hart r.addr 0 [])).rcount (PCX p) PCX_OUT_BYTES d.length)

/-- The request of a tag is outstanding no longer. -/
def dropTag (p tag : Nat) (c : Chip) : Chip := c.setPcx p { c.port p with outs := (c.port p).outs.filter (fun o => o.tag != tag) }

/-- PCX_OUTBOUND_COMPLETION (R417): status 0 success, 2 Request Retry Status, after which the request is made again; any other is an access
fault (log entry 30). -/
def pcxOutboundCompletionStep (p tag status : Nat) (data : List Byte) (c : Chip) : Chip :=
  match (c.port p).outs.find? (fun o => o.tag == tag) with
  | none => c
  | some o =>
    if !pcxUp c p || status == 2 then c
    else if status = 0 then (dropTag p tag c).emit (.hostReply o.hart o.addr 0 (sliceBytes data 0 o.size))
    else outFault p o.hart o.addr (dropTag p tag c)

/-- PCX_COMPLETION_TIMEOUT (R417): 50 ms have passed without a completion. -/
def pcxCompletionTimeoutStep (p tag : Nat) (c : Chip) : Chip :=
  match (c.port p).outs.find? (fun o => o.tag == tag) with
  | none => c
  | some o => outFault p o.hart o.addr (dropTag p tag c)

end Sys2Proof.Machine
end

