-- ==== Sys2Proof/WellFormed.lean ====
section
/-! DEFINITION. Which terms are commands of the block: every operand names a part the module has and fits its field. -/

namespace Sys2Proof

/-- A path names a part the module has. -/
def Path.wf : Path → Bool
  | .host hart => decide (hart < 72)
  | .pcx port => decide (port < 2)
  | .smbus => true
  | .net => true
  | .mailbox port => decide (port < 2)
  | .queue q => decide (q < 2 ^ 20)

/-- A carrier names a part the module has; mailbox numbers from 2 on stand for commands left behind by a reset of function 1 (R430). -/
def Carrier.wf : Carrier → Bool
  | .queue q => decide (q < 2 ^ 20)
  | .smbus => true
  | .net s => decide (s < 2 ^ 32)
  | .mailbox port => decide (port < 2 ^ 16)

/-- Instances of an engine class in one half (R14, R23); class 0x15 stands for the Gleaners of one stack. -/
def classCount : Nat → Nat
  | 1 => 1 | 2 => 16 | 3 => 66 | 4 => 16 | 5 => 1 | 6 => 1 | 7 => 1 | 8 => 1 | 0xE => 16 | 0x15 => 6 | _ => 0

/-- An engine instance the module has (R23). -/
def Engine.wf (e : Engine) : Bool := decide (e.half < 2) && decide (e.idx < classCount e.cls)

/-- A thread group's name lies in its fields (R216, R224). -/
def Grp.wf (g : Grp) : Bool :=
  decide (g.q < 2 ^ 20) && decide (g.seq < 2 ^ 32) && decide (g.block < 2 ^ 32) && decide (g.group < 32)

/-- A memory device the module has (R271). -/
def MemDev.wf (d : MemDev) : Bool := decide (d.half < 2) && decide (d.dev < if d.outfield then 12 else 6)

/-- A remote Yoke operation's fields (R383). -/
def YokeFrame.wf (o : YokeFrame) : Bool :=
  decide (o.rank < 2 ^ 20) && decide (o.node < 2 ^ 24) && decide (o.job < 2 ^ 32) && decide (o.txn < 2 ^ 32) && decide (o.op < 2 ^ 8) && decide (o.sem < 2 ^ 18) &&
    decide (o.value < 2 ^ 48) && decide (o.compare < 2 ^ 48) && decide (o.tkind < 2 ^ 8) && decide (o.target < 2 ^ 32) &&
    decide (o.bar < 2 ^ 19) && decide (o.ctx < 2 ^ 17) && decide (o.q < 2 ^ 20) && decide (o.seq < 2 ^ 32)

/-- Fields of an access (R455, R457). -/
def RemoteAccess.wf (a : RemoteAccess) : Bool :=
  decide (a.rank < 2 ^ 20) && decide (a.node < 2 ^ 24) && decide (a.job < 2 ^ 16) && decide (a.seq < 2 ^ 32) && decide (a.kind < 3) && decide (a.win < 2 ^ 16) &&
    decide (a.data.length ≤ 4096) && a.ranges.all (fun r => decide (r.1 < 2 ^ 44) && decide (r.2 ≤ 65536)) && decide (a.lastBits ≤ 8) &&
    decide (a.aop < 7) && decide (a.fmt < 16) && decide (a.operand < 2 ^ 64) && decide (a.compare < 2 ^ 64)

/-- Fields of a reply (R457). -/
def Reply.wf (r : Reply) : Bool :=
  decide (r.rank < 2 ^ 20) && decide (r.seq < 2 ^ 32) && decide (r.status ≤ 16) && decide (r.detail.length = 16) && decide (r.data.length ≤ 65536)

/-- Fields of a collective message (R461). -/
def CollMsg.wf (m : CollMsg) : Bool :=
  decide (m.rank < 2 ^ 20) && decide (m.node < 2 ^ 24) && decide (m.job < 2 ^ 16) && decide (m.seq < 2 ^ 32) &&
  decide (m.group < 2 ^ 16) && decide (m.cseq < 2 ^ 32) && decide (m.op < 2 ^ 12) && decide (m.cepoch < 2 ^ 16) && decide (m.src < 2 ^ 20) &&
    decide (m.kind < 4) && decide (m.lost < 2 ^ 20)

/-- A packet's fields. -/
def Packet.wf : Packet → Bool
  | .access a => a.wf
  | .reply r => r.wf
  | .yoke o => o.wf
  | .coll m => m.wf
  | .unreach node seq => decide (node < 2 ^ 24) && decide (seq < 2 ^ 32)
  | .watchMsg m => decide (m.sem < 2 ^ 18) && decide (m.value < 2 ^ 48) && decide (m.wstatus < 3) && decide (m.tkind < 5)
  | .mgmt b => decide (b.length ≤ 4096)

/-- A concord record has 64 bytes (R440). -/
def Concord.wf (r : Concord) : Bool := decide (r.bytes.length = 64)

/-- A frame's fields (R443, R447, R450). -/
def LinkFrame.wf (f : LinkFrame) : Bool :=
  decide (f.seq < 2 ^ 16) && decide (f.cls < 4) && decide (f.src < 2 ^ 24) && decide (f.dst < 2 ^ 24) && f.pkt.wf

/-- A time exchange's fields (R466). -/
def TimeXchg.wf (x : TimeXchg) : Bool := decide (x.port < 9) && decide (x.theirs < 2 ^ 64) && decide (x.hops < 2 ^ 16)

/-- A host core's request: a core that exists and an access that does not cross a cache block (R387, R388). -/
def HostReq.wf (r : HostReq) : Bool :=
  decide (r.hart < 72) && decide (r.addr < 2 ^ 48) && decide (r.size ≥ 1) && decide (r.addr % 64 + r.size ≤ 64) &&
    decide (r.data.length ≤ 64) && decide (r.aop < 10) && decide (r.operand < 2 ^ 128) && decide (r.compare < 2 ^ 128)

/-- A scrub read's position (R276). -/
def ScrubRead.wf (r : ScrubRead) : Bool := match r.fix with
  | some p => decide (p < 68)
  | none => true

/-- A group of frame space (R318, R321). -/
def Fill.wf (f : Fill) : Bool := decide (f.group < 1966080)

/-- A slice outcome's fields (R527). -/
def SliceOutcome.wf (o : SliceOutcome) : Bool :=
  decide (o.result < 4) && decide (o.signature < 2 ^ 32) && decide (o.expected < 2 ^ 32) && decide (o.fails < 2 ^ 16) && decide (o.first < 2 ^ 64) &&
    decide (o.micros < 2 ^ 64)

/-- A power measurement's fields (R478, R479). -/
def PowerMeas.wf (m : PowerMeas) : Bool := decide (m.power < 65536) && decide (m.source < 3) && decide (m.group < 24)

/-- Coolant temperatures (R479). -/
def ThermMeas.wf (m : ThermMeas) : Bool := decide (m.inlet < 256) && decide (m.outlet < 256)

/-- Parts of a kind in one half, or in the module for phase groups (R509). -/
def PartKind.count : PartKind → Nat
  | .hostCore => 36 | .drillCore => 64 | .furrowRow => 128 | .furrowCol => 512 | .harrow => 16 | .mover => 16 | .queueProc => 16
  | .bankGroup => 16 | .way => 256 | .device => 18 | .gleaner => 6 | .balkModule => 22 | .phase => 24 | .slice => 16 | .yoke => 1
  | .surveyor => 1 | .xlate => 1 | .dispatch => 1

/-- A part the module has. -/
def Part.wf (p : Part) : Bool := decide (p.half < 2) && decide (p.inst < p.kind.count) && decide (p.phys < 1024)

/-- An error's place exists. -/
def ErrorIn.wf : ErrorIn → Bool
  | .engine e s => e.wf && decide (s < 3)
  | .sbdWord h o => decide (h < 2) && decide (o < 0xC000000)
  | .sbdRead h o => decide (h < 2) && decide (o < 0xC000000)
  | .memCorrected a p => decide (a < 62914560 * 65536) && decide (p < 68)
  | .memLost a => decide (a < 62914560 * 65536)
  | .memRetry d p _ => d.wf && decide (p < if d.outfield then 4 else 64)
  | .semCorrected s => decide (s < 2 ^ 18)
  | .semLost s => decide (s < 2 ^ 18)
  | .sycCorrected h n a w => decide (h < 2) && decide (n < 16) && decide (a < 2 ^ 42) && decide (w < 16)
  | .sycLost h n a w => decide (h < 2) && decide (n < 16) && decide (a < 62914560 * 65536) && decide (w < 16)
  | .dirCorrected h n => decide (h < 2) && decide (n < 16)
  | .dirLost h n => decide (h < 2) && decide (n < 16)
  | .xltCache h => decide (h < 2)
  | .xltStore h => decide (h < 2)
  | .srvStore _ u => decide (u < 2048)
  | .plotCopy h => decide (h < 2)
  | .qpSram h n => decide (h < 2) && decide (n < 16)
  | .hostL1 n => decide (n < 72)
  | .hostL2 n => decide (n < 72)
  | .hostSector n s => decide (n < 72) && decide (s < 62914560 * 1024)
  | .gleaner h n => decide (h < 2) && decide (n < 6)
  | .part p => p.wf

/-- A datagram's fields (R87). -/
def Datagram.wf (d : Datagram) : Bool :=
  decide (d.src < if d.v6 then 2 ^ 128 else 2 ^ 32) && decide (d.mac < 2 ^ 48) && decide (d.sport < 2 ^ 16) && decide (d.bytes.length ≤ 2048)

/-- An ARP request's fields. -/
def ArpReq.wf (r : ArpReq) : Bool :=
  decide (r.port < 10) && decide (r.target < if r.v6 then 2 ^ 128 else 2 ^ 32) && decide (r.mac < 2 ^ 48)

/-- An inbound request's fields (R415, R418). -/
def InboundReq.wf (r : InboundReq) : Bool :=
  decide (r.port < 2) && decide (r.req < 2 ^ 16) && decide (r.tag < 2 ^ 14) && decide (r.fn < 2) && (r.bar == 0 || r.bar == 2 || r.bar == 4) &&
    decide (r.addr < 2 ^ 64) && decide (r.size ≥ 1) && decide (r.size ≤ 4096) && decide (r.data.length ≤ 512) && decide (r.aop < 3) &&
    decide (r.operand < 2 ^ 64) && decide (r.compare < 2 ^ 64)

/-- An outbound request's fields (R417). -/
def OutReq.wf (r : OutReq) : Bool :=
  decide (r.hart < 72) && decide (r.addr < 2 ^ 48) && decide (r.size ≥ 1) && decide (r.size ≤ 16) &&
    (match r.wr with
      | some d => decide (d.length = r.size)
      | none => true)

/-- Every Balk error is one. -/
def BalkErr.wf (_ : BalkErr) : Bool := true

-- PH
-- END PH
/-- The command's operands name parts the module has and fit their fields (log entry 2). -/
def Instr.wf : Instr → Bool
  | .qprDoorbell p q size v => p.wf && decide (q < 2 ^ 20) && decide (size < 17) && decide (v < 2 ^ 64)
  | .qprCqConsumed p q size v => p.wf && decide (q < 2 ^ 20) && decide (size < 17) && decide (v < 2 ^ 64)
  | .qprEqConsumed p q size v => p.wf && decide (q < 2 ^ 20) && decide (size < 17) && decide (v < 2 ^ 64)
  | .commandFetch q => decide (q < 2 ^ 20)
  | .commandIssue k seq => k.wf && decide (seq < 2 ^ 32)
  | .commandRetire k seq => k.wf && decide (seq < 2 ^ 32)
  | .priorityRaise q seq => decide (q < 2 ^ 20) && decide (seq < 2 ^ 32)
  | .gemm q seq => decide (q < 2 ^ 20) && decide (seq < 2 ^ 32)
  | .gemmSplit q seq => decide (q < 2 ^ 20) && decide (seq < 2 ^ 32)
  | .attn q seq => decide (q < 2 ^ 20) && decide (seq < 2 ^ 32)
  | .chain q seq => decide (q < 2 ^ 20) && decide (seq < 2 ^ 32)
  | .launch q seq => decide (q < 2 ^ 20) && decide (seq < 2 ^ 32)
  | .blockStart q seq block core => decide (q < 2 ^ 20) && decide (seq < 2 ^ 32) && decide (block < 2 ^ 32) && decide (core < 66)
  | .dmaCopy q seq => decide (q < 2 ^ 20) && decide (seq < 2 ^ 32)
  | .dmaFill q seq => decide (q < 2 ^ 20) && decide (seq < 2 ^ 32)
  | .dmaGather q seq => decide (q < 2 ^ 20) && decide (seq < 2 ^ 32)
  | .dmaScatter q seq => decide (q < 2 ^ 20) && decide (seq < 2 ^ 32)
  | .dmaAtomic q seq => decide (q < 2 ^ 20) && decide (seq < 2 ^ 32)
  | .score q seq => decide (q < 2 ^ 20) && decide (seq < 2 ^ 32)
  | .valueAcc q seq => decide (q < 2 ^ 20) && decide (seq < 2 ^ 32)
  | .gleanerGather q seq => decide (q < 2 ^ 20) && decide (seq < 2 ^ 32)
  | .gleanerScatter q seq => decide (q < 2 ^ 20) && decide (seq < 2 ^ 32)
  | .blockReduce q seq => decide (q < 2 ^ 20) && decide (seq < 2 ^ 32)
  | .topk q seq => decide (q < 2 ^ 20) && decide (seq < 2 ^ 32)
  | .update q seq => decide (q < 2 ^ 20) && decide (seq < 2 ^ 32)
  | .gleanerFill q seq => decide (q < 2 ^ 20) && decide (seq < 2 ^ 32)
  | .gleanerCopy q seq => decide (q < 2 ^ 20) && decide (seq < 2 ^ 32)
  | .checksum q seq => decide (q < 2 ^ 20) && decide (seq < 2 ^ 32)
  | .scrub q seq => decide (q < 2 ^ 20) && decide (seq < 2 ^ 32)
  | .add q seq => decide (q < 2 ^ 20) && decide (seq < 2 ^ 32)
  | .sub q seq => decide (q < 2 ^ 20) && decide (seq < 2 ^ 32)
  | .setSem q seq => decide (q < 2 ^ 20) && decide (seq < 2 ^ 32)
  | .cset q seq => decide (q < 2 ^ 20) && decide (seq < 2 ^ 32)
  | .wait q seq => decide (q < 2 ^ 20) && decide (seq < 2 ^ 32)
  | .watch q seq => decide (q < 2 ^ 20) && decide (seq < 2 ^ 32)
  | .claim q seq => decide (q < 2 ^ 20) && decide (seq < 2 ^ 32)
  | .release q seq => decide (q < 2 ^ 20) && decide (seq < 2 ^ 32)
  | .yokeMessageDeliver n => decide (n < 2 ^ 16)
  | .barDefine q seq => decide (q < 2 ^ 20) && decide (seq < 2 ^ 32)
  | .barEnter q seq => decide (q < 2 ^ 20) && decide (seq < 2 ^ 32)
  | .barRetire q seq => decide (q < 2 ^ 20) && decide (seq < 2 ^ 32)
  | .remoteYokeOperation o => o.wf
  | .allreduce q seq => decide (q < 2 ^ 20) && decide (seq < 2 ^ 32)
  | .reduceScatter q seq => decide (q < 2 ^ 20) && decide (seq < 2 ^ 32)
  | .allgather q seq => decide (q < 2 ^ 20) && decide (seq < 2 ^ 32)
  | .broadcast q seq => decide (q < 2 ^ 20) && decide (seq < 2 ^ 32)
  | .alltoall q seq => decide (q < 2 ^ 20) && decide (seq < 2 ^ 32)
  | .collectiveMessage m => m.wf
  | .winOpen q seq => decide (q < 2 ^ 20) && decide (seq < 2 ^ 32)
  | .winClose q seq => decide (q < 2 ^ 20) && decide (seq < 2 ^ 32)
  | .remoteAccessArrival a => a.wf
  | .transactionReply t => t.wf
  | .unreachableReply txn => decide (txn < 2 ^ 32)
  | .e2eTimeout txn => decide (txn < 2 ^ 32)
  | .hint q seq => decide (q < 2 ^ 20) && decide (seq < 2 ^ 32)
  | .pin q seq => decide (q < 2 ^ 20) && decide (seq < 2 ^ 32)
  | .unpin q seq => decide (q < 2 ^ 20) && decide (seq < 2 ^ 32)
  | .nop k seq => k.wf && decide (seq < 2 ^ 32)
  | .qEnable k seq => k.wf && decide (seq < 2 ^ 32)
  | .qDisable k seq => k.wf && decide (seq < 2 ^ 32)
  | .abortSeq k seq => k.wf && decide (seq < 2 ^ 32)
  | .abortQueue k seq => k.wf && decide (seq < 2 ^ 32)
  | .ctxPreempt k seq => k.wf && decide (seq < 2 ^ 32)
  | .ctxResume k seq => k.wf && decide (seq < 2 ^ 32)
  | .ctxReset k seq => k.wf && decide (seq < 2 ^ 32)
  | .xltInvalidate k seq => k.wf && decide (seq < 2 ^ 32)
  | .identify k seq => k.wf && decide (seq < 2 ^ 32)
  | .regRead k seq => k.wf && decide (seq < 2 ^ 32)
  | .regWrite k seq => k.wf && decide (seq < 2 ^ 32)
  | .telemetryRead k seq => k.wf && decide (seq < 2 ^ 32)
  | .limitSet k seq => k.wf && decide (seq < 2 ^ 32)
  | .selftestSlice k seq => k.wf && decide (seq < 2 ^ 32)
  | .sliceTestEnd o => o.wf
  | .selftestFull k seq => k.wf && decide (seq < 2 ^ 32)
  | .fwStage k seq => k.wf && decide (seq < 2 ^ 32)
  | .fwActivate k seq => k.wf && decide (seq < 2 ^ 32)
  | .fwActivationFail => true
  | .resetFunction k seq => k.wf && decide (seq < 2 ^ 32)
  | .stileSet k seq => k.wf && decide (seq < 2 ^ 32)
  | .eventLogRead k seq => k.wf && decide (seq < 2 ^ 32)
  | .iadd g => g.wf
  | .isub g => g.wf
  | .imul g => g.wf
  | .imulhi g => g.wf
  | .idiv g => g.wf
  | .irem g => g.wf
  | .iand g => g.wf
  | .ior g => g.wf
  | .ixor g => g.wf
  | .shl g => g.wf
  | .shr g => g.wf
  | .imin g => g.wf
  | .imax g => g.wf
  | .icmp g => g.wf
  | .sel g => g.wf
  | .fadd g => g.wf
  | .fsub g => g.wf
  | .fmul g => g.wf
  | .ffma g => g.wf
  | .fmin g => g.wf
  | .fmax g => g.wf
  | .fcmp g => g.wf
  | .dadd g => g.wf
  | .dsub g => g.wf
  | .dmul g => g.wf
  | .dfma g => g.wf
  | .dmin g => g.wf
  | .dmax g => g.wf
  | .dcmp g => g.wf
  | .sfu g => g.wf
  | .cvt g => g.wf
  | .mov g => g.wf
  | .movi g => g.wf
  | .movhi g => g.wf
  | .s2r g => g.wf
  | .ld g => g.wf
  | .st g => g.wf
  | .atom g => g.wf
  | .barSync g => g.wf
  | .fence g => g.wf
  | .waitMsg g => g.wf
  | .bra g => g.wf
  | .call g => g.wf
  | .ret g => g.wf
  | .exit g => g.wf
  | .illegalInstruction g => g.wf
  | .modCfgCommit p v => p.wf && decide (v < 2 ^ 64)
  | .engineAdoptEpoch e => e.wf
  | .faultRetry p id => p.wf && decide (id < 2 ^ 32)
  | .faultDecline p id => p.wf && decide (id < 2 ^ 32)
  | .modFrConsumed p v => p.wf && decide (v < 2 ^ 64)
  | .faultRingWrite id => decide (id < 2 ^ 32)
  | .faultTimeout k seq => k.wf && decide (seq < 2 ^ 32)
  | .qctlEnable p q => p.wf && decide (q < 2 ^ 20)
  | .qctlDisableStop p q => p.wf && decide (q < 2 ^ 20)
  | .qctlDisableDrain p q => p.wf && decide (q < 2 ^ 20)
  | .registerWrite p off size v => p.wf && decide (off < 2 ^ 32) && decide (size < 17) && decide (v < 2 ^ 64)
  | .pcxFlush p port => p.wf && decide (port < 2)
  | .pcxRetrain p port => p.wf && decide (port < 2)
  | .aihPortRetrain p port => p.wf && decide (port < 9)
  | .aihTimeSet p v => p.wf && decide (v < 2 ^ 64)
  | .wakeReq p => p.wf
  | .mgtAlertClear p => p.wf
  | .mgtHostRelease p => p.wf
  | .imageWindowWrite p w v => p.wf && decide (w < 2 ^ 16) && decide (v < 2 ^ 32)
  | .opticsFaultClear p port => p.wf && decide (port < 9)
  | .mailboxSubmit port => decide (port < 2)
  | .smbusRequest _ bytes => decide (bytes.length ≤ 2048)
  | .smbusReplyRead => true
  | .mgtDatagram d => d.wf
  | .arpRequest r => r.wf
  | .pcxInboundWrite r => r.wf
  | .pcxInboundRead r => r.wf
  | .pcxInboundAtomic r => r.wf
  | .pcxMsiReceive port req addr data => decide (port < 2) && decide (req < 2 ^ 16) && decide (addr < 2 ^ 64) && decide (data < 2 ^ 32)
  | .pcxFlrFunction0 port => decide (port < 2)
  | .pcxFlrFunction1 port => decide (port < 2)
  | .pcxEndpointReset port => decide (port < 2)
  | .pcxLinkDown port => decide (port < 2)
  | .pcxCompletionTimeout port tag => decide (port < 2) && decide (tag < 2 ^ 32)
  | .linkLossOfSignal p => decide (p < 9)
  | .linkFecLock p => decide (p < 9)
  | .concordSend p => decide (p < 9)
  | .concordReceive p r => decide (p < 9) && r.wf
  | .frameReceive p f => decide (p < 9) && f.wf
  | .ackReceive p n => decide (p < 9) && decide (n < 2 ^ 16)
  | .nakReceive p n => decide (p < 9) && decide (n < 2 ^ 16)
  | .ackTimer p => decide (p < 9)
  | .replayTimeout p => decide (p < 9)
  | .linkRetrain p => decide (p < 9)
  | .linkFailed p => decide (p < 9)
  | .timeExchange x => x.wf
  | .timeUnsureTimeout => true
  | .stileChange => true
  | .bypassReq => true
  | .moduleWithdrawn => true
  | .governorTick m => m.wf
  | .junctionSenseTick east west => decide (east < 256) && decide (west < 256)
  | .thermalTrip sensor reading => decide (sensor < 256) && decide (reading < 2 ^ 32)
  | .memoryTempPoll d temp => d.wf && decide (temp < 256)
  | .telemetrySample t => t.wf
  | .asleep => true
  | .wakeNFall => true
  | .staggerEnd => true
  | .gridHintRise => true
  | .opticsSwitchLimit port => decide (port < 9)
  | .opticsRetry port _ => decide (port < 9)
  | .engineClockStart e => e.wf
  | .furrowIdleStop h => decide (h < 2)
  | .harrowIdleGate h n => decide (h < 2) && decide (n < 16)
  | .drillIdleGate h n => decide (h < 2) && decide (n < 66)
  | .gleanerIdleGate h n => decide (h < 2) && decide (n < 6)
  | .hostCoreGateIdle hart => decide (hart < 72)
  | .memoryPowerDown d path => d.wf && decide (path < 64)
  | .memorySelfRefresh d => d.wf
  | .patrolScrubRead d slot unit r => d.wf && decide (slot < 2105344) && decide (unit < 1024) && r.wf
  | .streamTimeout h slice stream => decide (h < 2) && decide (slice < 16) && decide (stream < 256)
  | .surveyPeriodEnd fills => fills.all (fun x => x.wf)
  | .migrationStart n => decide (n < 2 ^ 16)
  | .migrationCopyPass n dirtyA dirtyB => decide (n < 2 ^ 16) && decide (dirtyA < 1025) && decide (dirtyB < 1025)
  | .migrationWindow n ns held => decide (n < 2 ^ 16) && decide (ns < 2001) && decide (held < 2 ^ 32)
  | .seedbedGroupMoveEnd h => decide (h < 2)
  | .retrainingEnd d => d.wf
  | .coherenceTimeout hart => decide (hart < 72)
  | .hostComplexResetEnd => true
  | .errorReport e => e.wf
  | .spareInService pt => pt.wf
  | .mcWatchdogExpiry h => decide (h < 2)
  | .mcRestartDone h => decide (h < 2)
  | .outputsSafeDefaults => true
  | .mcBootFallback h => decide (h < 2)
  | .standbyApplied => true
  | .standbyLost mv => decide (mv < 2 ^ 32)
  | .mainInputFault mv => decide (mv < 2 ^ 32)
  | .pwrEnRise mv => decide (mv < 2 ^ 32)
  | .railStepGood => true
  | .sequenceFault rail mv => decide (rail < 16) && decide (mv < 2 ^ 32)
  | .railFault rail mv => decide (rail < 16) && decide (mv < 2 ^ 32)
  | .modResetAssert => true
  | .modResetRelease straps => decide (straps < 256)
  | .fusesDone => true
  | .logicBistDone failed => failed.all (fun x => x.wf)
  | .sramBistDone failed => failed.all (fun x => x.wf)
  | .deviceTrained d => d.wf
  | .deviceFilled d => d.wf
  | .hostCoreMemoryRequest r => r.wf
  | .seedbedWindowAccess hart off size wr => decide (hart < 72) && decide (off < 2 ^ 32) && decide (size < 17) && wr.all (fun x => decide (x < 2 ^ 64))
  | .pcxOutboundRequest r => r.wf
  | .pcxOutboundCompletion port tag status data => decide (port < 2) && decide (tag < 2 ^ 32) && decide (status < 8) && decide (data.length ≤ 2048)
  | .pcxConfigRequest port fn off wr => decide (port < 2) && decide (fn < 2) && decide (off < 2 ^ 32) && wr.all (fun x => decide (x < 2 ^ 64))
  | .pcxLinkUp port speed width => decide (port < 2) && decide (speed < 16) && decide (width < 32)
  | .pcxErrorMessage port => decide (port < 2)
  | .linkSignalDetect p => decide (p < 9)
  | .balkLinkError h k => decide (h < 2) && k.wf
  | .gridHintFall => true
  | .wakeNRise => true
  | .bypassReqRelease => true
  | .railStepDown => true
  | .standbyGoodFor10Ms mv => decide (mv < 2 ^ 32)
  | .managementControllerBoot h => decide (h < 2)
  | .managementControllerReset h cause => decide (h < 2) && decide (cause < 5)
  | .portResetTimeout _ port => decide (port < 9)
  | .directorySweepEnd => true
  | .heartbeat => true
  | .takeover => true
  | .pwrEnFall => true

end Sys2Proof
end

