-- ==== Sys2Proof/Machine/Run.lean ====
section
/-! DEFINITION. How every command runs: a command that is not well formed is none, and any other changes the module and
leaves the queue of waiting commands alone. -/

namespace Sys2Proof.Machine

open Sys2Proof

/-- The packets of this module for itself are delivered (R448) (log entry 53). -/
def deliverOwn (c : Chip) : Chip := c.fab.own.foldl (fun c f => deliverPkt f.pkt c) { c with fab := { c.fab with own := [] } }

/-- Groups and launches that are ready move on, and queues and stalled commands take note (log entry 6). -/
def moveOn (c : Chip) : Chip := settle (drillSettle (collSettle c))

/-- What the Yoke units have to send leaves the module or reaches it, with what that causes in turn (log entry 6). -/
def flushAll : Nat → Chip → Chip
  | 0, c => c
  | n + 1, c => if c.yoke.outs.isEmpty && c.fab.own.isEmpty then c else flushAll n (moveOn (deliverOwn (flushYoke c)))

/-- What a command's own effect causes at once: what is ready moves on, what the units have to send leaves, stores reach their memories,
and the memories are kept in canonical form (log entry 6). -/
def Chip.after (c : Chip) : Chip := (flushAll 64 (moveOn c)).land.canon

/-- A command has the effect f on the module and leaves the queue of waiting commands alone; one that is not well formed is none (log entries 2, 6). -/
def State.run (s : State) (i : Instr) (f : Chip → Chip) : Host.Outcome State Fault Refusal :=
  if i.wf then .next { s with toChip := (f s.toChip).after } else .fault .illFormed

end Sys2Proof.Machine
end

