-- ==== Sys2Proof/Machine/Commands.lean ====
section
/-! DEFINITION. The meaning of every command: its effect on the module, run as every command runs. -/

namespace Sys2Proof.Machine

open Sys2Proof

/-- QPR_DOORBELL (R36). -/
def execQprDoorbell (p : Path) (q : Nat) (size : Nat) (v : Nat) (s : State) : Host.Outcome State Fault Refusal := s.run (.qprDoorbell p q size v) (qprDoorbellStep p q size v)

/-- QPR_CQ_CONSUMED (R45). -/
def execQprCqConsumed (p : Path) (q : Nat) (size : Nat) (v : Nat) (s : State) : Host.Outcome State Fault Refusal := s.run (.qprCqConsumed p q size v) (qprCqConsumedStep p q size v)

/-- QPR_EQ_CONSUMED (R48). -/
def execQprEqConsumed (p : Path) (q : Nat) (size : Nat) (v : Nat) (s : State) : Host.Outcome State Fault Refusal := s.run (.qprEqConsumed p q size v) (qprEqConsumedStep p q size v)

/-- COMMAND_FETCH (R37). -/
def execCommandFetch (q : Nat) (s : State) : Host.Outcome State Fault Refusal := s.run (.commandFetch q) (commandFetchStep q)

/-- COMMAND_ISSUE (R50). -/
def execCommandIssue (k : Carrier) (seq : Nat) (s : State) : Host.Outcome State Fault Refusal := s.run (.commandIssue k seq) (commandIssueStep k seq)

/-- COMMAND_RETIRE (R43). -/
def execCommandRetire (k : Carrier) (seq : Nat) (s : State) : Host.Outcome State Fault Refusal := s.run (.commandRetire k seq) (commandRetireStep k seq)

/-- PRIORITY_RAISE (R53). -/
def execPriorityRaise (q : Nat) (seq : Nat) (s : State) : Host.Outcome State Fault Refusal := s.run (.priorityRaise q seq) (priorityRaiseStep q seq)

/-- GEMM (R123). -/
def execGemm (q : Nat) (seq : Nat) (s : State) : Host.Outcome State Fault Refusal := s.run (.gemm q seq) (gemmStep q seq)

/-- GEMM_SPLIT (R151). -/
def execGemmSplit (q : Nat) (seq : Nat) (s : State) : Host.Outcome State Fault Refusal := s.run (.gemmSplit q seq) (gemmSplitStep q seq)

/-- ATTN (R167). -/
def execAttn (q : Nat) (seq : Nat) (s : State) : Host.Outcome State Fault Refusal := s.run (.attn q seq) (attnStep q seq)

/-- CHAIN (R193). -/
def execChain (q : Nat) (seq : Nat) (s : State) : Host.Outcome State Fault Refusal := s.run (.chain q seq) (chainStep q seq)

/-- LAUNCH (R225). -/
def execLaunch (q : Nat) (seq : Nat) (s : State) : Host.Outcome State Fault Refusal := s.run (.launch q seq) (launchStep q seq)

/-- BLOCK_START (R225). -/
def execBlockStart (q : Nat) (seq : Nat) (block : Nat) (core : Nat) (s : State) : Host.Outcome State Fault Refusal := s.run (.blockStart q seq block core) (blockStartStep q seq block core)

/-- DMA_COPY (R103). -/
def execDmaCopy (q : Nat) (seq : Nat) (s : State) : Host.Outcome State Fault Refusal := s.run (.dmaCopy q seq) (dmaCopyStep q seq)

/-- DMA_FILL (R103). -/
def execDmaFill (q : Nat) (seq : Nat) (s : State) : Host.Outcome State Fault Refusal := s.run (.dmaFill q seq) (dmaFillStep q seq)

/-- DMA_GATHER (R573). -/
def execDmaGather (q : Nat) (seq : Nat) (s : State) : Host.Outcome State Fault Refusal := s.run (.dmaGather q seq) (dmaGatherStep q seq)

/-- DMA_SCATTER (R573). -/
def execDmaScatter (q : Nat) (seq : Nat) (s : State) : Host.Outcome State Fault Refusal := s.run (.dmaScatter q seq) (dmaScatterStep q seq)

/-- DMA_ATOMIC (R406). -/
def execDmaAtomic (q : Nat) (seq : Nat) (s : State) : Host.Outcome State Fault Refusal := s.run (.dmaAtomic q seq) (dmaAtomicStep q seq)

/-- SCORE (R295). -/
def execScore (q : Nat) (seq : Nat) (s : State) : Host.Outcome State Fault Refusal := s.run (.score q seq) (scoreStep q seq)

/-- VALUE_ACC (R295). -/
def execValueAcc (q : Nat) (seq : Nat) (s : State) : Host.Outcome State Fault Refusal := s.run (.valueAcc q seq) (valueAccStep q seq)

/-- GLEANER_GATHER (R298). -/
def execGleanerGather (q : Nat) (seq : Nat) (s : State) : Host.Outcome State Fault Refusal := s.run (.gleanerGather q seq) (gleanerGatherStep q seq)

/-- GLEANER_SCATTER (R298). -/
def execGleanerScatter (q : Nat) (seq : Nat) (s : State) : Host.Outcome State Fault Refusal := s.run (.gleanerScatter q seq) (gleanerScatterStep q seq)

/-- BLOCK_REDUCE (R296). -/
def execBlockReduce (q : Nat) (seq : Nat) (s : State) : Host.Outcome State Fault Refusal := s.run (.blockReduce q seq) (blockReduceStep q seq)

/-- TOPK (R297). -/
def execTopk (q : Nat) (seq : Nat) (s : State) : Host.Outcome State Fault Refusal := s.run (.topk q seq) (topkStep q seq)

/-- UPDATE (R299). -/
def execUpdate (q : Nat) (seq : Nat) (s : State) : Host.Outcome State Fault Refusal := s.run (.update q seq) (updateStep q seq)

/-- GLEANER_FILL (R300). -/
def execGleanerFill (q : Nat) (seq : Nat) (s : State) : Host.Outcome State Fault Refusal := s.run (.gleanerFill q seq) (gleanerFillStep q seq)

/-- GLEANER_COPY (R300). -/
def execGleanerCopy (q : Nat) (seq : Nat) (s : State) : Host.Outcome State Fault Refusal := s.run (.gleanerCopy q seq) (gleanerCopyStep q seq)

/-- CHECKSUM (R300). -/
def execChecksum (q : Nat) (seq : Nat) (s : State) : Host.Outcome State Fault Refusal := s.run (.checksum q seq) (checksumStep q seq)

/-- SCRUB (R300). -/
def execScrub (q : Nat) (seq : Nat) (s : State) : Host.Outcome State Fault Refusal := s.run (.scrub q seq) (scrubStep q seq)

/-- ADD (R365). -/
def execAdd (q : Nat) (seq : Nat) (s : State) : Host.Outcome State Fault Refusal := s.run (.add q seq) (addStep q seq)

/-- SUB (R365). -/
def execSub (q : Nat) (seq : Nat) (s : State) : Host.Outcome State Fault Refusal := s.run (.sub q seq) (subStep q seq)

/-- SET (R367). -/
def execSetSem (q : Nat) (seq : Nat) (s : State) : Host.Outcome State Fault Refusal := s.run (.setSem q seq) (setSemStep q seq)

/-- CSET (R367). -/
def execCset (q : Nat) (seq : Nat) (s : State) : Host.Outcome State Fault Refusal := s.run (.cset q seq) (csetStep q seq)

/-- WAIT (R368). -/
def execWait (q : Nat) (seq : Nat) (s : State) : Host.Outcome State Fault Refusal := s.run (.wait q seq) (waitStep q seq)

/-- WATCH (R370). -/
def execWatch (q : Nat) (seq : Nat) (s : State) : Host.Outcome State Fault Refusal := s.run (.watch q seq) (watchStep q seq)

/-- CLAIM (R367). -/
def execClaim (q : Nat) (seq : Nat) (s : State) : Host.Outcome State Fault Refusal := s.run (.claim q seq) (claimStep q seq)

/-- RELEASE (R375). -/
def execRelease (q : Nat) (seq : Nat) (s : State) : Host.Outcome State Fault Refusal := s.run (.release q seq) (releaseStep q seq)

/-- YOKE_MESSAGE_DELIVER (R372). -/
def execYokeMessageDeliver (n : Nat) (s : State) : Host.Outcome State Fault Refusal := s.run (.yokeMessageDeliver n) (yokeMessageDeliverStep n)

/-- BAR_DEFINE (R378). -/
def execBarDefine (q : Nat) (seq : Nat) (s : State) : Host.Outcome State Fault Refusal := s.run (.barDefine q seq) (barDefineStep q seq)

/-- BAR_ENTER (R379). -/
def execBarEnter (q : Nat) (seq : Nat) (s : State) : Host.Outcome State Fault Refusal := s.run (.barEnter q seq) (barEnterStep q seq)

/-- BAR_RETIRE (R378). -/
def execBarRetire (q : Nat) (seq : Nat) (s : State) : Host.Outcome State Fault Refusal := s.run (.barRetire q seq) (barRetireStep q seq)

/-- REMOTE_YOKE_OPERATION (R383). -/
def execRemoteYokeOperation (o : YokeFrame) (s : State) : Host.Outcome State Fault Refusal := s.run (.remoteYokeOperation o) (remoteYokeOperationStep o)

/-- ALLREDUCE (R462). -/
def execAllreduce (q : Nat) (seq : Nat) (s : State) : Host.Outcome State Fault Refusal := s.run (.allreduce q seq) (allreduceStep q seq)

/-- REDUCE_SCATTER (R462). -/
def execReduceScatter (q : Nat) (seq : Nat) (s : State) : Host.Outcome State Fault Refusal := s.run (.reduceScatter q seq) (reduceScatterStep q seq)

/-- ALLGATHER (R462). -/
def execAllgather (q : Nat) (seq : Nat) (s : State) : Host.Outcome State Fault Refusal := s.run (.allgather q seq) (allgatherStep q seq)

/-- BROADCAST (R462). -/
def execBroadcast (q : Nat) (seq : Nat) (s : State) : Host.Outcome State Fault Refusal := s.run (.broadcast q seq) (broadcastStep q seq)

/-- ALLTOALL (R462). -/
def execAlltoall (q : Nat) (seq : Nat) (s : State) : Host.Outcome State Fault Refusal := s.run (.alltoall q seq) (alltoallStep q seq)

/-- COLLECTIVE_MESSAGE (R464). -/
def execCollectiveMessage (m : CollMsg) (s : State) : Host.Outcome State Fault Refusal := s.run (.collectiveMessage m) (collectiveMessageStep m)

/-- WIN_OPEN (R454). -/
def execWinOpen (q : Nat) (seq : Nat) (s : State) : Host.Outcome State Fault Refusal := s.run (.winOpen q seq) (winOpenStep q seq)

/-- WIN_CLOSE (R454). -/
def execWinClose (q : Nat) (seq : Nat) (s : State) : Host.Outcome State Fault Refusal := s.run (.winClose q seq) (winCloseStep q seq)

/-- REMOTE_ACCESS_ARRIVAL (R455). -/
def execRemoteAccessArrival (a : RemoteAccess) (s : State) : Host.Outcome State Fault Refusal := s.run (.remoteAccessArrival a) (remoteAccessArrivalStep a)

/-- TRANSACTION_REPLY (R457). -/
def execTransactionReply (t : Reply) (s : State) : Host.Outcome State Fault Refusal := s.run (.transactionReply t) (transactionReplyStep t)

/-- UNREACHABLE_REPLY (R448). -/
def execUnreachableReply (txn : Nat) (s : State) : Host.Outcome State Fault Refusal := s.run (.unreachableReply txn) (unreachableReplyStep txn)

/-- E2E_TIMEOUT (R459). -/
def execE2eTimeout (txn : Nat) (s : State) : Host.Outcome State Fault Refusal := s.run (.e2eTimeout txn) (e2eTimeoutStep txn)

/-- HINT (R323). -/
def execHint (q : Nat) (seq : Nat) (s : State) : Host.Outcome State Fault Refusal := s.run (.hint q seq) (hintStep q seq)

/-- PIN (R325). -/
def execPin (q : Nat) (seq : Nat) (s : State) : Host.Outcome State Fault Refusal := s.run (.pin q seq) (pinStep q seq)

/-- UNPIN (R324). -/
def execUnpin (q : Nat) (seq : Nat) (s : State) : Host.Outcome State Fault Refusal := s.run (.unpin q seq) (unpinStep q seq)

/-- NOP (R73). -/
def execNop (k : Carrier) (seq : Nat) (s : State) : Host.Outcome State Fault Refusal := s.run (.nop k seq) (nopStep k seq)

/-- Q_ENABLE (R75). -/
def execQEnable (k : Carrier) (seq : Nat) (s : State) : Host.Outcome State Fault Refusal := s.run (.qEnable k seq) (qEnableStep k seq)

/-- Q_DISABLE (R57). -/
def execQDisable (k : Carrier) (seq : Nat) (s : State) : Host.Outcome State Fault Refusal := s.run (.qDisable k seq) (qDisableStep k seq)

/-- ABORT_SEQ (R55). -/
def execAbortSeq (k : Carrier) (seq : Nat) (s : State) : Host.Outcome State Fault Refusal := s.run (.abortSeq k seq) (abortSeqStep k seq)

/-- ABORT_QUEUE (R56). -/
def execAbortQueue (k : Carrier) (seq : Nat) (s : State) : Host.Outcome State Fault Refusal := s.run (.abortQueue k seq) (abortQueueStep k seq)

/-- CTX_PREEMPT (R27). -/
def execCtxPreempt (k : Carrier) (seq : Nat) (s : State) : Host.Outcome State Fault Refusal := s.run (.ctxPreempt k seq) (ctxPreemptStep k seq)

/-- CTX_RESUME (R27). -/
def execCtxResume (k : Carrier) (seq : Nat) (s : State) : Host.Outcome State Fault Refusal := s.run (.ctxResume k seq) (ctxResumeStep k seq)

/-- CTX_RESET (R28). -/
def execCtxReset (k : Carrier) (seq : Nat) (s : State) : Host.Outcome State Fault Refusal := s.run (.ctxReset k seq) (ctxResetStep k seq)

/-- XLT_INVALIDATE (R359). -/
def execXltInvalidate (k : Carrier) (seq : Nat) (s : State) : Host.Outcome State Fault Refusal := s.run (.xltInvalidate k seq) (xltInvalidateStep k seq)

/-- IDENTIFY (R545). -/
def execIdentify (k : Carrier) (seq : Nat) (s : State) : Host.Outcome State Fault Refusal := s.run (.identify k seq) (identifyStep k seq)

/-- REG_READ (R544). -/
def execRegRead (k : Carrier) (seq : Nat) (s : State) : Host.Outcome State Fault Refusal := s.run (.regRead k seq) (regReadStep k seq)

/-- REG_WRITE (R544). -/
def execRegWrite (k : Carrier) (seq : Nat) (s : State) : Host.Outcome State Fault Refusal := s.run (.regWrite k seq) (regWriteStep k seq)

/-- TELEMETRY_READ (R479). -/
def execTelemetryRead (k : Carrier) (seq : Nat) (s : State) : Host.Outcome State Fault Refusal := s.run (.telemetryRead k seq) (telemetryReadStep k seq)

/-- LIMIT_SET (R491). -/
def execLimitSet (k : Carrier) (seq : Nat) (s : State) : Host.Outcome State Fault Refusal := s.run (.limitSet k seq) (limitSetStep k seq)

/-- SELFTEST_SLICE (R524). -/
def execSelftestSlice (k : Carrier) (seq : Nat) (s : State) : Host.Outcome State Fault Refusal := s.run (.selftestSlice k seq) (selftestSliceStep k seq)

/-- SLICE_TEST_END (R524). -/
def execSliceTestEnd (o : SliceOutcome) (s : State) : Host.Outcome State Fault Refusal := s.run (.sliceTestEnd o) (sliceTestEndStep o)

/-- SELFTEST_FULL (R530). -/
def execSelftestFull (k : Carrier) (seq : Nat) (s : State) : Host.Outcome State Fault Refusal := s.run (.selftestFull k seq) (selftestFullStep k seq)

/-- FW_STAGE (R533). -/
def execFwStage (k : Carrier) (seq : Nat) (s : State) : Host.Outcome State Fault Refusal := s.run (.fwStage k seq) (fwStageStep k seq)

/-- FW_ACTIVATE (R513). -/
def execFwActivate (k : Carrier) (seq : Nat) (s : State) : Host.Outcome State Fault Refusal := s.run (.fwActivate k seq) (fwActivateStep k seq)

/-- FW_ACTIVATION_FAIL (R514). -/
def execFwActivationFail (s : State) : Host.Outcome State Fault Refusal := s.run .fwActivationFail fwActivationFailStep

/-- RESET_FUNCTION (R505). -/
def execResetFunction (k : Carrier) (seq : Nat) (s : State) : Host.Outcome State Fault Refusal := s.run (.resetFunction k seq) (resetFunctionStep k seq)

/-- STILE_SET (R436). -/
def execStileSet (k : Carrier) (seq : Nat) (s : State) : Host.Outcome State Fault Refusal := s.run (.stileSet k seq) (stileSetStep k seq)

/-- EVENT_LOG_READ (R504). -/
def execEventLogRead (k : Carrier) (seq : Nat) (s : State) : Host.Outcome State Fault Refusal := s.run (.eventLogRead k seq) (eventLogReadStep k seq)

/-- IADD (R221). -/
def execIadd (g : Grp) (s : State) : Host.Outcome State Fault Refusal := s.run (.iadd g) (iaddStep g)

/-- ISUB (R221). -/
def execIsub (g : Grp) (s : State) : Host.Outcome State Fault Refusal := s.run (.isub g) (isubStep g)

/-- IMUL (R221). -/
def execImul (g : Grp) (s : State) : Host.Outcome State Fault Refusal := s.run (.imul g) (imulStep g)

/-- IMULHI (R221). -/
def execImulhi (g : Grp) (s : State) : Host.Outcome State Fault Refusal := s.run (.imulhi g) (imulhiStep g)

/-- IDIV (R221). -/
def execIdiv (g : Grp) (s : State) : Host.Outcome State Fault Refusal := s.run (.idiv g) (idivStep g)

/-- IREM (R221). -/
def execIrem (g : Grp) (s : State) : Host.Outcome State Fault Refusal := s.run (.irem g) (iremStep g)

/-- AND (R221). -/
def execIand (g : Grp) (s : State) : Host.Outcome State Fault Refusal := s.run (.iand g) (iandStep g)

/-- OR (R221). -/
def execIor (g : Grp) (s : State) : Host.Outcome State Fault Refusal := s.run (.ior g) (iorStep g)

/-- XOR (R221). -/
def execIxor (g : Grp) (s : State) : Host.Outcome State Fault Refusal := s.run (.ixor g) (ixorStep g)

/-- SHL (R221). -/
def execShl (g : Grp) (s : State) : Host.Outcome State Fault Refusal := s.run (.shl g) (shlStep g)

/-- SHR (R221). -/
def execShr (g : Grp) (s : State) : Host.Outcome State Fault Refusal := s.run (.shr g) (shrStep g)

/-- IMIN (R221). -/
def execImin (g : Grp) (s : State) : Host.Outcome State Fault Refusal := s.run (.imin g) (iminStep g)

/-- IMAX (R221). -/
def execImax (g : Grp) (s : State) : Host.Outcome State Fault Refusal := s.run (.imax g) (imaxStep g)

/-- ICMP (R221). -/
def execIcmp (g : Grp) (s : State) : Host.Outcome State Fault Refusal := s.run (.icmp g) (icmpStep g)

/-- SEL (R221). -/
def execSel (g : Grp) (s : State) : Host.Outcome State Fault Refusal := s.run (.sel g) (selStep g)

/-- FADD (R221). -/
def execFadd (g : Grp) (s : State) : Host.Outcome State Fault Refusal := s.run (.fadd g) (faddStep g)

/-- FSUB (R221). -/
def execFsub (g : Grp) (s : State) : Host.Outcome State Fault Refusal := s.run (.fsub g) (fsubStep g)

/-- FMUL (R221). -/
def execFmul (g : Grp) (s : State) : Host.Outcome State Fault Refusal := s.run (.fmul g) (fmulStep g)

/-- FFMA (R221). -/
def execFfma (g : Grp) (s : State) : Host.Outcome State Fault Refusal := s.run (.ffma g) (ffmaStep g)

/-- FMIN (R221). -/
def execFmin (g : Grp) (s : State) : Host.Outcome State Fault Refusal := s.run (.fmin g) (fminStep g)

/-- FMAX (R221). -/
def execFmax (g : Grp) (s : State) : Host.Outcome State Fault Refusal := s.run (.fmax g) (fmaxStep g)

/-- FCMP (R221). -/
def execFcmp (g : Grp) (s : State) : Host.Outcome State Fault Refusal := s.run (.fcmp g) (fcmpStep g)

/-- DADD (R221). -/
def execDadd (g : Grp) (s : State) : Host.Outcome State Fault Refusal := s.run (.dadd g) (daddStep g)

/-- DSUB (R221). -/
def execDsub (g : Grp) (s : State) : Host.Outcome State Fault Refusal := s.run (.dsub g) (dsubStep g)

/-- DMUL (R221). -/
def execDmul (g : Grp) (s : State) : Host.Outcome State Fault Refusal := s.run (.dmul g) (dmulStep g)

/-- DFMA (R221). -/
def execDfma (g : Grp) (s : State) : Host.Outcome State Fault Refusal := s.run (.dfma g) (dfmaStep g)

/-- DMIN (R221). -/
def execDmin (g : Grp) (s : State) : Host.Outcome State Fault Refusal := s.run (.dmin g) (dminStep g)

/-- DMAX (R221). -/
def execDmax (g : Grp) (s : State) : Host.Outcome State Fault Refusal := s.run (.dmax g) (dmaxStep g)

/-- DCMP (R221). -/
def execDcmp (g : Grp) (s : State) : Host.Outcome State Fault Refusal := s.run (.dcmp g) (dcmpStep g)

/-- SFU (R221). -/
def execSfu (g : Grp) (s : State) : Host.Outcome State Fault Refusal := s.run (.sfu g) (sfuStep g)

/-- CVT (R221). -/
def execCvt (g : Grp) (s : State) : Host.Outcome State Fault Refusal := s.run (.cvt g) (cvtStep g)

/-- MOV (R221). -/
def execMov (g : Grp) (s : State) : Host.Outcome State Fault Refusal := s.run (.mov g) (movStep g)

/-- MOVI (R221). -/
def execMovi (g : Grp) (s : State) : Host.Outcome State Fault Refusal := s.run (.movi g) (moviStep g)

/-- MOVHI (R221). -/
def execMovhi (g : Grp) (s : State) : Host.Outcome State Fault Refusal := s.run (.movhi g) (movhiStep g)

/-- S2R (R221). -/
def execS2r (g : Grp) (s : State) : Host.Outcome State Fault Refusal := s.run (.s2r g) (s2rStep g)

/-- LD (R234). -/
def execLd (g : Grp) (s : State) : Host.Outcome State Fault Refusal := s.run (.ld g) (ldStep g)

/-- ST (R234). -/
def execSt (g : Grp) (s : State) : Host.Outcome State Fault Refusal := s.run (.st g) (stStep g)

/-- ATOM (R239). -/
def execAtom (g : Grp) (s : State) : Host.Outcome State Fault Refusal := s.run (.atom g) (atomStep g)

/-- BAR (R238). -/
def execBarSync (g : Grp) (s : State) : Host.Outcome State Fault Refusal := s.run (.barSync g) (barSyncStep g)

/-- FENCE (R238). -/
def execFence (g : Grp) (s : State) : Host.Outcome State Fault Refusal := s.run (.fence g) (fenceStep g)

/-- WAIT_MSG (R372). -/
def execWaitMsg (g : Grp) (s : State) : Host.Outcome State Fault Refusal := s.run (.waitMsg g) (waitMsgStep g)

/-- BRA (R221). -/
def execBra (g : Grp) (s : State) : Host.Outcome State Fault Refusal := s.run (.bra g) (braStep g)

/-- CALL (R221). -/
def execCall (g : Grp) (s : State) : Host.Outcome State Fault Refusal := s.run (.call g) (callStep g)

/-- RET (R221). -/
def execRet (g : Grp) (s : State) : Host.Outcome State Fault Refusal := s.run (.ret g) (retStep g)

/-- EXIT (R218). -/
def execExit (g : Grp) (s : State) : Host.Outcome State Fault Refusal := s.run (.exit g) (exitStep g)

/-- ILLEGAL_INSTRUCTION (R222). -/
def execIllegalInstruction (g : Grp) (s : State) : Host.Outcome State Fault Refusal := s.run (.illegalInstruction g) (illegalInstructionStep g)

/-- MOD_CFG_COMMIT (R59). -/
def execModCfgCommit (p : Path) (v : Nat) (s : State) : Host.Outcome State Fault Refusal := s.run (.modCfgCommit p v) (modCfgCommitStep p v)

/-- ENGINE_ADOPT_EPOCH (R60). -/
def execEngineAdoptEpoch (e : Engine) (s : State) : Host.Outcome State Fault Refusal := s.run (.engineAdoptEpoch e) (engineAdoptEpochStep e)

/-- FAULT_RETRY (R352). -/
def execFaultRetry (p : Path) (id : Nat) (s : State) : Host.Outcome State Fault Refusal := s.run (.faultRetry p id) (faultRetryStep p id)

/-- FAULT_DECLINE (R353). -/
def execFaultDecline (p : Path) (id : Nat) (s : State) : Host.Outcome State Fault Refusal := s.run (.faultDecline p id) (faultDeclineStep p id)

/-- MOD_FR_CONSUMED (R351). -/
def execModFrConsumed (p : Path) (v : Nat) (s : State) : Host.Outcome State Fault Refusal := s.run (.modFrConsumed p v) (modFrConsumedStep p v)

/-- FAULT_RING_WRITE (R351). -/
def execFaultRingWrite (id : Nat) (s : State) : Host.Outcome State Fault Refusal := s.run (.faultRingWrite id) (faultRingWriteStep id)

/-- FAULT_TIMEOUT (R354). -/
def execFaultTimeout (k : Carrier) (seq : Nat) (s : State) : Host.Outcome State Fault Refusal := s.run (.faultTimeout k seq) (faultTimeoutStep k seq)

/-- QCTL_ENABLE (R549). -/
def execQctlEnable (p : Path) (q : Nat) (s : State) : Host.Outcome State Fault Refusal := s.run (.qctlEnable p q) (qctlEnableStep p q)

/-- QCTL_DISABLE_STOP (R549). -/
def execQctlDisableStop (p : Path) (q : Nat) (s : State) : Host.Outcome State Fault Refusal := s.run (.qctlDisableStop p q) (qctlDisableStopStep p q)

/-- QCTL_DISABLE_DRAIN (R549). -/
def execQctlDisableDrain (p : Path) (q : Nat) (s : State) : Host.Outcome State Fault Refusal := s.run (.qctlDisableDrain p q) (qctlDisableDrainStep p q)

/-- REGISTER_WRITE (R540). -/
def execRegisterWrite (p : Path) (off : Nat) (size : Nat) (v : Nat) (s : State) : Host.Outcome State Fault Refusal := s.run (.registerWrite p off size v) (registerWriteStep p off size v)

/-- PCX_FLUSH (R426). -/
def execPcxFlush (p : Path) (port : Nat) (s : State) : Host.Outcome State Fault Refusal := s.run (.pcxFlush p port) (pcxFlushStep p port)

/-- PCX_RETRAIN (R433). -/
def execPcxRetrain (p : Path) (port : Nat) (s : State) : Host.Outcome State Fault Refusal := s.run (.pcxRetrain p port) (pcxRetrainStep p port)

/-- AIH_PORT_RETRAIN (R471). -/
def execAihPortRetrain (p : Path) (port : Nat) (s : State) : Host.Outcome State Fault Refusal := s.run (.aihPortRetrain p port) (aihPortRetrainStep p port)

/-- AIH_TIME_SET (R466). -/
def execAihTimeSet (p : Path) (v : Nat) (s : State) : Host.Outcome State Fault Refusal := s.run (.aihTimeSet p v) (aihTimeSetStep p v)

/-- WAKE_REQ (R490). -/
def execWakeReq (p : Path) (s : State) : Host.Outcome State Fault Refusal := s.run (.wakeReq p) (wakeReqStep p)

/-- MGT_ALERT_CLEAR (R502). -/
def execMgtAlertClear (p : Path) (s : State) : Host.Outcome State Fault Refusal := s.run (.mgtAlertClear p) (mgtAlertClearStep p)

/-- MGT_HOST_RELEASE (R536). -/
def execMgtHostRelease (p : Path) (s : State) : Host.Outcome State Fault Refusal := s.run (.mgtHostRelease p) (mgtHostReleaseStep p)

/-- IMAGE_WINDOW_WRITE (R534). -/
def execImageWindowWrite (p : Path) (w : Nat) (v : Nat) (s : State) : Host.Outcome State Fault Refusal := s.run (.imageWindowWrite p w v) (imageWindowWriteStep p w v)

/-- OPTICS_FAULT_CLEAR (R496). -/
def execOpticsFaultClear (p : Path) (port : Nat) (s : State) : Host.Outcome State Fault Refusal := s.run (.opticsFaultClear p port) (opticsFaultClearStep p port)

/-- MAILBOX_SUBMIT (R419). -/
def execMailboxSubmit (port : Nat) (s : State) : Host.Outcome State Fault Refusal := s.run (.mailboxSubmit port) (mailboxSubmitStep port)

/-- SMBUS_REQUEST (R86). -/
def execSmbusRequest (pec : Bool) (bytes : List Byte) (s : State) : Host.Outcome State Fault Refusal := s.run (.smbusRequest pec bytes) (smbusRequestStep pec bytes)

/-- SMBUS_REPLY_READ (R86). -/
def execSmbusReplyRead (s : State) : Host.Outcome State Fault Refusal := s.run .smbusReplyRead smbusReplyReadStep

/-- MGT_DATAGRAM (R87). -/
def execMgtDatagram (d : Datagram) (s : State) : Host.Outcome State Fault Refusal := s.run (.mgtDatagram d) (mgtDatagramStep d)

/-- ARP_REQUEST (R555). -/
def execArpRequest (r : ArpReq) (s : State) : Host.Outcome State Fault Refusal := s.run (.arpRequest r) (arpRequestStep r)

/-- PCX_INBOUND_WRITE (R421). -/
def execPcxInboundWrite (r : InboundReq) (s : State) : Host.Outcome State Fault Refusal := s.run (.pcxInboundWrite r) (pcxInboundWriteStep r)

/-- PCX_INBOUND_READ (R422). -/
def execPcxInboundRead (r : InboundReq) (s : State) : Host.Outcome State Fault Refusal := s.run (.pcxInboundRead r) (pcxInboundReadStep r)

/-- PCX_INBOUND_ATOMIC (R420). -/
def execPcxInboundAtomic (r : InboundReq) (s : State) : Host.Outcome State Fault Refusal := s.run (.pcxInboundAtomic r) (pcxInboundAtomicStep r)

/-- PCX_MSI_RECEIVE (R424). -/
def execPcxMsiReceive (port : Nat) (req : Nat) (addr : Nat) (data : Nat) (s : State) : Host.Outcome State Fault Refusal := s.run (.pcxMsiReceive port req addr data) (pcxMsiReceiveStep port req addr data)

/-- PCX_FLR_FUNCTION0 (R429). -/
def execPcxFlrFunction0 (port : Nat) (s : State) : Host.Outcome State Fault Refusal := s.run (.pcxFlrFunction0 port) (pcxFlrFunction0Step port)

/-- PCX_FLR_FUNCTION1 (R430). -/
def execPcxFlrFunction1 (port : Nat) (s : State) : Host.Outcome State Fault Refusal := s.run (.pcxFlrFunction1 port) (pcxFlrFunction1Step port)

/-- PCX_ENDPOINT_RESET (R430). -/
def execPcxEndpointReset (port : Nat) (s : State) : Host.Outcome State Fault Refusal := s.run (.pcxEndpointReset port) (pcxEndpointResetStep port)

/-- PCX_LINK_DOWN (R433). -/
def execPcxLinkDown (port : Nat) (s : State) : Host.Outcome State Fault Refusal := s.run (.pcxLinkDown port) (pcxLinkDownStep port)

/-- PCX_COMPLETION_TIMEOUT (R417). -/
def execPcxCompletionTimeout (port : Nat) (tag : Nat) (s : State) : Host.Outcome State Fault Refusal := s.run (.pcxCompletionTimeout port tag) (pcxCompletionTimeoutStep port tag)

/-- LINK_LOSS_OF_SIGNAL (R439). -/
def execLinkLossOfSignal (p : Nat) (s : State) : Host.Outcome State Fault Refusal := s.run (.linkLossOfSignal p) (linkLossOfSignalStep p)

/-- LINK_FEC_LOCK (R439). -/
def execLinkFecLock (p : Nat) (s : State) : Host.Outcome State Fault Refusal := s.run (.linkFecLock p) (linkFecLockStep p)

/-- CONCORD_SEND (R440). -/
def execConcordSend (p : Nat) (s : State) : Host.Outcome State Fault Refusal := s.run (.concordSend p) (concordSendStep p)

/-- CONCORD_RECEIVE (R441). -/
def execConcordReceive (p : Nat) (r : Concord) (s : State) : Host.Outcome State Fault Refusal := s.run (.concordReceive p r) (concordReceiveStep p r)

/-- FRAME_RECEIVE (R443). -/
def execFrameReceive (p : Nat) (f : LinkFrame) (s : State) : Host.Outcome State Fault Refusal := s.run (.frameReceive p f) (frameReceiveStep p f)

/-- ACK_RECEIVE (R443). -/
def execAckReceive (p : Nat) (n : Nat) (s : State) : Host.Outcome State Fault Refusal := s.run (.ackReceive p n) (ackReceiveStep p n)

/-- NAK_RECEIVE (R443). -/
def execNakReceive (p : Nat) (n : Nat) (s : State) : Host.Outcome State Fault Refusal := s.run (.nakReceive p n) (nakReceiveStep p n)

/-- ACK_TIMER (R443). -/
def execAckTimer (p : Nat) (s : State) : Host.Outcome State Fault Refusal := s.run (.ackTimer p) (ackTimerStep p)

/-- REPLAY_TIMEOUT (R443). -/
def execReplayTimeout (p : Nat) (s : State) : Host.Outcome State Fault Refusal := s.run (.replayTimeout p) (replayTimeoutStep p)

/-- LINK_RETRAIN (R444). -/
def execLinkRetrain (p : Nat) (s : State) : Host.Outcome State Fault Refusal := s.run (.linkRetrain p) (linkRetrainStep p)

/-- LINK_FAILED (R445). -/
def execLinkFailed (p : Nat) (s : State) : Host.Outcome State Fault Refusal := s.run (.linkFailed p) (linkFailedStep p)

/-- TIME_EXCHANGE (R466). -/
def execTimeExchange (x : TimeXchg) (s : State) : Host.Outcome State Fault Refusal := s.run (.timeExchange x) (timeExchangeStep x)

/-- TIME_UNSURE_TIMEOUT (R468). -/
def execTimeUnsureTimeout (s : State) : Host.Outcome State Fault Refusal := s.run .timeUnsureTimeout timeUnsureTimeoutStep

/-- STILE_CHANGE (R437). -/
def execStileChange (s : State) : Host.Outcome State Fault Refusal := s.run .stileChange stileChangeStep

/-- BYPASS_REQ (R436). -/
def execBypassReq (s : State) : Host.Outcome State Fault Refusal := s.run .bypassReq bypassReqStep

/-- MODULE_WITHDRAWN (R437). -/
def execModuleWithdrawn (s : State) : Host.Outcome State Fault Refusal := s.run .moduleWithdrawn moduleWithdrawnStep

/-- GOVERNOR_TICK (R487). -/
def execGovernorTick (m : PowerMeas) (s : State) : Host.Outcome State Fault Refusal := s.run (.governorTick m) (governorTickStep m)

/-- JUNCTION_SENSE_TICK (R493). -/
def execJunctionSenseTick (east : Nat) (west : Nat) (s : State) : Host.Outcome State Fault Refusal := s.run (.junctionSenseTick east west) (junctionSenseTickStep east west)

/-- THERMAL_TRIP (R494). -/
def execThermalTrip (sensor : Nat) (reading : Nat) (s : State) : Host.Outcome State Fault Refusal := s.run (.thermalTrip sensor reading) (thermalTripStep sensor reading)

/-- MEMORY_TEMP_POLL (R286). -/
def execMemoryTempPoll (d : MemDev) (temp : Nat) (s : State) : Host.Outcome State Fault Refusal := s.run (.memoryTempPoll d temp) (memoryTempPollStep d temp)

/-- TELEMETRY_SAMPLE (R479). -/
def execTelemetrySample (t : ThermMeas) (s : State) : Host.Outcome State Fault Refusal := s.run (.telemetrySample t) (telemetrySampleStep t)

/-- ASLEEP (R490). -/
def execAsleep (s : State) : Host.Outcome State Fault Refusal := s.run .asleep asleepStep

/-- WAKE_N_FALL (R490). -/
def execWakeNFall (s : State) : Host.Outcome State Fault Refusal := s.run .wakeNFall wakeNFallStep

/-- STAGGER_END (R490). -/
def execStaggerEnd (s : State) : Host.Outcome State Fault Refusal := s.run .staggerEnd staggerEndStep

/-- GRID_HINT_RISE (R489). -/
def execGridHintRise (s : State) : Host.Outcome State Fault Refusal := s.run .gridHintRise gridHintRiseStep

/-- OPTICS_SWITCH_LIMIT (R495). -/
def execOpticsSwitchLimit (port : Nat) (s : State) : Host.Outcome State Fault Refusal := s.run (.opticsSwitchLimit port) (opticsSwitchLimitStep port)

/-- OPTICS_RETRY (R496). -/
def execOpticsRetry (port : Nat) (ok : Bool) (s : State) : Host.Outcome State Fault Refusal := s.run (.opticsRetry port ok) (opticsRetryStep port ok)

/-- ENGINE_CLOCK_START (R476). -/
def execEngineClockStart (e : Engine) (s : State) : Host.Outcome State Fault Refusal := s.run (.engineClockStart e) (engineClockStartStep e)

/-- FURROW_IDLE_STOP (R136). -/
def execFurrowIdleStop (h : Nat) (s : State) : Host.Outcome State Fault Refusal := s.run (.furrowIdleStop h) (furrowIdleStopStep h)

/-- HARROW_IDLE_GATE (R210). -/
def execHarrowIdleGate (h : Nat) (n : Nat) (s : State) : Host.Outcome State Fault Refusal := s.run (.harrowIdleGate h n) (harrowIdleGateStep h n)

/-- DRILL_IDLE_GATE (R244). -/
def execDrillIdleGate (h : Nat) (n : Nat) (s : State) : Host.Outcome State Fault Refusal := s.run (.drillIdleGate h n) (drillIdleGateStep h n)

/-- GLEANER_IDLE_GATE (R313). -/
def execGleanerIdleGate (h : Nat) (n : Nat) (s : State) : Host.Outcome State Fault Refusal := s.run (.gleanerIdleGate h n) (gleanerIdleGateStep h n)

/-- HOST_CORE_GATE_IDLE (R476). -/
def execHostCoreGateIdle (hart : Nat) (s : State) : Host.Outcome State Fault Refusal := s.run (.hostCoreGateIdle hart) (hostCoreGateIdleStep hart)

/-- MEMORY_POWER_DOWN (R285). -/
def execMemoryPowerDown (d : MemDev) (path : Nat) (s : State) : Host.Outcome State Fault Refusal := s.run (.memoryPowerDown d path) (memoryPowerDownStep d path)

/-- MEMORY_SELF_REFRESH (R285). -/
def execMemorySelfRefresh (d : MemDev) (s : State) : Host.Outcome State Fault Refusal := s.run (.memorySelfRefresh d) (memorySelfRefreshStep d)

/-- PATROL_SCRUB_READ (R280). -/
def execPatrolScrubRead (d : MemDev) (slot : Nat) (unit : Nat) (r : ScrubRead) (s : State) : Host.Outcome State Fault Refusal := s.run (.patrolScrubRead d slot unit r) (patrolScrubReadStep d slot unit r)

/-- STREAM_TIMEOUT (R405). -/
def execStreamTimeout (h : Nat) (slice : Nat) (stream : Nat) (s : State) : Host.Outcome State Fault Refusal := s.run (.streamTimeout h slice stream) (streamTimeoutStep h slice stream)

/-- SURVEY_PERIOD_END (R322). -/
def execSurveyPeriodEnd (fills : List Fill) (s : State) : Host.Outcome State Fault Refusal := s.run (.surveyPeriodEnd fills) (surveyPeriodEndStep fills)

/-- MIGRATION_START (R331). -/
def execMigrationStart (n : Nat) (s : State) : Host.Outcome State Fault Refusal := s.run (.migrationStart n) (migrationStartStep n)

/-- MIGRATION_COPY_PASS (R328). -/
def execMigrationCopyPass (n : Nat) (dirtyA : Nat) (dirtyB : Nat) (s : State) : Host.Outcome State Fault Refusal := s.run (.migrationCopyPass n dirtyA dirtyB) (migrationCopyPassStep n dirtyA dirtyB)

/-- MIGRATION_WINDOW (R329). -/
def execMigrationWindow (n : Nat) (ns : Nat) (held : Nat) (s : State) : Host.Outcome State Fault Refusal := s.run (.migrationWindow n ns held) (migrationWindowStep n ns held)

/-- SEEDBED_GROUP_MOVE_END (R266). -/
def execSeedbedGroupMoveEnd (h : Nat) (s : State) : Host.Outcome State Fault Refusal := s.run (.seedbedGroupMoveEnd h) (seedbedGroupMoveEndStep h)

/-- RETRAINING_END (R522). -/
def execRetrainingEnd (d : MemDev) (s : State) : Host.Outcome State Fault Refusal := s.run (.retrainingEnd d) (retrainingEndStep d)

/-- COHERENCE_TIMEOUT (R400). -/
def execCoherenceTimeout (hart : Nat) (s : State) : Host.Outcome State Fault Refusal := s.run (.coherenceTimeout hart) (coherenceTimeoutStep hart)

/-- HOST_COMPLEX_RESET_END (R402). -/
def execHostComplexResetEnd (s : State) : Host.Outcome State Fault Refusal := s.run .hostComplexResetEnd hostComplexResetEndStep

/-- ERROR_REPORT (R499). -/
def execErrorReport (e : ErrorIn) (s : State) : Host.Outcome State Fault Refusal := s.run (.errorReport e) (errorReportStep e)

/-- SPARE_IN_SERVICE (R510). -/
def execSpareInService (pt : Part) (s : State) : Host.Outcome State Fault Refusal := s.run (.spareInService pt) (spareInServiceStep pt)

/-- MC_WATCHDOG_EXPIRY (R508). -/
def execMcWatchdogExpiry (h : Nat) (s : State) : Host.Outcome State Fault Refusal := s.run (.mcWatchdogExpiry h) (mcWatchdogExpiryStep h)

/-- MC_RESTART_DONE (R508). -/
def execMcRestartDone (h : Nat) (s : State) : Host.Outcome State Fault Refusal := s.run (.mcRestartDone h) (mcRestartDoneStep h)

/-- OUTPUTS_SAFE_DEFAULTS (R508). -/
def execOutputsSafeDefaults (s : State) : Host.Outcome State Fault Refusal := s.run .outputsSafeDefaults outputsSafeDefaultsStep

/-- MC_BOOT_FALLBACK (R535). -/
def execMcBootFallback (h : Nat) (s : State) : Host.Outcome State Fault Refusal := s.run (.mcBootFallback h) (mcBootFallbackStep h)

/-- STANDBY_APPLIED (R474). -/
def execStandbyApplied (s : State) : Host.Outcome State Fault Refusal := s.run .standbyApplied standbyAppliedStep

/-- STANDBY_LOST (R559). -/
def execStandbyLost (mv : Nat) (s : State) : Host.Outcome State Fault Refusal := s.run (.standbyLost mv) (standbyLostStep mv)

/-- MAIN_INPUT_FAULT (R559). -/
def execMainInputFault (mv : Nat) (s : State) : Host.Outcome State Fault Refusal := s.run (.mainInputFault mv) (mainInputFaultStep mv)

/-- PWR_EN_RISE (R559). -/
def execPwrEnRise (mv : Nat) (s : State) : Host.Outcome State Fault Refusal := s.run (.pwrEnRise mv) (pwrEnRiseStep mv)

/-- RAIL_STEP_GOOD (R472). -/
def execRailStepGood (s : State) : Host.Outcome State Fault Refusal := s.run .railStepGood railStepGoodStep

/-- SEQUENCE_FAULT (R472). -/
def execSequenceFault (rail : Nat) (mv : Nat) (s : State) : Host.Outcome State Fault Refusal := s.run (.sequenceFault rail mv) (sequenceFaultStep rail mv)

/-- RAIL_FAULT (R473). -/
def execRailFault (rail : Nat) (mv : Nat) (s : State) : Host.Outcome State Fault Refusal := s.run (.railFault rail mv) (railFaultStep rail mv)

/-- MOD_RESET_ASSERT (R562). -/
def execModResetAssert (s : State) : Host.Outcome State Fault Refusal := s.run .modResetAssert modResetAssertStep

/-- MOD_RESET_RELEASE (R516). -/
def execModResetRelease (straps : Nat) (s : State) : Host.Outcome State Fault Refusal := s.run (.modResetRelease straps) (modResetReleaseStep straps)

/-- FUSES_DONE (R517). -/
def execFusesDone (s : State) : Host.Outcome State Fault Refusal := s.run .fusesDone fusesDoneStep

/-- LOGIC_BIST_DONE (R517). -/
def execLogicBistDone (failed : List Part) (s : State) : Host.Outcome State Fault Refusal := s.run (.logicBistDone failed) (logicBistDoneStep failed)

/-- SRAM_BIST_DONE (R517). -/
def execSramBistDone (failed : List Part) (s : State) : Host.Outcome State Fault Refusal := s.run (.sramBistDone failed) (sramBistDoneStep failed)

/-- DEVICE_TRAINED (R517). -/
def execDeviceTrained (d : MemDev) (s : State) : Host.Outcome State Fault Refusal := s.run (.deviceTrained d) (deviceTrainedStep d)

/-- DEVICE_FILLED (R517). -/
def execDeviceFilled (d : MemDev) (s : State) : Host.Outcome State Fault Refusal := s.run (.deviceFilled d) (deviceFilledStep d)

/-- HOST_CORE_MEMORY_REQUEST (R395). -/
def execHostCoreMemoryRequest (r : HostReq) (s : State) : Host.Outcome State Fault Refusal := s.run (.hostCoreMemoryRequest r) (hostCoreMemoryRequestStep r)

/-- SEEDBED_WINDOW_ACCESS (R267). -/
def execSeedbedWindowAccess (hart : Nat) (off : Nat) (size : Nat) (wr : Option Nat) (s : State) : Host.Outcome State Fault Refusal := s.run (.seedbedWindowAccess hart off size wr) (seedbedWindowAccessStep hart off size wr)

/-- PCX_OUTBOUND_REQUEST (R417). -/
def execPcxOutboundRequest (r : OutReq) (s : State) : Host.Outcome State Fault Refusal := s.run (.pcxOutboundRequest r) (pcxOutboundRequestStep r)

/-- PCX_OUTBOUND_COMPLETION (R417). -/
def execPcxOutboundCompletion (port : Nat) (tag : Nat) (status : Nat) (data : List Byte) (s : State) : Host.Outcome State Fault Refusal := s.run (.pcxOutboundCompletion port tag status data) (pcxOutboundCompletionStep port tag status data)

/-- PCX_CONFIG_REQUEST (R418). -/
def execPcxConfigRequest (port : Nat) (fn : Nat) (off : Nat) (wr : Option Nat) (s : State) : Host.Outcome State Fault Refusal := s.run (.pcxConfigRequest port fn off wr) (pcxConfigRequestStep port fn off wr)

/-- PCX_LINK_UP (R431). -/
def execPcxLinkUp (port : Nat) (speed : Nat) (width : Nat) (s : State) : Host.Outcome State Fault Refusal := s.run (.pcxLinkUp port speed width) (pcxLinkUpStep port speed width)

/-- PCX_ERROR_MESSAGE (R433). -/
def execPcxErrorMessage (port : Nat) (s : State) : Host.Outcome State Fault Refusal := s.run (.pcxErrorMessage port) (pcxErrorMessageStep port)

/-- LINK_SIGNAL_DETECT (R439). -/
def execLinkSignalDetect (p : Nat) (s : State) : Host.Outcome State Fault Refusal := s.run (.linkSignalDetect p) (linkSignalDetectStep p)

/-- BALK_LINK_ERROR (R509). -/
def execBalkLinkError (h : Nat) (k : BalkErr) (s : State) : Host.Outcome State Fault Refusal := s.run (.balkLinkError h k) (balkLinkErrorStep h k)

/-- GRID_HINT_FALL (R489). -/
def execGridHintFall (s : State) : Host.Outcome State Fault Refusal := s.run .gridHintFall gridHintFallStep

/-- WAKE_N_RISE (R562). -/
def execWakeNRise (s : State) : Host.Outcome State Fault Refusal := s.run .wakeNRise wakeNRiseStep

/-- BYPASS_REQ_RELEASE (R436). -/
def execBypassReqRelease (s : State) : Host.Outcome State Fault Refusal := s.run .bypassReqRelease bypassReqReleaseStep

/-- RAIL_STEP_DOWN (R473). -/
def execRailStepDown (s : State) : Host.Outcome State Fault Refusal := s.run .railStepDown railStepDownStep

/-- STANDBY_GOOD_FOR_10_MS (R559). -/
def execStandbyGoodFor10Ms (mv : Nat) (s : State) : Host.Outcome State Fault Refusal := s.run (.standbyGoodFor10Ms mv) (standbyGoodFor10MsStep mv)

/-- MANAGEMENT_CONTROLLER_BOOT (R517). -/
def execManagementControllerBoot (h : Nat) (s : State) : Host.Outcome State Fault Refusal := s.run (.managementControllerBoot h) (managementControllerBootStep h)

/-- MANAGEMENT_CONTROLLER_RESET (R508). -/
def execManagementControllerReset (h : Nat) (cause : Nat) (s : State) : Host.Outcome State Fault Refusal := s.run (.managementControllerReset h cause) (managementControllerResetStep h cause)

/-- PORT_RESET_TIMEOUT (R431). -/
def execPortResetTimeout (aihal : Bool) (port : Nat) (s : State) : Host.Outcome State Fault Refusal := s.run (.portResetTimeout aihal port) (portResetTimeoutStep aihal port)

/-- DIRECTORY_SWEEP_END (R402). -/
def execDirectorySweepEnd (s : State) : Host.Outcome State Fault Refusal := s.run .directorySweepEnd directorySweepEndStep

/-- HEARTBEAT (R475). -/
def execHeartbeat (s : State) : Host.Outcome State Fault Refusal := s.run .heartbeat heartbeatStep

/-- TAKEOVER (R475). -/
def execTakeover (s : State) : Host.Outcome State Fault Refusal := s.run .takeover takeoverStep

/-- PWR_EN_FALL (R473). -/
def execPwrEnFall (s : State) : Host.Outcome State Fault Refusal := s.run .pwrEnFall pwrEnFallStep

end Sys2Proof.Machine
end

