-- ==== Sys2Proof/Machine/Dispatch.lean ====
section
/-! DEFINITION. One arm per command: the meaning it has. -/

namespace Sys2Proof.Machine

open Sys2Proof

/-- The effect of one command on everything but the queue of waiting commands. -/
def exec (i : Instr) (s : State) : Host.Outcome State Fault Refusal :=
  match i with
  | .qprDoorbell p q size v => Sys2Proof.Machine.execQprDoorbell p q size v s
  | .qprCqConsumed p q size v => Sys2Proof.Machine.execQprCqConsumed p q size v s
  | .qprEqConsumed p q size v => Sys2Proof.Machine.execQprEqConsumed p q size v s
  | .commandFetch q => Sys2Proof.Machine.execCommandFetch q s
  | .commandIssue k seq => Sys2Proof.Machine.execCommandIssue k seq s
  | .commandRetire k seq => Sys2Proof.Machine.execCommandRetire k seq s
  | .priorityRaise q seq => Sys2Proof.Machine.execPriorityRaise q seq s
  | .gemm q seq => Sys2Proof.Machine.execGemm q seq s
  | .gemmSplit q seq => Sys2Proof.Machine.execGemmSplit q seq s
  | .attn q seq => Sys2Proof.Machine.execAttn q seq s
  | .chain q seq => Sys2Proof.Machine.execChain q seq s
  | .launch q seq => Sys2Proof.Machine.execLaunch q seq s
  | .blockStart q seq block core => Sys2Proof.Machine.execBlockStart q seq block core s
  | .dmaCopy q seq => Sys2Proof.Machine.execDmaCopy q seq s
  | .dmaFill q seq => Sys2Proof.Machine.execDmaFill q seq s
  | .dmaGather q seq => Sys2Proof.Machine.execDmaGather q seq s
  | .dmaScatter q seq => Sys2Proof.Machine.execDmaScatter q seq s
  | .dmaAtomic q seq => Sys2Proof.Machine.execDmaAtomic q seq s
  | .score q seq => Sys2Proof.Machine.execScore q seq s
  | .valueAcc q seq => Sys2Proof.Machine.execValueAcc q seq s
  | .gleanerGather q seq => Sys2Proof.Machine.execGleanerGather q seq s
  | .gleanerScatter q seq => Sys2Proof.Machine.execGleanerScatter q seq s
  | .blockReduce q seq => Sys2Proof.Machine.execBlockReduce q seq s
  | .topk q seq => Sys2Proof.Machine.execTopk q seq s
  | .update q seq => Sys2Proof.Machine.execUpdate q seq s
  | .gleanerFill q seq => Sys2Proof.Machine.execGleanerFill q seq s
  | .gleanerCopy q seq => Sys2Proof.Machine.execGleanerCopy q seq s
  | .checksum q seq => Sys2Proof.Machine.execChecksum q seq s
  | .scrub q seq => Sys2Proof.Machine.execScrub q seq s
  | .add q seq => Sys2Proof.Machine.execAdd q seq s
  | .sub q seq => Sys2Proof.Machine.execSub q seq s
  | .setSem q seq => Sys2Proof.Machine.execSetSem q seq s
  | .cset q seq => Sys2Proof.Machine.execCset q seq s
  | .wait q seq => Sys2Proof.Machine.execWait q seq s
  | .watch q seq => Sys2Proof.Machine.execWatch q seq s
  | .claim q seq => Sys2Proof.Machine.execClaim q seq s
  | .release q seq => Sys2Proof.Machine.execRelease q seq s
  | .yokeMessageDeliver n => Sys2Proof.Machine.execYokeMessageDeliver n s
  | .barDefine q seq => Sys2Proof.Machine.execBarDefine q seq s
  | .barEnter q seq => Sys2Proof.Machine.execBarEnter q seq s
  | .barRetire q seq => Sys2Proof.Machine.execBarRetire q seq s
  | .remoteYokeOperation o => Sys2Proof.Machine.execRemoteYokeOperation o s
  | .allreduce q seq => Sys2Proof.Machine.execAllreduce q seq s
  | .reduceScatter q seq => Sys2Proof.Machine.execReduceScatter q seq s
  | .allgather q seq => Sys2Proof.Machine.execAllgather q seq s
  | .broadcast q seq => Sys2Proof.Machine.execBroadcast q seq s
  | .alltoall q seq => Sys2Proof.Machine.execAlltoall q seq s
  | .collectiveMessage m => Sys2Proof.Machine.execCollectiveMessage m s
  | .winOpen q seq => Sys2Proof.Machine.execWinOpen q seq s
  | .winClose q seq => Sys2Proof.Machine.execWinClose q seq s
  | .remoteAccessArrival a => Sys2Proof.Machine.execRemoteAccessArrival a s
  | .transactionReply t => Sys2Proof.Machine.execTransactionReply t s
  | .unreachableReply txn => Sys2Proof.Machine.execUnreachableReply txn s
  | .e2eTimeout txn => Sys2Proof.Machine.execE2eTimeout txn s
  | .hint q seq => Sys2Proof.Machine.execHint q seq s
  | .pin q seq => Sys2Proof.Machine.execPin q seq s
  | .unpin q seq => Sys2Proof.Machine.execUnpin q seq s
  | .nop k seq => Sys2Proof.Machine.execNop k seq s
  | .qEnable k seq => Sys2Proof.Machine.execQEnable k seq s
  | .qDisable k seq => Sys2Proof.Machine.execQDisable k seq s
  | .abortSeq k seq => Sys2Proof.Machine.execAbortSeq k seq s
  | .abortQueue k seq => Sys2Proof.Machine.execAbortQueue k seq s
  | .ctxPreempt k seq => Sys2Proof.Machine.execCtxPreempt k seq s
  | .ctxResume k seq => Sys2Proof.Machine.execCtxResume k seq s
  | .ctxReset k seq => Sys2Proof.Machine.execCtxReset k seq s
  | .xltInvalidate k seq => Sys2Proof.Machine.execXltInvalidate k seq s
  | .identify k seq => Sys2Proof.Machine.execIdentify k seq s
  | .regRead k seq => Sys2Proof.Machine.execRegRead k seq s
  | .regWrite k seq => Sys2Proof.Machine.execRegWrite k seq s
  | .telemetryRead k seq => Sys2Proof.Machine.execTelemetryRead k seq s
  | .limitSet k seq => Sys2Proof.Machine.execLimitSet k seq s
  | .selftestSlice k seq => Sys2Proof.Machine.execSelftestSlice k seq s
  | .sliceTestEnd o => Sys2Proof.Machine.execSliceTestEnd o s
  | .selftestFull k seq => Sys2Proof.Machine.execSelftestFull k seq s
  | .fwStage k seq => Sys2Proof.Machine.execFwStage k seq s
  | .fwActivate k seq => Sys2Proof.Machine.execFwActivate k seq s
  | .fwActivationFail => Sys2Proof.Machine.execFwActivationFail s
  | .resetFunction k seq => Sys2Proof.Machine.execResetFunction k seq s
  | .stileSet k seq => Sys2Proof.Machine.execStileSet k seq s
  | .eventLogRead k seq => Sys2Proof.Machine.execEventLogRead k seq s
  | .iadd g => Sys2Proof.Machine.execIadd g s
  | .isub g => Sys2Proof.Machine.execIsub g s
  | .imul g => Sys2Proof.Machine.execImul g s
  | .imulhi g => Sys2Proof.Machine.execImulhi g s
  | .idiv g => Sys2Proof.Machine.execIdiv g s
  | .irem g => Sys2Proof.Machine.execIrem g s
  | .iand g => Sys2Proof.Machine.execIand g s
  | .ior g => Sys2Proof.Machine.execIor g s
  | .ixor g => Sys2Proof.Machine.execIxor g s
  | .shl g => Sys2Proof.Machine.execShl g s
  | .shr g => Sys2Proof.Machine.execShr g s
  | .imin g => Sys2Proof.Machine.execImin g s
  | .imax g => Sys2Proof.Machine.execImax g s
  | .icmp g => Sys2Proof.Machine.execIcmp g s
  | .sel g => Sys2Proof.Machine.execSel g s
  | .fadd g => Sys2Proof.Machine.execFadd g s
  | .fsub g => Sys2Proof.Machine.execFsub g s
  | .fmul g => Sys2Proof.Machine.execFmul g s
  | .ffma g => Sys2Proof.Machine.execFfma g s
  | .fmin g => Sys2Proof.Machine.execFmin g s
  | .fmax g => Sys2Proof.Machine.execFmax g s
  | .fcmp g => Sys2Proof.Machine.execFcmp g s
  | .dadd g => Sys2Proof.Machine.execDadd g s
  | .dsub g => Sys2Proof.Machine.execDsub g s
  | .dmul g => Sys2Proof.Machine.execDmul g s
  | .dfma g => Sys2Proof.Machine.execDfma g s
  | .dmin g => Sys2Proof.Machine.execDmin g s
  | .dmax g => Sys2Proof.Machine.execDmax g s
  | .dcmp g => Sys2Proof.Machine.execDcmp g s
  | .sfu g => Sys2Proof.Machine.execSfu g s
  | .cvt g => Sys2Proof.Machine.execCvt g s
  | .mov g => Sys2Proof.Machine.execMov g s
  | .movi g => Sys2Proof.Machine.execMovi g s
  | .movhi g => Sys2Proof.Machine.execMovhi g s
  | .s2r g => Sys2Proof.Machine.execS2r g s
  | .ld g => Sys2Proof.Machine.execLd g s
  | .st g => Sys2Proof.Machine.execSt g s
  | .atom g => Sys2Proof.Machine.execAtom g s
  | .barSync g => Sys2Proof.Machine.execBarSync g s
  | .fence g => Sys2Proof.Machine.execFence g s
  | .waitMsg g => Sys2Proof.Machine.execWaitMsg g s
  | .bra g => Sys2Proof.Machine.execBra g s
  | .call g => Sys2Proof.Machine.execCall g s
  | .ret g => Sys2Proof.Machine.execRet g s
  | .exit g => Sys2Proof.Machine.execExit g s
  | .illegalInstruction g => Sys2Proof.Machine.execIllegalInstruction g s
  | .modCfgCommit p v => Sys2Proof.Machine.execModCfgCommit p v s
  | .engineAdoptEpoch e => Sys2Proof.Machine.execEngineAdoptEpoch e s
  | .faultRetry p id => Sys2Proof.Machine.execFaultRetry p id s
  | .faultDecline p id => Sys2Proof.Machine.execFaultDecline p id s
  | .modFrConsumed p v => Sys2Proof.Machine.execModFrConsumed p v s
  | .faultRingWrite id => Sys2Proof.Machine.execFaultRingWrite id s
  | .faultTimeout k seq => Sys2Proof.Machine.execFaultTimeout k seq s
  | .qctlEnable p q => Sys2Proof.Machine.execQctlEnable p q s
  | .qctlDisableStop p q => Sys2Proof.Machine.execQctlDisableStop p q s
  | .qctlDisableDrain p q => Sys2Proof.Machine.execQctlDisableDrain p q s
  | .registerWrite p off size v => Sys2Proof.Machine.execRegisterWrite p off size v s
  | .pcxFlush p port => Sys2Proof.Machine.execPcxFlush p port s
  | .pcxRetrain p port => Sys2Proof.Machine.execPcxRetrain p port s
  | .aihPortRetrain p port => Sys2Proof.Machine.execAihPortRetrain p port s
  | .aihTimeSet p v => Sys2Proof.Machine.execAihTimeSet p v s
  | .wakeReq p => Sys2Proof.Machine.execWakeReq p s
  | .mgtAlertClear p => Sys2Proof.Machine.execMgtAlertClear p s
  | .mgtHostRelease p => Sys2Proof.Machine.execMgtHostRelease p s
  | .imageWindowWrite p w v => Sys2Proof.Machine.execImageWindowWrite p w v s
  | .opticsFaultClear p port => Sys2Proof.Machine.execOpticsFaultClear p port s
  | .mailboxSubmit port => Sys2Proof.Machine.execMailboxSubmit port s
  | .smbusRequest pec bytes => Sys2Proof.Machine.execSmbusRequest pec bytes s
  | .smbusReplyRead => Sys2Proof.Machine.execSmbusReplyRead s
  | .mgtDatagram d => Sys2Proof.Machine.execMgtDatagram d s
  | .arpRequest r => Sys2Proof.Machine.execArpRequest r s
  | .pcxInboundWrite r => Sys2Proof.Machine.execPcxInboundWrite r s
  | .pcxInboundRead r => Sys2Proof.Machine.execPcxInboundRead r s
  | .pcxInboundAtomic r => Sys2Proof.Machine.execPcxInboundAtomic r s
  | .pcxMsiReceive port req addr data => Sys2Proof.Machine.execPcxMsiReceive port req addr data s
  | .pcxFlrFunction0 port => Sys2Proof.Machine.execPcxFlrFunction0 port s
  | .pcxFlrFunction1 port => Sys2Proof.Machine.execPcxFlrFunction1 port s
  | .pcxEndpointReset port => Sys2Proof.Machine.execPcxEndpointReset port s
  | .pcxLinkDown port => Sys2Proof.Machine.execPcxLinkDown port s
  | .pcxCompletionTimeout port tag => Sys2Proof.Machine.execPcxCompletionTimeout port tag s
  | .linkLossOfSignal p => Sys2Proof.Machine.execLinkLossOfSignal p s
  | .linkFecLock p => Sys2Proof.Machine.execLinkFecLock p s
  | .concordSend p => Sys2Proof.Machine.execConcordSend p s
  | .concordReceive p r => Sys2Proof.Machine.execConcordReceive p r s
  | .frameReceive p f => Sys2Proof.Machine.execFrameReceive p f s
  | .ackReceive p n => Sys2Proof.Machine.execAckReceive p n s
  | .nakReceive p n => Sys2Proof.Machine.execNakReceive p n s
  | .ackTimer p => Sys2Proof.Machine.execAckTimer p s
  | .replayTimeout p => Sys2Proof.Machine.execReplayTimeout p s
  | .linkRetrain p => Sys2Proof.Machine.execLinkRetrain p s
  | .linkFailed p => Sys2Proof.Machine.execLinkFailed p s
  | .timeExchange x => Sys2Proof.Machine.execTimeExchange x s
  | .timeUnsureTimeout => Sys2Proof.Machine.execTimeUnsureTimeout s
  | .stileChange => Sys2Proof.Machine.execStileChange s
  | .bypassReq => Sys2Proof.Machine.execBypassReq s
  | .moduleWithdrawn => Sys2Proof.Machine.execModuleWithdrawn s
  | .governorTick m => Sys2Proof.Machine.execGovernorTick m s
  | .junctionSenseTick east west => Sys2Proof.Machine.execJunctionSenseTick east west s
  | .thermalTrip sensor reading => Sys2Proof.Machine.execThermalTrip sensor reading s
  | .memoryTempPoll d temp => Sys2Proof.Machine.execMemoryTempPoll d temp s
  | .telemetrySample t => Sys2Proof.Machine.execTelemetrySample t s
  | .asleep => Sys2Proof.Machine.execAsleep s
  | .wakeNFall => Sys2Proof.Machine.execWakeNFall s
  | .staggerEnd => Sys2Proof.Machine.execStaggerEnd s
  | .gridHintRise => Sys2Proof.Machine.execGridHintRise s
  | .opticsSwitchLimit port => Sys2Proof.Machine.execOpticsSwitchLimit port s
  | .opticsRetry port ok => Sys2Proof.Machine.execOpticsRetry port ok s
  | .engineClockStart e => Sys2Proof.Machine.execEngineClockStart e s
  | .furrowIdleStop h => Sys2Proof.Machine.execFurrowIdleStop h s
  | .harrowIdleGate h n => Sys2Proof.Machine.execHarrowIdleGate h n s
  | .drillIdleGate h n => Sys2Proof.Machine.execDrillIdleGate h n s
  | .gleanerIdleGate h n => Sys2Proof.Machine.execGleanerIdleGate h n s
  | .hostCoreGateIdle hart => Sys2Proof.Machine.execHostCoreGateIdle hart s
  | .memoryPowerDown d path => Sys2Proof.Machine.execMemoryPowerDown d path s
  | .memorySelfRefresh d => Sys2Proof.Machine.execMemorySelfRefresh d s
  | .patrolScrubRead d slot unit r => Sys2Proof.Machine.execPatrolScrubRead d slot unit r s
  | .streamTimeout h slice stream => Sys2Proof.Machine.execStreamTimeout h slice stream s
  | .surveyPeriodEnd fills => Sys2Proof.Machine.execSurveyPeriodEnd fills s
  | .migrationStart n => Sys2Proof.Machine.execMigrationStart n s
  | .migrationCopyPass n dirtyA dirtyB => Sys2Proof.Machine.execMigrationCopyPass n dirtyA dirtyB s
  | .migrationWindow n ns held => Sys2Proof.Machine.execMigrationWindow n ns held s
  | .seedbedGroupMoveEnd h => Sys2Proof.Machine.execSeedbedGroupMoveEnd h s
  | .retrainingEnd d => Sys2Proof.Machine.execRetrainingEnd d s
  | .coherenceTimeout hart => Sys2Proof.Machine.execCoherenceTimeout hart s
  | .hostComplexResetEnd => Sys2Proof.Machine.execHostComplexResetEnd s
  | .errorReport e => Sys2Proof.Machine.execErrorReport e s
  | .spareInService pt => Sys2Proof.Machine.execSpareInService pt s
  | .mcWatchdogExpiry h => Sys2Proof.Machine.execMcWatchdogExpiry h s
  | .mcRestartDone h => Sys2Proof.Machine.execMcRestartDone h s
  | .outputsSafeDefaults => Sys2Proof.Machine.execOutputsSafeDefaults s
  | .mcBootFallback h => Sys2Proof.Machine.execMcBootFallback h s
  | .standbyApplied => Sys2Proof.Machine.execStandbyApplied s
  | .standbyLost mv => Sys2Proof.Machine.execStandbyLost mv s
  | .mainInputFault mv => Sys2Proof.Machine.execMainInputFault mv s
  | .pwrEnRise mv => Sys2Proof.Machine.execPwrEnRise mv s
  | .railStepGood => Sys2Proof.Machine.execRailStepGood s
  | .sequenceFault rail mv => Sys2Proof.Machine.execSequenceFault rail mv s
  | .railFault rail mv => Sys2Proof.Machine.execRailFault rail mv s
  | .modResetAssert => Sys2Proof.Machine.execModResetAssert s
  | .modResetRelease straps => Sys2Proof.Machine.execModResetRelease straps s
  | .fusesDone => Sys2Proof.Machine.execFusesDone s
  | .logicBistDone failed => Sys2Proof.Machine.execLogicBistDone failed s
  | .sramBistDone failed => Sys2Proof.Machine.execSramBistDone failed s
  | .deviceTrained d => Sys2Proof.Machine.execDeviceTrained d s
  | .deviceFilled d => Sys2Proof.Machine.execDeviceFilled d s
  | .hostCoreMemoryRequest r => Sys2Proof.Machine.execHostCoreMemoryRequest r s
  | .seedbedWindowAccess hart off size wr => Sys2Proof.Machine.execSeedbedWindowAccess hart off size wr s
  | .pcxOutboundRequest r => Sys2Proof.Machine.execPcxOutboundRequest r s
  | .pcxOutboundCompletion port tag status data => Sys2Proof.Machine.execPcxOutboundCompletion port tag status data s
  | .pcxConfigRequest port fn off wr => Sys2Proof.Machine.execPcxConfigRequest port fn off wr s
  | .pcxLinkUp port speed width => Sys2Proof.Machine.execPcxLinkUp port speed width s
  | .pcxErrorMessage port => Sys2Proof.Machine.execPcxErrorMessage port s
  | .linkSignalDetect p => Sys2Proof.Machine.execLinkSignalDetect p s
  | .balkLinkError h k => Sys2Proof.Machine.execBalkLinkError h k s
  | .gridHintFall => Sys2Proof.Machine.execGridHintFall s
  | .wakeNRise => Sys2Proof.Machine.execWakeNRise s
  | .bypassReqRelease => Sys2Proof.Machine.execBypassReqRelease s
  | .railStepDown => Sys2Proof.Machine.execRailStepDown s
  | .standbyGoodFor10Ms mv => Sys2Proof.Machine.execStandbyGoodFor10Ms mv s
  | .managementControllerBoot h => Sys2Proof.Machine.execManagementControllerBoot h s
  | .managementControllerReset h cause => Sys2Proof.Machine.execManagementControllerReset h cause s
  | .portResetTimeout aihal port => Sys2Proof.Machine.execPortResetTimeout aihal port s
  | .directorySweepEnd => Sys2Proof.Machine.execDirectorySweepEnd s
  | .heartbeat => Sys2Proof.Machine.execHeartbeat s
  | .takeover => Sys2Proof.Machine.execTakeover s
  | .pwrEnFall => Sys2Proof.Machine.execPwrEnFall s

end Sys2Proof.Machine
end

