-- ==== Sys2Proof/Safety.lean ====
section
/-! DEFINITION. What counts as a safe state and a safe step, and the terms in which statements speak of commands: what a command gives, what
a module at rest is, and what it means that only registers differ. -/

namespace Sys2Proof.Machine

open Sys2Proof

/-- The invariant of the machine: its registers, memories and tables are in canonical form. -/
def Canonical (s : State) : Prop := s.toChip.wf = true

/-- A step that neither faults nor refuses. -/
def Runs (s : State) : Prop := ∃ t, step s = .next t

/-- Command i, run in state s, answers a next state: the queue of waiting commands as it was, and the module as e with what e causes at once. -/
def Gives (i : Instr) (s : State) (e : Chip) : Prop := exec i s = .next { s with toChip := e.after }

/-- Nothing in the module waits to move on by itself: no command looks for a watch place, a scoreboard or a place for its fault, no
collective or launch is in progress, no message waits to leave, no device wakes, and no store is on its way. -/
def Chip.quiet (c : Chip) : Bool :=
  c.cmds.isEmpty && c.fab.colls.isEmpty && c.fab.own.isEmpty && c.drill.launches.isEmpty && c.yoke.outs.isEmpty && c.yoke.held.isEmpty &&
    c.srv.waking.isEmpty && c.landing.isEmpty && c.eng.all (fun e => !e.2.paid)

/-- Two modules differ in nothing but registers, and there only in those of the list. -/
def OnlyRegs (l : List Nat) (a b : Chip) : Prop := b = { a with regs := b.regs } ∧ ∀ o, o ∉ l → b.reg o = a.reg o

/-- Every byte of frame space and of the Seedbeds reads the same. -/
def SameMemory (a b : Chip) : Prop := (∀ x, b.rdByte x = a.rdByte x) ∧ ∀ h o, b.rdSbd h o = a.rdSbd h o

/-- The commit units of an engine command, done one after another from where it stands to the last, with the stores of each landed: the
command and the module after them; none where one of them stalls, meets bad parity, ends the command or waits. -/
def unitsDone (total : Nat) (unit : Nat → Cmd → Chip → UOut) : Nat → Cmd → Chip → Option (Cmd × Chip)
  | 0, m, c => if m.prog ≥ total then some (m, c) else none
  | n + 1, m, c =>
    if m.prog ≥ total then some (m, c)
    else match unit m.prog m c with
    | .ok m c => unitsDone total unit n { m with prog := m.prog + 1 } c.land
    | _ => none

/-- An engine command whose units are all done ends with its outcome, and faults that nothing waits for any longer are withdrawn (R355). -/
def ended (r : Cmd → Chip → Res) (x : Cmd × Chip) : Chip := withdrawFaults (finish x.1 (r x.1 x.2) x.2)

/-- A thread group comes to a legal instruction of an opcode, and its core holds no parity error: x is what the instruction acts on, and e the
module with the instruction and its cycles counted. -/
def comesTo (op : Nat) (g : Grp) (c : Chip) (x : DCtx) (e : Chip) : Prop :=
  ∃ m l b y pc lanes d, drillGroup g c = some (m, l, b, y) ∧ y.next = some (pc, lanes) ∧ drillFetch m l b y pc lanes c = (.inl x, d) ∧
    x.i.base = op ∧ x.i.legal (launchRegs m) = true ∧ (d.engine ⟨3, l.half, b.core⟩).upset = false ∧
    e = (d.rcount x.base DRL_INSTR 1).cycles
      [(x.base, DRL_CYC_ACTIVE), (x.base, DRL_CYC_STALL_BANK), (x.base, DRL_CYC_STALL_MEM), (x.base, DRL_CYC_STALL_EXT)]

/-- A write of `size` bytes at an offset of register space finds a register: the module has standby power, the path is live, the offset is
aligned, and the register there is reached, in service and not another module's. -/
def finds (path : Path) (o size : Nat) (c : Chip) (p : Place) (r : RegDef) : Prop :=
  c.hedge.standby = true ∧ pathLive path c = true ∧ o < 0x10000000 ∧ accessFits o size = true ∧ targetOf path o c = .reg p r

end Sys2Proof.Machine
end

