-- ==== Sys2Proof/Certificates/Slice0/Obligations.lean ====
section
/-! DEFINITION. The statements about the model, for the provers. -/

open Sys2Proof Sys2Proof.Machine

/-! ### The machine -/

/-- A step takes the command at the front of the queue: step is exec of that command on the state whose queue is the rest. -/
def Obligations.StepRunsTheFrontCommand : Prop :=
  ∀ (i : Instr) (rest : List Instr) (s : State), step { s with pending := i :: rest } = exec i { s with pending := rest }

/-- With no command waiting the block lets one period of the 25 MHz crystal pass (the model's choice, log entry 1): the queue stays empty,
the module is as Chip.tick leaves it, in canonical form, and while nothing is slewed and no posted write waits in a port fabric time has
advanced by 40 ns with no other field but the registers changed, and of these only the two cycle counters. -/
def Obligations.IdleStepIsAClockPeriod : Prop :=
  ∀ s : State, s.pending = [] →
    step s = .next { s with toChip := s.toChip.tick.canon } ∧
    (s.fab.rate = 0 → s.fab.left = 0 → s.fab.frac = 0 → (s.toChip.port 0).posted = [] → (s.toChip.port 1).posted = [] →
      OnlyRegs [HALF 0 + MOD_HALF_CYCLES_CYCLES.off, HALF 1 + MOD_HALF_CYCLES_CYCLES.off]
        { s.toChip with time := (s.time + 40) % 2 ^ 64 } s.toChip.tick)

/-- Every well-formed command answers a next state in every state: never a fault, never a refusal, the queue of waiting commands as it was
and the machine's invariant in force. Operands that name no part of the module, or a value outside their field, make no command: the machine
stops on it (the model's choice, log entry 2). -/
def Obligations.WellFormedCommandsAnswer : Prop :=
  ∀ (i : Instr) (s : State), (i.wf = true → ∃ t, exec i s = .next t ∧ t.pending = s.pending ∧ Canonical t) ∧
    (i.wf = false → exec i s = .fault .illFormed)

/-- The invariant, that registers, memories and tables are in their canonical forms, is kept by every step from every state. -/
def Obligations.EveryStepKeepsTheInvariant : Prop :=
  ∀ s t : State, Canonical s → step s = .next t → Canonical t

/-- The state after reset meets the invariant, its queue is empty, nothing in it waits to move on, and its registers read the reset values
that the manual's tables give. -/
def Obligations.ResetMeetsTheTables : Prop :=
  Canonical State.reset ∧ State.reset.pending = [] ∧ State.reset.toChip.quiet = true ∧
  (let c := State.reset.toChip
   c.rget MOD MOD_STATUS_READY = 0 ∧ c.rget MOD MOD_CFG_EPOCH_CURRENT = 1 ∧ c.rget MOD MOD_CFG_EPOCH_PREVIOUS = 0 ∧
   c.rget MOD MOD_SRV_POLICY_BUDGET = 30 ∧ c.rget MOD MOD_SRV_POLICY_ENABLE = 1 ∧ c.rget MOD MOD_SRV_POLICY_PERIOD = 10 ∧
   c.rget MOD MOD_XLT_CTL_DEF_TIMEOUT = 1000 ∧ c.rget PWR PWR_LIMIT_LIMIT = 2400 ∧ c.rget PWR PWR_LIMIT_FIXED_FREQ = 1 ∧
   c.rget PWR PWR_GRID_RAMP = 20 ∧ c.rget PWR PWR_STATUS_ASLEEP = 1 ∧ c.rget PWR PWR_OPTICS_CTL_ON = 0x1FF ∧
   c.rget MGT MGT_CTL_ALERT_SEV = 3 ∧ c.rget AIH AIH_NODE_ID_NODE = 0xFFFFFF ∧
   ∀ h < 2, c.rget (FUR h) FUR_CTL_IDLE_STOP = 50 ∧ c.rget (HAR h 15) HAR_CTL_IDLE_GATE = 20 ∧ c.rget (DRL h 63) DRL_CTL_IDLE_GATE = 20 ∧
     c.rget (INF h 5) INF_CTL_SCRUB_HOURS = 12 ∧ c.rget (OUT h 47) OUT_CTL_SR_IDLE = 10 ∧ c.rget (YOK h) YOK_CTL_VEC_OPEN_BASE = 0x4000 ∧
     c.rget (HST h 35) HST_CTL_GATE_IDLE = 100 ∧ c.rget (SYC h 15) SYC_CTL_STREAM_THRESH = 16 ∧ c.rget (PCX h) PCX_OWN_CTX_LO = 0xFFFF)

/-- A module in which nothing waits to move on is not changed by what follows a command, but for its canonical form; and the canonical form
reads the same everywhere: registers, both memories, contexts, queues, frames' places and engines. -/
def Obligations.AtRestNothingFollows : Prop :=
  ∀ c : Chip, c.quiet = true → c.after = c.canon ∧ SameMemory c c.after ∧ (∀ o, c.after.reg o = c.reg o) ∧ (∀ n, c.after.ctx n = c.ctx n) ∧
    (∀ q, c.after.queue q = c.queue q) ∧ (∀ f, c.after.place f = c.place f) ∧ ∀ e, c.after.engine e = c.engine e

/-- A register field reads back the low bits of what was put into it, a counter reads its old value and the advance modulo its width, every
field that shares no bit with it reads as before, and nothing but that register changes. A byte that an engine writes to a backed frame reads
back, a byte not backed is not written, and while no host core holds a copy of its sector every other byte of frame space, and every byte of
the Seedbeds, reads as before. A byte stored in a Seedbed reads back and changes no other. Both memories stay in canonical form. -/
def Obligations.FieldsAndMemoryReadBack : Prop :=
  (∀ (c : Chip) (b : Nat) (f : Fld) (v : Nat), f.lo + f.w ≤ 64 →
    (c.rput b f v).rget b f = v % 2 ^ f.w ∧ (c.rcount b f v).rget b f = (c.rget b f + v) % 2 ^ f.w ∧
    (∀ b' g, b' + g.off ≠ b + f.off ∨ f.lo + f.w ≤ g.lo ∨ g.lo + g.w ≤ f.lo → (c.rput b f v).rget b' g = c.rget b' g) ∧
    OnlyRegs [b + f.off] c (c.rput b f v)) ∧
  ∀ (c : Chip) (a : Nat) (b : Byte),
    (backed a 1 = true → (c.wrByte a b).rdByte a = b) ∧
    (backed a 1 = false → c.wrByte a b = c) ∧
    (c.host.dir.find? (fun d => d.sec == a / 64) = none → ∀ x, x ≠ a → (c.wrByte a b).rdByte x = c.rdByte x) ∧
    (∀ h o, (c.wrByte a b).rdSbd h o = c.rdSbd h o) ∧
    (∀ h o h' o', (c.putSbd h o b).rdSbd h' o' = if sbdKey h' o' = sbdKey h o then b else c.rdSbd h' o') ∧
    (kwf memDef c.mem = true → kwf memDef (c.wrByte a b).mem = true) ∧
    (kwf memDef c.sbd = true → ∀ h o, kwf memDef (c.putSbd h o b).sbd = true)

/-! ### Queues -/

/-- A doorbell of 64 bits to a queue page of a running module is handled by the state of the queue and by its SEQ and TAIL, in the order of
R36: no effect but STALE_DB while the queue is DISABLED or DRAINING, nothing for a repeated one, STALE_DB for one that is not newer, an
overrun (the queue in ERROR, the event of R47 to its context) where TAIL lies beyond the ring or more than 2^SQ_LOG2 - 1 slots would stand
between HEAD and TAIL, and otherwise TAIL and SEQ accepted and counted. A narrower doorbell has no effect but on the access log, as KIND 1. A 32-bit write of
QPR_CQ_CONSUMED or QPR_EQ_CONSUMED takes the value, the latter for the event ring of the queue's context, where no drops are held. -/
def Obligations.QueuePageWritesAct : Prop :=
  ∀ (s : State) (p : Path) (q v : Nat), s.toChip.up = true →
    let c := s.toChip
    let x := c.queue q
    let tail : Nat := v % 2 ^ 20
    let seq : Nat := v / 2 ^ 32 % 2 ^ 32
    let stale := c.setQueue q { x with staleDb := min (x.staleDb + 1) 0xFFF }
    let left : Int := ((x.tail : Int) - x.head) % 2 ^ x.sqLog2 + ((tail : Int) - x.tail) % 2 ^ x.sqLog2
    ((Instr.qprDoorbell p q 8 v).wf = true → x.st = .disabled ∨ x.st = .draining → x.staleDb ≤ 0xFFF →
      Gives (.qprDoorbell p q 8 v) s stale) ∧
    ((Instr.qprDoorbell p q 8 v).wf = true → x.st ≠ .disabled → x.st ≠ .draining →
      (seq = x.lastDbSeq ∧ tail = x.tail → Gives (.qprDoorbell p q 8 v) s c) ∧
      (¬ (seq = x.lastDbSeq ∧ tail = x.tail) →
        let d := ((seq : Int) - x.lastDbSeq) % 2 ^ 32
        (¬ (1 ≤ d ∧ d ≤ 2 ^ 31 - 1) → x.staleDb ≤ 0xFFF → Gives (.qprDoorbell p q 8 v) s stale) ∧
        (1 ≤ d ∧ d ≤ 2 ^ 31 - 1 → tail ≥ 2 ^ x.sqLog2 ∨ left > 2 ^ x.sqLog2 - 1 →
          Gives (.qprDoorbell p q 8 v) s (postEvent x.ctx 0x0001 q seq (fields 16 [(0, 4, tail), (4, 4, x.head), (8, 4, x.tail)])
            ((c.setQueue q { x with st := .error }).rput (QPB (q % 2)) QPR_ERR_OVERRUN 1))) ∧
        (1 ≤ d ∧ d ≤ 2 ^ 31 - 1 → tail < 2 ^ x.sqLog2 → left ≤ 2 ^ x.sqLog2 - 1 →
          Gives (.qprDoorbell p q 8 v) s ((c.setQueue q { x with tail := tail, lastDbSeq := seq }).rcount (QPB (q % 2)) QPR_DOORBELLS 1)))) ∧
    (∀ sz, (Instr.qprDoorbell p q sz v).wf = true → sz = 1 ∨ sz = 2 ∨ sz = 4 →
      Gives (.qprDoorbell p q sz v) s (accLog 1 (q * 64) .narrow p c)) ∧
    ((Instr.qprCqConsumed p q 4 v).wf = true →
      Gives (.qprCqConsumed p q 4 v) s (c.setQueue q { c.queue q with cqConsumed := v % 2 ^ 32 })) ∧
    ((Instr.qprEqConsumed p q 4 v).wf = true → ∀ n, queueCtx c q = some n → (c.ctx n).held = none ∨ (c.ctx n).heldDrops = 0 →
      Gives (.qprEqConsumed p q 4 v) s (c.setCtx n { c.ctx n with eqConsumed := v % 2 ^ 32 }))

/-- What COMMAND_FETCH takes from the ring of an enabled queue that has commands before TAIL, fewer than 64 of them not retired, and a free
slot in its completion ring: nothing while a command's LEN reaches TAIL; a header that fails its check puts the queue in ERROR with HEAD
where it was and sends the event of R47; a SEQ not newer than LAST_ACCEPTED is a duplicate, answered at once from the window, remembered
until its first command retires, or suppressed when the window does not hold it. -/
def Obligations.FetchHandlesHeadersAndDuplicates : Prop :=
  ∀ (s : State) (q : Nat), (Instr.commandFetch q).wf = true →
    let c := s.toChip
    let x := c.queue q
    let h := slotBytes c x x.head
    let len := leAt h 3 1
    let seq := leAt h 4 4
    let b := c.setQueue q { x with head := (x.head + len) % 2 ^ x.sqLog2 }
    let counted := b.rcount (QPB (q % 2)) QPR_DUPLICATES 1
    c.up = true → x.st = .enabled → x.head ≠ x.tail → (c.cmdsOf (.queue q)).length < 64 → cqFree c q = true →
      (crc8 (h.take 14) ≠ leAt h 14 1 ∨ leAt h 15 1 ≠ 0 ∨ len = 0 ∨ len > 16 →
        Gives (.commandFetch q) s (postEvent x.ctx 0x0002 q seq
          (fields 16 [(0, 4, x.head), (4, 1, headerCheck h), (5, 1, len), (6, 1, leAt h 14 1), (7, 1, crc8 (h.take 14))])
          ((c.setQueue q { x with st := .error }).rput (QPB (q % 2)) QPR_ERR_MALFORMED_HDR 1))) ∧
      (headerCheck h = 0 → x.head + len ≤ 2 ^ x.sqLog2 → len > ringDiff x.sqLog2 x.tail x.head → Gives (.commandFetch q) s c) ∧
      (headerCheck h = 0 → x.head + len ≤ 2 ^ x.sqLog2 → len ≤ ringDiff x.sqLog2 x.tail x.head → seqNewer seq x.lastAccepted = false →
        (x.window.find? (fun y => y.seq == seq) = none →
          Gives (.commandFetch q) s (writeCq q (recordBytes counted seq sDupSupp (engByte (bits (leAt h 0 2) 12 4) x.defHalf) 0
            (setDflag (detail []) 1)) counted)) ∧
        (∀ r, x.window.find? (fun y => y.seq == seq) = some ⟨seq, some r⟩ →
          Gives (.commandFetch q) s (writeCq q (recordBytes counted seq r.status (engByte (bits (leAt h 0 2) 12 4) x.defHalf) 0
            (setDflag r.detail 0)) counted)) ∧
        (x.window.find? (fun y => y.seq == seq) = some ⟨seq, none⟩ →
          Gives (.commandFetch q) s (counted.setQueue q
            { counted.queue q with dups := x.dups ++ [⟨seq, bits (leAt h 0 2) 12 4, x.defHalf⟩] })))

/-- COMMAND_FETCH of a command with a newer SEQ, good parameters, a wait-list entry it may use and no PRE_WAIT of its own, whose chain is whole,
whose access is permitted and whose pages all translate: it is in the module afterwards, with the bytes of its LEN slots, its queue's context
and no record yet; HEAD has moved past its slots, LAST_ACCEPTED is its SEQ, the window remembers it among the last 64, other queues are
unchanged, and both memories are as the translation left them. -/
def Obligations.FetchAcceptsNewCommands : Prop :=
  ∀ (s : State) (q : Nat), (Instr.commandFetch q).wf = true →
    let c := s.toChip
    let x := c.queue q
    let h := slotBytes c x x.head
    let len := leAt h 3 1
    let m := newCmd q ((List.range len).flatMap (fun i => slotBytes c x (x.head + i))) c
    let r := xlatePages (q % 2) m.ctx (c.ctxDesc m.ctx).ptRoot (cmdNeeds m) c
    let m := { m with pages := r.1, runs := runCount r.1 }
    let base := r.2.rput (XLT (q % 2)) XLT_STATUS_STORE_WAIT 0
    let y := { base.queue q with head := (x.head + len) % 2 ^ x.sqLog2 }
    let moved := base.setQueue q y
    let o := chooseHalf moved y m
    let m := { m with half := o.1, both := o.2.1 }
    let n := { m with sbExt := cmdSbExts moved m }
    c.up = true → x.st = .enabled → x.head ≠ x.tail → (c.cmdsOf (.queue q)).length < 64 → cqFree c q = true →
    headerCheck h = 0 → x.head + len ≤ 2 ^ x.sqLog2 → len ≤ ringDiff x.sqLog2 x.tail x.head → seqNewer (leAt h 4 4) x.lastAccepted = true →
    paramsOk c (newCmd q m.bytes c) = true → paramsOk moved m = true → preWaitOk c x (newCmd q m.bytes c) = true → m.preWaitField = 0 →
    m.runs ≤ 2097152 → m.runs ≤ storeFree c (q % 2) → y.chainBroken = false → accessErr moved m = none → (∀ p ∈ m.pages, p.bad = none) →
    r.2.findCmd (.queue q) m.seq = none →
      ∃ e, Gives (.commandFetch q) s e ∧ e.cmds = r.2.cmds ++ [n] ∧ e.findCmd (.queue q) n.seq = some n ∧
        e.queue q = { y with curHalf := o.2.2, lastAccepted := m.seq, accepted := y.accepted + 1,
                             window := (y.window ++ [({ seq := m.seq, res := none } : Seen)]).drop (y.window.length + 1 - 64) } ∧
        (∀ k, k ≠ q → e.queue k = r.2.queue k) ∧ SameMemory r.2 e

/-- A command whose LEN would carry it past the last slot of the ring completes with MALFORMED, and HEAD moves to slot 0: it enters the
module and retires at once, whatever else its bytes say. -/
def Obligations.FetchPastTheRingIsMalformed : Prop :=
  ∀ (s : State) (q : Nat), (Instr.commandFetch q).wf = true →
    let c := s.toChip
    let x := c.queue q
    let h := slotBytes c x x.head
    let m := newCmd q h c
    c.up = true → x.st = .enabled → x.head ≠ x.tail → (c.cmdsOf (.queue q)).length < 64 → cqFree c q = true →
    headerCheck h = 0 → x.head + leAt h 3 1 > 2 ^ x.sqLog2 → seqNewer (leAt h 4 4) x.lastAccepted = true →
      Gives (.commandFetch q) s (enterEnd q m malformedRes (c.setQueue q { x with head := 0 }))

/-- COMMAND_ISSUE of an accepted command that is ready, that no other goes before, that no failure fences, whose engines and epoch are
chosen and whose power is admitted: it issues to them. Where it adopts no
epoch (it carries none, or runs under the previous one) it is in execution afterwards, issued, on the instance and half chosen, and no other
command of the module has changed. -/
def Obligations.ReadyCommandsIssue : Prop :=
  ∀ (s : State) (k : Carrier) (seq : Nat) (m : Cmd) (p : Plan) (prev : Bool) (c1 c2 c3 : Chip), (Instr.commandIssue k seq).wf = true →
    let c := s.toChip
    c.findCmd k seq = some m → c.up = true ∨ m.queue? = none → ready c m = true → outranked c m = false → fenceFails c m = none →
    choose m c = (.go p, c1) → epochCheck m (epochEngines m p c1) c1 = .inl prev → paramBad m c1 = (none, c2) →
    admission (.cmd m.car m.seq) p.adm c2 = (true, c3) →
      Gives (.commandIssue k seq) s (issueTo m p prev (epochEngines m p c1) c3) ∧
      (prev = true ∨ m.epoch = 0 → ∃ n, (issueTo m p prev (epochEngines m p c1) c3).cmds = c3.cmds.map (fun x => if cmdIs k seq x then n else x) ∧
        n.car = k ∧ n.seq = seq ∧ n.phase = .executing ∧ n.issued = true ∧ n.inst = p.inst ∧ n.half = p.half ∧ n.claims = p.claims ∧
        n.bytes = m.bytes ∧ n.adm = p.adm)

/-- COMMAND_RETIRE of a finished command, none of whose transactions is out, and which is not a WAIT or BAR_ENTER of a pre-empted queue:
the command retires with its outcome. PRIORITY_RAISE of a ready command gives it priority 3 from now on, whatever its queue's and its
context's caps. A completion record is written to the slot of the completion ring that CQ_COUNT names, where its page translates to frames
that are backed and that no host core holds: its bytes read back there, every other byte reads as before, CQ_COUNT advances by one in 32
bits, and other queues are unchanged. -/
def Obligations.FinishedCommandsRetire : Prop :=
  (∀ (s : State) (m : Cmd),
    let c := s.toChip
    (∀ k seq r, (Instr.commandRetire k seq).wf = true → c.findCmd k seq = some m → m.res = some r → m.phase = .finished → m.txns = [] →
      ¬ (m.cls = 6 ∧ (m.op = 5 ∨ m.op = 0xA) ∧ ∃ q, m.car = .queue q ∧ (c.queue q).st = .preempted) →
        Gives (.commandRetire k seq) s (retire m r c)) ∧
    (∀ q seq, (Instr.priorityRaise q seq).wf = true → c.findCmd (.queue q) seq = some m → ready c m = true →
      Gives (.priorityRaise q seq) s (c.putCmd { m with raised := true }) ∧
      ∀ d, effPriority d { m with raised := true } = 3)) ∧
  ∀ (c : Chip) (q a : Nat) (rec : List Byte),
    let x := c.queue q
    rec.length = 32 → pageAddr x.cqPages (bits x.cqBase 0 57 + 32 * (x.cqCount % 2 ^ x.cqLog2)) = some a → backed a 32 = true → c.host.dir = [] →
      (∀ i < 32, (writeCq q rec c).rdByte (a + i) = nth rec i 0) ∧
      (∀ b, b < a ∨ a + 32 ≤ b → (writeCq q rec c).rdByte b = c.rdByte b) ∧
      (writeCq q rec c).queue q = { x with cqCount := (x.cqCount + 1) % 2 ^ 32 } ∧
      ∀ k, k ≠ q → (writeCq q rec c).queue k = c.queue k

/-! ### Queue control -/

/-- Enabling a queue in mode FRESH resets its hardware state: whenever the enable ends with DONE, HEAD, TAIL and both completion-ring
counters are 0, LAST_ACCEPTED and DONE_THROUGH are the SEQ_BASE of the queue's descriptor, STALE_DB is 0 and the duplicate window is empty. -/
def Obligations.FreshEnableResetsTheQueue : Prop :=
  ∀ (q : Nat) (c d : Chip), enableFresh q c = (doneRes, d) →
    let base := leAt (c.rdMem (c.rget MOD MOD_QUE_TABLE_BASE_BASE * 4096 + 64 * q) 64) 24 4
    let x := d.queue q
    x.head = 0 ∧ x.tail = 0 ∧ x.cqCount = 0 ∧ x.cqConsumed = 0 ∧ x.lastAccepted = base ∧ x.doneThrough = base ∧ x.staleDb = 0 ∧ x.window = []

/-- The queue-control commands in execution have these effects, with DONE or the outcome named, and end whatever waited for that: NOP none;
Q_ENABLE, by its mode, a fresh enable, or the ERROR of the queue cleared; Q_DISABLE of a queue that is DISABLED none; ABORT_SEQ of a command
in flight its abort, with the status it has in the window, of a retired one that status, of an unknown one RESULT 2; ABORT_QUEUE of a queue
without other commands RESULT 2; CTX_PREEMPT of an active context that it and its enabled queues are pre-empted, and a wait for its
commands; CTX_RESUME of a pre-empted context whose descriptor is good that it is active with that descriptor and its queues enabled;
CTX_RESET the reset of the context; XLT_INVALIDATE that cached translations of the range are dropped, and a wait for the commands that use
it. In another state of the context PREEMPT and RESUME end MALFORMED. -/
def Obligations.QueueControlActs : Prop :=
  ∀ (s : State) (k : Carrier) (seq : Nat) (m : Cmd),
    let c := s.toChip
    let q := m.qField
    let n := m.par 24 2
    ((Instr.nop k seq).wf = true → control k seq 0xE 0 c = some m → Gives (.nop k seq) s (settleWaits (finish m doneRes c))) ∧
    ((Instr.qEnable k seq).wf = true → control k seq 0xE 1 c = some m →
      (m.par 26 1 = 0 → Gives (.qEnable k seq) s (settleWaits (finish m (enableFresh q c).1 (enableFresh q c).2))) ∧
      (m.par 26 1 ≠ 0 → (c.queue q).st = .error →
        Gives (.qEnable k seq) s (settleWaits (finish m doneRes (c.setQueue q { c.queue q with
          st := if (c.ctx (c.queue q).ctx).st = .preempted then .preempted else .enabled })))) ∧
      (m.par 26 1 ≠ 0 → (c.queue q).st ≠ .error → Gives (.qEnable k seq) s (settleWaits (finish m malformedRes c)))) ∧
    ((Instr.qDisable k seq).wf = true → control k seq 0xE 2 c = some m → (c.queue q).st = .disabled →
      Gives (.qDisable k seq) s (settleWaits (finish m doneRes c))) ∧
    ((Instr.abortSeq k seq).wf = true → control k seq 0xE 3 c = some m →
      (∀ t, c.findCmd (.queue q) (m.par 20 4) = some t → Gives (.abortSeq k seq) s
        (let r := abortCmd 1 true t c
         settleWaits (finish m (mkRes sDone [(0, 1, b2n (!r.1)), (1, 1, (seenStatus q (m.par 20 4) r.2).getD sAborted)]) r.2))) ∧
      (c.findCmd (.queue q) (m.par 20 4) = none →
        (∀ st, seenStatus q (m.par 20 4) c = some st → Gives (.abortSeq k seq) s (settleWaits (finish m (mkRes sDone [(0, 1, 1), (1, 1, st)]) c))) ∧
        (seenStatus q (m.par 20 4) c = none → Gives (.abortSeq k seq) s (settleWaits (finish m (mkRes sDone [(0, 1, 2)]) c))))) ∧
    ((Instr.abortQueue k seq).wf = true → control k seq 0xE 4 c = some m → (∀ t ∈ c.cmdsOf (.queue q), cmdIs m.car m.seq t = true) →
      Gives (.abortQueue k seq) s (settleWaits (finish m (mkRes sDone [(0, 1, 2)]) c))) ∧
    ((Instr.ctxPreempt k seq).wf = true → control k seq 0xE 5 c = some m →
      ((c.ctx n).st = .active → Gives (.ctxPreempt k seq) s
        (let d := ctxQueues n (fun x => if x.st = .enabled then { x with st := .preempted } else x) c
         settleWaits ((d.setCtx n { d.ctx n with st := .preempted }).putCmd { m with wait := .preempt n }))) ∧
      ((c.ctx n).st ≠ .active → Gives (.ctxPreempt k seq) s (settleWaits (finish m malformedRes c)))) ∧
    ((Instr.ctxResume k seq).wf = true → control k seq 0xE 6 c = some m →
      (∀ x d, (c.ctx n).st = .preempted → readCtx n c = (.inr x, d) → Gives (.ctxResume k seq) s
        (settleWaits (finish m doneRes (ctxQueues n (fun y => if y.st = .preempted then { y with st := .enabled } else y)
          (d.setCtx n { d.ctx n with st := .active, held := some x }))))) ∧
      ((c.ctx n).st ≠ .preempted → Gives (.ctxResume k seq) s (settleWaits (finish m malformedRes c)))) ∧
    ((Instr.ctxReset k seq).wf = true → control k seq 0xE 7 c = some m →
      Gives (.ctxReset k seq) s (settleWaits (finish m doneRes (resetCtx n c)))) ∧
    ((Instr.xltInvalidate k seq).wf = true → control k seq 0xE 8 c = some m →
      let lo := if m.par 40 8 = 0 then 0 else m.par 32 8 / 65536
      let hi := if m.par 40 8 = 0 then 2 ^ 41 else (m.par 32 8 + m.par 40 8) / 65536
      let users := c.cmds.filter (fun x => x.ctx == n && !cmdIs m.car m.seq x && x.pages.any (fun p => lo ≤ p.vp && p.vp < hi))
      Gives (.xltInvalidate k seq) s
        (settleWaits ((dropXlt n lo hi c).putCmd { m with wait := .invalidate n lo hi (users.map (fun x => x.gord)) })))

/-- Q_DISABLE of a queue that is not DISABLED, by a command of another carrier, while none of its commands is in flight and no duplicate
waits: the queue is DISABLED afterwards and the command has ended with DONE. -/
def Obligations.DisablingAnEmptyQueueEnds : Prop :=
  ∀ (s : State) (k : Carrier) (seq : Nat) (m : Cmd), (Instr.qDisable k seq).wf = true →
    let c := s.toChip
    let q := m.qField
    control k seq 0xE 2 c = some m → (c.queue q).st ≠ .disabled → c.cmdsOf (.queue q) = [] → (c.queue q).dups = [] →
      ∃ e, Gives (.qDisable k seq) s e ∧ (e.queue q).st = .disabled ∧
        e.findCmd k seq = some { m with wait := .disable q, phase := .finished, res := some doneRes }

/-- The three operations of MOD_QCTL_CMD, written to a running module while none is in progress: each takes the register's QUEUE and OP;
an enable with a table base of 0 ends MALFORMED at once, one with both bases set ends with the outcome of a fresh enable, and a disable of a
queue that is DISABLED ends with DONE; a disable of another queue has its drain begin, with STOP ending its commands that have not issued.
While an operation is in progress the write is ignored and logged. -/
def Obligations.QctlOperationsAct : Prop :=
  ∀ (s : State) (p : Path) (q : Nat), s.toChip.up = true →
    let c := s.toChip
    let at_ := fun (op : Nat) => ((c.rput MOD MOD_QCTL_CMD_QUEUE q).rput MOD MOD_QCTL_CMD_OP op).rput MOD MOD_QCTL_RESULT_STATE 1
    let ended := fun (st : Nat) (d : Chip) => (d.rput MOD MOD_QCTL_RESULT_STATE 2).rput MOD MOD_QCTL_RESULT_STATUS st
    (c.rget MOD MOD_QCTL_RESULT_STATE ≠ 1 →
      ((Instr.qctlEnable p q).wf = true →
        ((at_ 1).rget MOD MOD_CTX_TABLE_BASE_BASE = 0 ∨ (at_ 1).rget MOD MOD_QUE_TABLE_BASE_BASE = 0 →
          Gives (.qctlEnable p q) s (ended sMalformed (at_ 1))) ∧
        ((at_ 1).rget MOD MOD_CTX_TABLE_BASE_BASE ≠ 0 → (at_ 1).rget MOD MOD_QUE_TABLE_BASE_BASE ≠ 0 →
          Gives (.qctlEnable p q) s (ended (enableFresh q (at_ 1)).1.status (enableFresh q (at_ 1)).2))) ∧
      ((Instr.qctlDisableStop p q).wf = true →
        ((c.queue q).st = .disabled → Gives (.qctlDisableStop p q) s (ended sDone (at_ 2))) ∧
        ((c.queue q).st ≠ .disabled → Gives (.qctlDisableStop p q) s (settleWaits (settleDrain q (startDisable q true (at_ 2)))))) ∧
      ((Instr.qctlDisableDrain p q).wf = true →
        ((c.queue q).st = .disabled → Gives (.qctlDisableDrain p q) s (ended sDone (at_ 3))) ∧
        ((c.queue q).st ≠ .disabled → Gives (.qctlDisableDrain p q) s (settleWaits (settleDrain q (startDisable q false (at_ 3))))))) ∧
    (c.rget MOD MOD_QCTL_RESULT_STATE = 1 → (Instr.qctlEnable p q).wf = true → Gives (.qctlEnable p q) s (accLog 0 0x1018 .other p c))

/-! ### The Yoke -/

/-- VALUE never wraps: an ADD that would exceed 2^48 - 1 leaves VALUE there and a SUB that would go below 0 leaves it at 0, with SAT and
YOK_ERR.SATURATED set; otherwise the sum or difference is exact and SAT is kept. No other semaphore changes. A permitted local ADD or SUB in
execution completes with DONE, saturated or not. -/
def Obligations.AddAndSubSaturate : Prop :=
  (∀ (c : Chip) (h n v : Nat),
    let x := c.sem h n
    (x.value + v ≤ 2 ^ 48 - 1 → (semAdd h n v c).sem h n = { x with value := x.value + v }) ∧
    (x.value + v > 2 ^ 48 - 1 → (semAdd h n v c).sem h n = { x with value := 2 ^ 48 - 1, sat := true } ∧
      (semAdd h n v c).rget (YOK h) YOK_ERR_SATURATED = 1) ∧
    (v ≤ x.value → (semSub h n v c).sem h n = { x with value := x.value - v }) ∧
    (v > x.value → (semSub h n v c).sem h n = { x with value := 0, sat := true } ∧ (semSub h n v c).rget (YOK h) YOK_ERR_SATURATED = 1) ∧
    ∀ h' n', semKey h' n' ≠ semKey h n → (semAdd h n v c).sem h' n' = c.sem h' n' ∧ (semSub h n v c).sem h' n' = c.sem h' n') ∧
  (∀ (s : State) (q seq : Nat) (m : Cmd), m.remote = false → (s.toChip.sem m.semH m.semNo).bad = false →
    semPermit .write (s.toChip.sem m.semH m.semNo) m.ctx m.priv = true →
    (running q seq 6 1 s.toChip = some m → (Instr.add q seq).wf = true →
      Gives (.add q seq) s (finish m doneRes (semAdd m.semH m.semNo m.semValue s.toChip))) ∧
    (running q seq 6 2 s.toChip = some m → (Instr.sub q seq).wf = true →
      Gives (.sub q seq) s (finish m doneRes (semSub m.semH m.semNo m.semValue s.toChip))))

/-- A permitted local SET, CSET, CLAIM or RELEASE in execution takes effect at once and completes with DONE: SET puts the VALUE field; CSET
puts it where VALUE equals COMPARE, and reports the value observed; CLAIM makes the command's context the owner, with the value and the
three flags given and SAT clear; RELEASE of an owned semaphore frees it and its watches, and has no effect on a free one. A refused one ends
with FAULT_ACCESS, REASON 6, and has no effect. What an operation puts the semaphore then holds. -/
def Obligations.SemaphoreOperationsAct : Prop :=
  (∀ (s : State) (q seq : Nat) (m : Cmd),
    let c := s.toChip
    let h := m.semH
    let n := m.semNo
    let x := c.sem h n
    m.remote = false → x.bad = false →
      (running q seq 6 3 c = some m → (Instr.setSem q seq).wf = true → semPermit .write x m.ctx m.priv = true →
        Gives (.setSem q seq) s (finish m doneRes (putSem h n { x with value := m.semValue } c))) ∧
      (running q seq 6 4 c = some m → (Instr.cset q seq).wf = true → semPermit .write x m.ctx m.priv = true →
        (x.value = m.semCompare → Gives (.cset q seq) s
          (finish m (mkRes sDone [(0, 6, x.value), (6, 1, 1)]) (putSem h n { x with value := m.semValue } c))) ∧
        (x.value ≠ m.semCompare → Gives (.cset q seq) s (finish m (mkRes sDone [(0, 6, x.value), (6, 1, 0)]) (putSem h n x c)))) ∧
      (running q seq 6 7 c = some m → (Instr.claim q seq).wf = true → x.owned = false ∨ x.owner = m.ctx →
        Gives (.claim q seq) s (finish m doneRes (putSem h n
          { value := m.semValue, owner := m.ctx, owned := true, openWait := bitAt m.semCompare 0, openWrite := bitAt m.semCompare 1,
            fabric := bitAt m.semCompare 2, sat := false } c))) ∧
      (running q seq 6 8 c = some m → (Instr.release q seq).wf = true →
        (x.owned = true → x.owner = m.ctx ∨ m.priv = true →
          Gives (.release q seq) s (finish m doneRes (releaseSem h n (c.rcount (YOK h) YOK_OPS 1)))) ∧
        (x.owned = false → Gives (.release q seq) s (finish m doneRes c))) ∧
      (running q seq 6 3 c = some m → (Instr.setSem q seq).wf = true → semPermit .write x m.ctx m.priv = false →
        Gives (.setSem q seq) s (finish m (accessRes 0 6 0xFF) c))) ∧
  (∀ (c : Chip) (h n : Nat) (x : Sem), (putSem h n x c).sem h n = x ∧ ∀ h' n', semKey h' n' ≠ semKey h n → (putSem h n x c).sem h' n' = c.sem h' n')

/-- A permitted local WAIT or WATCH in execution, with a place free, takes it: where VALUE is already at or above N, a WAIT completes with
DONE and the value observed, and a WATCH sends its message and completes with DONE; otherwise the watch is registered behind the others, a
WATCH completes with DONE and a WAIT leaves execution until it fires. With no place free the command is held, accepted, and
YOK_STATUS.WATCH_WAIT and YOK_ERR.WATCH_FULL are set. -/
def Obligations.WatchesRegisterOrFire : Prop :=
  ∀ (s : State) (q seq : Nat) (m : Cmd),
    let c := s.toChip
    let h := m.semH
    let x := c.sem h m.semNo
    let d := c.rcount (YOK h) YOK_OPS 1
    let held := ((c.rput (YOK h) YOK_ERR_WATCH_FULL 1).rput (YOK h) YOK_STATUS_WATCH_WAIT 1).putCmd
      { m with phase := .accepted, issued := false, needPlace := true, claims := [] }
    m.remote = false → x.bad = false →
      (running q seq 6 5 c = some m → (Instr.wait q seq).wf = true →
        (c.watchFree h = 0 → Gives (.wait q seq) s held) ∧
        (c.watchFree h ≠ 0 → semPermit .watch x m.ctx m.priv = true →
          (x.value ≥ m.semValue → Gives (.wait q seq) s
            ((finish { m with phase := .registered } (mkRes sDone [(0, 6, x.value)]) (d.putCmd { m with phase := .registered })).rcount
              (YOK h) YOK_FIRED 1)) ∧
          (x.value < m.semValue → Gives (.wait q seq) s
            (let w : Watch := { half := h, sem := m.semNo, n := m.semValue, ctx := m.ctx, who := .wait m.car m.seq }
             { (d.putCmd { m with phase := .registered }) with yoke := { c.yoke with watches := c.yoke.watches ++ [w] } })))) ∧
      (running q seq 6 6 c = some m → (Instr.watch q seq).wf = true → targetOk m c = true → c.watchFree h ≠ 0 →
        semPermit .watch x m.ctx m.priv = true →
        (x.value ≥ m.semValue → Gives (.watch q seq) s
          (finish m doneRes ((sendMsg ⟨m.semNo + 131072 * h, x.value, 0, m.par 40 1, m.par 44 4, m.semCompare, m.ctx, q, m.seq⟩ d).rcount
            (YOK h) YOK_FIRED 1))) ∧
        (x.value < m.semValue → Gives (.watch q seq) s
          (let w : Watch := { half := h, sem := m.semNo, n := m.semValue, ctx := m.ctx, who := .watch q m.seq (m.par 40 1) (m.par 44 4) m.semCompare }
           finish m doneRes { d with yoke := { c.yoke with watches := c.yoke.watches ++ [w] } })))

/-- Watches fire once, in the order of their registration: an operation that leaves a semaphore at a value frees the watches of it that the
value satisfies and no other, and WATCHes among them send their messages in that order, behind those on their way. -/
def Obligations.WatchesFireOnceInOrder : Prop :=
  ∀ (c : Chip) (h n : Nat) (x : Sem),
    let hit := fun (w : Watch) => w.half == h && w.sem == n && x.value ≥ w.n
    let msg := fun (w : Watch) => match w.who with
      | .watch q seq tk tg cmp => some (⟨n + 131072 * h, x.value, 0, tk, tg, cmp, w.ctx, q, seq⟩ : YMsg)
      | _ => none
    (putSem h n x c).yoke.watches = c.yoke.watches.filter (fun w => !hit w) ∧
    (putSem h n x c).yoke.msgs = c.yoke.msgs ++ (c.yoke.watches.filter hit).filterMap msg

/-- Local barrier commands in execution: BAR_DEFINE of a free object defines it with generation 1, and of an idle one of the same context
redefines it in its generation; BAR_ENTER of a defined barrier of its context whose MASK has its slot enters it, and of an undefined one or
a slot outside MASK ends MALFORMED; BAR_RETIRE of an idle barrier of its context frees it, of a free object it has no effect, and of one
with entries it ends MALFORMED. -/
def Obligations.BarrierCommandsAct : Prop :=
  ∀ (s : State) (q seq : Nat) (m : Cmd),
    let c := s.toChip
    let k := m.barK
    let v := m.semValue
    let new : Barrier := { owner := m.ctx, mask := m.par 52 8, hold := bitAt v 0, fabric := bitAt v 1, gen := 1, entries := [], waiting := [],
                           parent := if m.par 40 1 = 4 then some (m.par 44 4, m.semCompare % 2 ^ 19) else none }
    m.remote = false →
      (running q seq 6 9 c = some m → (Instr.barDefine q seq).wf = true →
        (c.bar k = none → Gives (.barDefine q seq) s (finish m doneRes ((c.setBar k (some new)).rcount (YOK (k / 4096)) YOK_OPS 1))) ∧
        (∀ b, c.bar k = some b → b.entries = [] → b.owner = m.ctx →
          Gives (.barDefine q seq) s (finish m doneRes ((c.setBar k (some { new with gen := b.gen })).rcount (YOK (k / 4096)) YOK_OPS 1)))) ∧
      (running q seq 6 0xA c = some m → (Instr.barEnter q seq).wf = true →
        (c.bar k = none → Gives (.barEnter q seq) s (finish m malformedRes c)) ∧
        (∀ b, c.bar k = some b →
          (bitAt b.mask m.barSlot = false → Gives (.barEnter q seq) s (finish m malformedRes c)) ∧
          (bitAt b.mask m.barSlot = true → b.owner = m.ctx →
            Gives (.barEnter q seq) s (barEnterAt k m.barSlot (.cmd m.car m.seq) (c.putCmd { m with phase := .registered }))))) ∧
      (running q seq 6 0xB c = some m → (Instr.barRetire q seq).wf = true →
        (c.bar k = none → Gives (.barRetire q seq) s (finish m doneRes c)) ∧
        (∀ b, c.bar k = some b →
          (b.entries ≠ [] → Gives (.barRetire q seq) s (finish m malformedRes c)) ∧
          (b.entries = [] → b.owner = m.ctx → Gives (.barRetire q seq) s
            (finish m doneRes ((c.setBar k none).rcount (YOK (k / 4096)) YOK_OPS 1)))))

/-- A watch message that arrives leaves the messages on their way; a fired one of TKIND 1 goes as event 0x0040 to the event ring of the
target queue's context while the queue is not DISABLED, one of TKIND 3 whose vector the module can raise raises it, and one of TKIND 4 leaves as an
ADD to the module and semaphore it names. -/
def Obligations.WatchMessagesArrive : Prop :=
  ∀ (s : State) (i : Nat) (m : YMsg), (Instr.yokeMessageDeliver i).wf = true → s.yoke.msgs[i]? = some m → m.wstatus = 0 →
    let d : Chip := { s.toChip with yoke := { s.yoke with msgs := s.yoke.msgs.take i ++ s.yoke.msgs.drop (i + 1) } }
    let q := m.target % 2 ^ 20
    (m.tkind = 1 → (d.queue q).st ≠ .disabled → Gives (.yokeMessageDeliver i) s
      (postEvent (d.queue q).ctx 0x0040 q m.seq (fields 16 [(0, 4, m.sem), (4, 6, m.value), (10, 1, 0), (11, 1, m.tkind), (12, 4, m.target)]) d)) ∧
    (m.tkind = 3 → vectorLost d (m.target % 32768) = false → Gives (.yokeMessageDeliver i) s (d.raiseVector (m.target % 32768))) ∧
    (m.tkind = 4 → Gives (.yokeMessageDeliver i) s (sendOut (.remoteAdd (m.target % 2 ^ 20) (m.compare % 2 ^ 18) m) d))

/-! ### Engine commands -/

/-- A command whose commit units can all be done runs them once each, in order, landing the stores of each before the next, and then ends
with its outcome; it needs no more than one turn for each unit and one to end. -/
def Obligations.UnitsRunInOrder : Prop :=
  ∀ (total : Nat) (unit : Nat → Cmd → Chip → UOut) (fin : Cmd → Chip → Res) (n k : Nat) (m : Cmd) (c : Chip) (x : Cmd × Chip),
    unitsDone total unit n m c = some x → n < k → runUnits total unit fin k m c = ended fin x

/-- A GEMM, GEMM_SPLIT or ATTN in execution from its first unit, with no parity error held by its instance, whose units can all be done,
does them (the tiles of C, behind the scan of a GEMM_SPLIT; the groups of O, behind the reading of block lists) and ends with the outcome
that its notes give. -/
def Obligations.FurrowCommandsComplete : Prop :=
  ∀ (s : State) (q seq : Nat) (m : Cmd) (x : Cmd × Chip),
    let c := s.toChip
    let hs := if m.both then (m.claims.filter (fun e => e.cls == 1)).map (fun e => e.half) else [m.half]
    let d := (hs.foldl (fun c h => furCycles h c) c).draw
    let m1 := if m.both && !m.tandem then { m with half := nth hs (d.1 % hs.length) m.half } else m
    let fin := fun (m : Cmd) (c : Chip) => endRes c m []
    m.prog = 0 → m.upset = false →
      ((∀ h ∈ m1.half :: hs, (d.2.engine ⟨1, h, 0⟩).upset = false) →
        (running q seq 1 1 c = some m → (Instr.gemm q seq).wf = true →
          unitsDone ((furOp m).units false) (furUnit (furOp m) false) ((furOp m).units false) m1 d.2 = some x →
          Gives (.gemm q seq) s (ended fin x)) ∧
        (running q seq 1 2 c = some m → (Instr.gemmSplit q seq).wf = true →
          unitsDone ((furOp m).units true) (furUnit (furOp m) true) ((furOp m).units true) m1 d.2 = some x →
          Gives (.gemmSplit q seq) s (ended fin x))) ∧
      (let a := attnOp m
       let c1 := if a.decode then c else (furCycles m.half c).cycles [(FUR m.half, FUR_TILES)]
       let c1 := m.claims.foldl (fun c e => if e.cls = 2 then c.cycles [(HAR e.half e.idx, HAR_CYC_BUSY)] else c) c1
       (c1.engine ⟨1, m.half, 0⟩).upset = false → running q seq 1 3 c = some m → (Instr.attn q seq).wf = true →
         unitsDone a.units (attnUnit a) a.units m c1 = some x → Gives (.attn q seq) s (ended fin x))

/-- A CHAIN in execution from its first step, with no parity error held by its Harrow, whose steps can all be done, does them in order and
ends with the outcome that its notes give. -/
def Obligations.ChainsComplete : Prop :=
  ∀ (s : State) (q seq : Nat) (m : Cmd) (x : Cmd × Chip), (Instr.chain q seq).wf = true →
    let k := chainOf m
    let b := HAR m.half m.inst
    let c1 := s.toChip.cycles [(b, HAR_CYC_BUSY), (b, HAR_CYC_STALL_IN), (b, HAR_CYC_STALL_OUT), (b, HAR_CYC_STALL_EXT)]
    running q seq 2 1 s.toChip = some m → m.prog = 0 → m.upset = false → (c1.engine m.engine).upset = false →
      unitsDone k.steps (chainUnit k) k.steps m c1 = some x → Gives (.chain q seq) s (ended (fun m c => endRes c m []) x)

/-- A COPY, FILL, GATHER, SCATTER or ATOMIC of a mover, in execution from its first unit with no parity error held by its mover, whose units
can all be done, does its DMA tiles (an ATOMIC its elements) in order and ends with the outcome that its notes give; an ATOMIC with RETURN
reports the prior value of its first element. -/
def Obligations.MoverCommandsComplete : Prop :=
  ∀ (s : State) (q seq : Nat) (m : Cmd) (x : Cmd × Chip),
    let o := dmaOp m
    let c1 := s.toChip.cycles [(DMA m.half m.inst, DMA_CYC_STALL_EXT)]
    let ran := unitsDone (o.tiles + 1) o.unit (o.tiles + 1) m c1 = some x
    let e := ended (fun m c => endRes c m []) x
    let t := parseDesc m.bytes 16 0
    m.prog = 0 → m.upset = false → (s.toChip.engine m.engine).upset = false →
      (running q seq 4 1 s.toChip = some m → (Instr.dmaCopy q seq).wf = true → ran → Gives (.dmaCopy q seq) s e) ∧
      (running q seq 4 2 s.toChip = some m → (Instr.dmaFill q seq).wf = true → ran → Gives (.dmaFill q seq) s e) ∧
      (running q seq 4 3 s.toChip = some m → (Instr.dmaGather q seq).wf = true → ran → Gives (.dmaGather q seq) s e) ∧
      (running q seq 4 4 s.toChip = some m → (Instr.dmaScatter q seq).wf = true → ran → Gives (.dmaScatter q seq) s e) ∧
      (running q seq 4 5 s.toChip = some m → (Instr.dmaAtomic q seq).wf = true →
        unitsDone (t.count + 1) atomUnit (t.count + 1) m s.toChip = some x →
        Gives (.dmaAtomic q seq) s (ended (fun m c =>
          endRes c m (if bitAt (m.par 49 1) 0 then [(0, 8, leAt (nth m.got 0 (0, false, [])).2.2 0 8)] else [])) x))

/-- Each of the eleven Gleaner commands, in execution from its first unit with no parity error held by the Gleaners of its half, whose units
can all be done, does the frame parts of its REGION and its last unit in order and ends with the outcome that its notes give. -/
def Obligations.GleanerCommandsComplete : Prop :=
  ∀ (s : State) (q seq : Nat) (m : Cmd) (x : Cmd × Chip),
    let g := glnOp m
    let b := g.blk s.toChip m (0, 0, 0)
    let c1 := s.toChip.cycles [(b, INF_GLN_RD_UNITS), (b, INF_GLN_WR_UNITS), (b, INF_GLN_CARRIED), (b, INF_GLN_CYC_BUSY), (b, INF_GLN_CYC_YIELD),
      (INF m.half 0, INF_GDS_FALLBACK_UNITS)]
    let n := g.parts.length + 1
    let e := ended (fun m c => endRes c m []) x
    m.prog = 0 → m.upset = false → (c1.engine ⟨5, m.half, 0⟩).upset = false → unitsDone n (g.unit g.parts) n m c1 = some x →
      (running q seq 5 1 s.toChip = some m → (Instr.score q seq).wf = true → Gives (.score q seq) s e) ∧
      (running q seq 5 2 s.toChip = some m → (Instr.valueAcc q seq).wf = true → Gives (.valueAcc q seq) s e) ∧
      (running q seq 5 3 s.toChip = some m → (Instr.gleanerGather q seq).wf = true → Gives (.gleanerGather q seq) s e) ∧
      (running q seq 5 4 s.toChip = some m → (Instr.gleanerScatter q seq).wf = true → Gives (.gleanerScatter q seq) s e) ∧
      (running q seq 5 5 s.toChip = some m → (Instr.blockReduce q seq).wf = true → Gives (.blockReduce q seq) s e) ∧
      (running q seq 5 6 s.toChip = some m → (Instr.topk q seq).wf = true → Gives (.topk q seq) s e) ∧
      (running q seq 5 7 s.toChip = some m → (Instr.update q seq).wf = true → Gives (.update q seq) s e) ∧
      (running q seq 5 8 s.toChip = some m → (Instr.gleanerFill q seq).wf = true → Gives (.gleanerFill q seq) s e) ∧
      (running q seq 5 9 s.toChip = some m → (Instr.gleanerCopy q seq).wf = true → Gives (.gleanerCopy q seq) s e) ∧
      (running q seq 5 10 s.toChip = some m → (Instr.checksum q seq).wf = true → Gives (.checksum q seq) s e) ∧
      (running q seq 5 11 s.toChip = some m → (Instr.scrub q seq).wf = true → Gives (.scrub q seq) s e)

/-- The outcome of a command that ran to its end: with no condition noted DONE and the detail of its kind; with elements saturated and nothing
else DONE_NOTED, NOTE 3 and their number; with NaNs stored as 0 and nothing else NOTE 4 and their number; with a NaN event as its first
condition NUMERIC_TRAP with its place while the trap is on, and no effect of it on the outcome while it is off; with a poisoned or an
uncorrectable unit as its first condition POISONED_INPUT or DATA_UNCORRECTABLE with its address and source. -/
def Obligations.OutcomesFollowTheNotes : Prop :=
  ∀ (c : Chip) (m : Cmd) (base : List (Nat × Nat × Nat)), m.tandem = false → m.reruns = 0 →
    (m.notes = {} → endRes c m base = mkRes 0 base) ∧
    (∀ n > 0, m.notes = { sat := n } → endRes c m base = mkRes 1 [(0, 4, n), (13, 1, 3)]) ∧
    (∀ n > 0, m.notes = { nanZero := n } → endRes c m base = mkRes 1 [(0, 4, n), (13, 1, 4)]) ∧
    (∀ e, m.notes = { nan := some e, order := [5] } →
      (trapOn c m = true → endRes c m base = mkRes 5 [(0, 2, e.tileRow), (2, 2, e.tileCol), (4, 1, e.stage)]) ∧
      (trapOn c m = false → endRes c m base = mkRes 0 base)) ∧
    (∀ a k, m.notes = { poison := some (a, k), order := [15] } → endRes c m base = mkRes 15 [(0, 8, a), (8, 1, k)]) ∧
    (∀ a k, m.notes = { uncorr := some (a, k), order := [6] } → endRes c m base = mkRes 6 [(0, 8, a), (8, 1, k)])

/-- An element stored in a Seedbed operand reads back as its code, and no byte beside those that the element touches changes: no other byte of
the Seedbeds, and none of frame space. -/
def Obligations.StoredElementsReadBack : Prop :=
  ∀ (c : Chip) (m : Cmd) (d : Desc) (i0 i1 i2 code : Nat), d.space = 1 →
    let x := elemStore c m d i0 i1 i2 code
    let h := d.sbdHalf m.half
    let at_ := sbdKey h (((c.ctxDesc m.ctx).seg h).1 + bits d.addr 0 28 + (d.rowOff i1 i2 + d.w * i0 / 8))
    elemCode x m d i0 i1 i2 = code % 2 ^ d.w ∧ x.mem = c.mem ∧
    ∀ h' o', sbdKey h' o' < at_ ∨ at_ + (d.w * i0 % 8 + d.w + 7) / 8 ≤ sbdKey h' o' → x.rdSbd h' o' = c.rdSbd h' o'

/-! ### Numbers -/

/-- The codes of E2M1 and S4 have the values of the table: magnitudes 0, 0.5, 1, 1.5, 2, 3, 4 and 6 by their magnitude bits, a sign in bit 3,
E2M1's code 8 the negative zero and S4's code 8 NaN. -/
def Obligations.FourBitCodesHaveTheirValues : Prop :=
  let halves : List Nat := [0, 1, 2, 3, 4, 6, 8, 12]
  let is := fun (v : Val) (neg : Bool) (n : Nat) => match v with
    | .fin g m e => g == neg && vEq v (.fin neg n (-1)) && decide (m = 0 ∨ e ≥ -1)
    | _ => false
  ∀ k < 8, is (decodeFmt .e2m1 k) false (nth halves k 0) = true ∧ is (decodeFmt .e2m1 (8 + k)) true (nth halves k 0) = true ∧
    is (decodeFmt .s4 k) false (nth halves k 0) = true ∧
    (if k = 0 then decodeFmt .s4 8 = .nan else is (decodeFmt .s4 (8 + k)) true (nth halves k 0) = true)

/-- Rounding is to the nearest, a tie to the even neighbour; and a value that a format holds, infinities and negative zeros included, converts
into that format to the code it came from, with no note. -/
def Obligations.ConversionsRoundToNearest : Prop :=
  (∀ a b, b > 0 → 2 * a ≤ 2 * (b * rneDiv a b) + b ∧ 2 * (b * rneDiv a b) ≤ 2 * a + b ∧
    (2 * a = 2 * (b * rneDiv a b) + b ∨ 2 * (b * rneDiv a b) = 2 * a + b → rneDiv a b % 2 = 0)) ∧
  ∀ f code, code < 2 ^ fmtBits f → decodeFmt f code ≠ .nan → encodeVal f (decodeFmt f code) = { code := code }

/-! ### The Drill engine -/

/-- A LAUNCH in execution with no thread groups yet, whose argument block is readable and clean, copies it into its argument bank and begins
with no block started. BLOCK_START of the next cluster's first block on the core the plan names, when no earlier launch of the half has
blocks to place, places the cluster's blocks on the cores of the plan as soon as those are admitted and awake. A group that comes to an
instruction that is not legal ends its launch, MALFORMED with the instruction's address. -/
def Obligations.LaunchesBegin : Prop :=
  ∀ (s : State) (q seq : Nat) (m : Cmd),
    (∀ ps d, let va := bits (m.par 24 8) 0 57
      let n := m.par 32 4
      let place := fun i => (pageAddr ps (va + i)).getD 0
      (Instr.launch q seq).wf = true → running q seq 3 1 s.toChip = some m → s.toChip.launch q seq = none →
      xlatePages m.half m.ctx (s.toChip.ctxDesc m.ctx).ptRoot (needRange va n 0xFF false []) s.toChip = (ps, d) →
      (∀ p ∈ ps, p.ok = true) → (∀ i < n, d.memBad.contains (place i / 64) = false ∧ d.poisoned (place i) = false) →
        Gives (.launch q seq) s { d.putCmd m with drill := { d.drill with
          launches := d.drill.launches ++ [{ q := q, seq := seq, half := m.half, ctx := m.ctx, args := (List.range n).map (fun i => d.rdByte (place i)) }] } }) ∧
    (∀ l ns core cores d x, let block := clusterBlock m l.next 0
      let placed := ((List.range ns.length).zip ns).foldl (fun c x => placeBlock m l (clusterBlock m l.next x.1) x.2 c) d
      (Instr.blockStart q seq block core).wf = true → running q seq 3 1 s.toChip = some m → s.toChip.launch q seq = some l →
      planCluster s.toChip l m = some ns → ns = core :: cores → placesFirst s.toChip l = false →
      (unionNat [] ns).foldl (fun (r : Bool × Chip) n => ((r.1 && (readyCore l.half n r.2).1), (readyCore l.half n r.2).2)) (true, s.toChip) = (true, d) →
      placed.launch q seq = some x →
        Gives (.blockStart q seq block core) s (placed.putLaunch { x with next := x.next + 1 })) ∧
    (∀ g l b y pc lanes x d, (Instr.illegalInstruction g).wf = true → drillGroup g s.toChip = some (m, l, b, y) → y.next = some (pc, lanes) →
      drillFetch m l b y pc lanes s.toChip = (.inl x, d) → x.i.legal (launchRegs m) = false → (d.engine ⟨3, l.half, b.core⟩).upset = false →
        Gives (.illegalInstruction g) s (endLaunch x.l.q x.l.seq (mkRes sMalformed [(0, 8, x.pc)])
          ((d.rcount x.base DRL_INSTR 1).cycles
            [(x.base, DRL_CYC_ACTIVE), (x.base, DRL_CYC_STALL_BANK), (x.base, DRL_CYC_STALL_MEM), (x.base, DRL_CYC_STALL_EXT)])))

/-- The integer instructions and the moves compute in each lane whose guard holds: sum, difference, product, high product, quotient and
remainder (0 and the dividend for a divisor of 0, truncated towards zero otherwise), and, or, exclusive or, shifts by the amount modulo the
width (a right shift arithmetic where MOD says so), minimum and maximum, signed or unsigned as MOD bit 1 says; ICMP and SEL; MOV, MOVI
with its 16-bit value extended by sign or by zero, MOVHI, which replaces the high half, S2R. The F32 and F64 instructions give exact results of
the operands' values rounded once (a fused multiply-add once, its product negated where MOD says so), minimum and maximum, and the compares;
SFU gives its functions of F32, CVT its conversions. -/
def Obligations.DrillInstructionsCompute : Prop :=
  ∀ (s : State) (g : Grp) (x : DCtx) (e : Chip),
    let lanes := fun (f : Nat → Nat → Nat → Nat) => compute x.i.w64 (fun x i =>
      let a := x.g.src x.i.w64 x.i.a i
      let b := x.i.intB x.g x.i.w64 i
      { v := f (if x.i.w64 then 64 else 32) a.v b.v, poison := a.poison || b.poison }) x e
    let uns := bitAt x.i.mod 1
    let at_ := fun op => comesTo op g s.toChip x e
    let f32 := fun (f : Val → Val → Val) => compute false (fun x i =>
      let a := x.g.reg x.i.a i
      let b := x.i.f32B x.g i
      fltRes .f32 [a, b] (f (decodeFmt .f32 a.v) (decodeFmt .f32 b.v))) x e
    let f64 := fun (f : Val → Val → Val) => compute true (fun x i =>
      let a := x.g.pair x.i.a i
      let b := x.g.pair x.i.b i
      fltRes .f64 [a, b] (f (decodeFmt .f64 a.v) (decodeFmt .f64 b.v))) x e
    let fma := fun (f : Fmt) (a b c : LReg) =>
      let p := vMul (decodeFmt f a.v) (decodeFmt f b.v)
      fltRes f [a, b, c] (vAdd (if bitAt x.i.mod 0 then vNeg p else p) (decodeFmt f c.v))
    ((Instr.iadd g).wf = true → at_ 1 → Gives (.iadd g) s (lanes (fun n a b => (a + b) % 2 ^ n))) ∧
    ((Instr.isub g).wf = true → at_ 2 → Gives (.isub g) s (lanes (fun n a b => wrapSub n a b))) ∧
    ((Instr.imul g).wf = true → at_ 3 → Gives (.imul g) s (lanes (fun n a b => a * b % 2 ^ n))) ∧
    ((Instr.imulhi g).wf = true → at_ 4 → Gives (.imulhi g) s (lanes (fun n a b =>
      if uns then a * b / 2 ^ n else wrapInt n (sext n a * sext n b / ((2 ^ n : Nat) : Int))))) ∧
    ((Instr.idiv g).wf = true → at_ 5 → Gives (.idiv g) s (lanes (fun n a b =>
      if b = 0 then 0 else if uns then a / b else wrapInt n ((sext n a).tdiv (sext n b))))) ∧
    ((Instr.irem g).wf = true → at_ 6 → Gives (.irem g) s (lanes (fun n a b =>
      if b = 0 then a else if uns then a % b else wrapInt n ((sext n a).tmod (sext n b))))) ∧
    ((Instr.iand g).wf = true → at_ 7 → Gives (.iand g) s (lanes (fun _ a b => a &&& b))) ∧
    ((Instr.ior g).wf = true → at_ 8 → Gives (.ior g) s (lanes (fun _ a b => a ||| b))) ∧
    ((Instr.ixor g).wf = true → at_ 9 → Gives (.ixor g) s (lanes (fun _ a b => a ^^^ b))) ∧
    ((Instr.shl g).wf = true → at_ 10 → Gives (.shl g) s (lanes (fun n a b => a * 2 ^ (b % n) % 2 ^ n))) ∧
    ((Instr.shr g).wf = true → at_ 11 → Gives (.shr g) s (lanes (fun n a b =>
      if uns then wrapInt n (sext n a / ((2 ^ (b % n) : Nat) : Int)) else a / 2 ^ (b % n)))) ∧
    ((Instr.imin g).wf = true → at_ 12 → Gives (.imin g) s (lanes (fun n a b =>
      if uns then min a b else if sext n a ≤ sext n b then a else b))) ∧
    ((Instr.imax g).wf = true → at_ 13 → Gives (.imax g) s (lanes (fun n a b =>
      if uns then max a b else if sext n a ≤ sext n b then b else a))) ∧
    ((Instr.icmp g).wf = true → at_ 14 → Gives (.icmp g) s (comparing (fun x i =>
      let w := bitAt x.i.c 0
      let n := if w then 64 else 32
      let a := x.g.src w x.i.a i
      let b := x.i.intB x.g w i
      (if bitAt x.i.mod 3 then cmpInt (x.i.mod % 8) a.v b.v else cmpInt (x.i.mod % 8) (sext n a.v) (sext n b.v), a.poison || b.poison)) x e)) ∧
    ((Instr.sel g).wf = true → at_ 15 → Gives (.sel g) s (compute (bitAt x.i.mod 3) (fun x i =>
      let a := x.g.src (bitAt x.i.mod 3) x.i.a i
      let b := x.g.src (bitAt x.i.mod 3) x.i.b i
      { (if x.g.pred (x.i.mod % 8) i then a else b) with poison := a.poison || b.poison || x.g.predBad (x.i.mod % 8) i }) x e)) ∧
    ((Instr.mov g).wf = true → at_ 0x3C → Gives (.mov g) s (compute x.i.w64 (fun x i => x.g.src x.i.w64 x.i.a i) x e)) ∧
    ((Instr.movi g).wf = true → at_ 0x3D → Gives (.movi g) s (compute false (fun x _ =>
      { v := if bitAt x.i.mod 0 then x.i.imm else wrapInt 32 (sext 16 x.i.imm) }) x e)) ∧
    ((Instr.movhi g).wf = true → at_ 0x3E → Gives (.movhi g) s (compute false (fun x i =>
      { v := (x.g.reg x.i.d i).v % 65536 + x.i.imm * 65536, poison := (x.g.reg x.i.d i).poison }) x e)) ∧
    ((Instr.s2r g).wf = true → at_ 0x3F → x.i.imm ≤ 19 → Gives (.s2r g) s (compute false (fun x i => { v := special x x.i.imm i 0 }) x e)) ∧
    ((Instr.fadd g).wf = true → at_ 0x20 → Gives (.fadd g) s (f32 vAdd)) ∧
    ((Instr.fsub g).wf = true → at_ 0x21 → Gives (.fsub g) s (f32 vSub)) ∧
    ((Instr.fmul g).wf = true → at_ 0x22 → Gives (.fmul g) s (f32 vMul)) ∧
    ((Instr.ffma g).wf = true → at_ 0x23 → x.i.isImm = false → Gives (.ffma g) s (compute false (fun y i =>
      fma .f32 (y.g.reg y.i.a i) (y.g.reg y.i.b i) (y.g.reg y.i.c i)) x e)) ∧
    ((Instr.fmin g).wf = true → at_ 0x24 → Gives (.fmin g) s (f32 minVal)) ∧
    ((Instr.fmax g).wf = true → at_ 0x25 → Gives (.fmax g) s (f32 maxVal)) ∧
    ((Instr.fcmp g).wf = true → at_ 0x26 → Gives (.fcmp g) s (comparing (fun x i =>
      let a := x.g.reg x.i.a i
      let b := x.i.f32B x.g i
      (cmpVal (x.i.mod % 8) (decodeFmt .f32 a.v) (decodeFmt .f32 b.v), a.poison || b.poison)) x e)) ∧
    ((Instr.dadd g).wf = true → at_ 0x28 → Gives (.dadd g) s (f64 vAdd)) ∧
    ((Instr.dsub g).wf = true → at_ 0x29 → Gives (.dsub g) s (f64 vSub)) ∧
    ((Instr.dmul g).wf = true → at_ 0x2A → Gives (.dmul g) s (f64 vMul)) ∧
    ((Instr.dfma g).wf = true → at_ 0x2B → Gives (.dfma g) s (compute true (fun y i =>
      fma .f64 (y.g.pair y.i.a i) (y.g.pair y.i.b i) (y.g.pair y.i.c i)) x e)) ∧
    ((Instr.dmin g).wf = true → at_ 0x2C → Gives (.dmin g) s (f64 minVal)) ∧
    ((Instr.dmax g).wf = true → at_ 0x2D → Gives (.dmax g) s (f64 maxVal)) ∧
    ((Instr.dcmp g).wf = true → at_ 0x2E → Gives (.dcmp g) s (comparing (fun x i =>
      let a := x.g.pair x.i.a i
      let b := x.g.pair x.i.b i
      (cmpVal (x.i.mod % 8) (decodeFmt .f64 a.v) (decodeFmt .f64 b.v), a.poison || b.poison)) x e)) ∧
    ((Instr.sfu g).wf = true → at_ 0x30 → Gives (.sfu g) s (compute false (fun x i =>
      fltRes .f32 [x.g.reg x.i.a i] (transc x.i.mod (decodeFmt .f32 (x.g.reg x.i.a i).v))) x e)) ∧
    ((Instr.cvt g).wf = true → at_ 0x38 → Gives (.cvt g) s (compute (bitAt x.i.mod 2) (fun x i =>
      cvtRes (bits x.i.mod 0 2) (bits x.i.mod 2 2) (x.g.src (bitAt x.i.mod 0) x.i.a i)) x e))

/-- Loads, stores and atomics whose lanes' places are all found carry out their lanes and move on: a load (with no word of bad parity) writes
each lane's D with what its place holds, its range error and line requests noted; a store writes its lanes' elements and their poison; an
atomic does its lanes one after another and returns prior values. Barriers mark lanes as waiting and open when every thread of the block
or the cluster is there; FENCE of more than a block empties the core's L1; WAIT.MSG takes a latched message or waits; branches set the
program counter of the lanes whose guard holds, CALL keeps the return address, EXIT ends those lanes. -/
def Obligations.DrillMovesAndBranches : Prop :=
  ∀ (s : State) (g : Grp) (x : DCtx) (e : Chip),
    let at_ := fun op => comesTo op g s.toChip x e
    let clear := x.lanes.all (fun i => !x.g.predBad x.i.p i) = true
    let jumped := fun (target : Nat → Nat) (link : Bool) => x.save (x.on.foldl (fun y i =>
      let y := if link then y.put true x.i.d i { v := (x.pc + 8) % 2 ^ 64 } else y
      { y with pcs := setNth y.pcs i (target i) }) (x.step x.g)) e
    let there := fun (_ : Nat) => wrapInt 64 ((x.pc : Int) + 8 * sext 16 x.i.imm)
    ((Instr.ld g).wf = true → at_ 0x40 → ∀ l d y d', drillPlaces x x.i.size false x.on e = (.inl l, d) →
      let n := lineCount l
      let c := rangeErr x l (d.rcount x.base DRL_REQUESTS n)
      let c := if x.i.space = 0 then c.draw.2.rcount x.base DRL_L1_MISS (c.draw.1 % (n + 1)) else c
      l.foldl (fun r a => loadLane1 x a r) (x.g, none, c) = (y, none, d') →
        Gives (.ld g) s (x.save (x.step y) d')) ∧
    ((Instr.st g).wf = true → at_ 0x41 → ∀ l d, drillPlaces x x.i.size true x.on e = (.inl l, d) →
      let o := laneOrder x l (rangeErr x l (d.rcount x.base DRL_REQUESTS (lineCount l)))
      Gives (.st g) s (x.save (x.step x.g) (storePoison x l (o.1.foldl (fun c a => storeLane1 x a c) o.2)))) ∧
    ((Instr.atom g).wf = true → at_ 0x42 → ∀ l d, drillPlaces x x.i.size true x.on e = (.inl l, d) →
      let o := laneOrder x l (d.rcount x.base DRL_REQUESTS (lineCount l))
      let t := o.1.foldl (fun r a => atomLane x a r) (x.g, o.2)
      Gives (.atom g) s (x.save (x.step t.1) t.2)) ∧
    ((Instr.barSync g).wf = true → at_ 0x48 → Gives (.barSync g) s (drillOpen x (x.save (x.step (x.on.foldl (fun y i =>
      if x.i.mod = 0 then { y with barB := setLane y.barB i true } else { y with barC := setLane y.barC i true }) x.g)) e))) ∧
    ((Instr.fence g).wf = true → at_ 0x49 → Gives (.fence g) s
      (if x.i.mod = 0 ∨ x.on = [] then x.save (x.step x.g) e else l1Clear x.l.half x.b.core (x.save (x.step x.g) e))) ∧
    ((Instr.waitMsg g).wf = true → at_ 0x4A →
      (x.on = [] → Gives (.waitMsg g) s (x.save (x.step x.g) e)) ∧
      (x.on ≠ [] → x.b.latch = true →
        Gives (.waitMsg g) s ((x.save (x.step x.g) e).onBlock x.l.q x.l.seq x.b.idx (fun b => { b with latch := false }))) ∧
      (x.on ≠ [] → x.b.latch = false → Gives (.waitMsg g) s (x.save { x.step x.g with waitMsg := true } e))) ∧
    ((Instr.bra g).wf = true → at_ 0x50 → clear → Gives (.bra g) s (jumped there false)) ∧
    ((Instr.call g).wf = true → at_ 0x51 → clear → Gives (.call g) s (jumped there true)) ∧
    ((Instr.ret g).wf = true → at_ 0x52 → clear → x.on.all (fun i => !(x.g.pair x.i.a i).poison) = true →
      Gives (.ret g) s (jumped (fun i => (x.g.pair x.i.a i).v) false)) ∧
    ((Instr.exit g).wf = true → at_ 0x53 → clear →
      Gives (.exit g) s (drillOpen x (x.save { x.step x.g with exited := x.on.foldl (fun m i => setLane m i true) x.g.exited } e)))

/-- A computing instruction changes its group alone: the lanes that run move to the next instruction, no predicate changes, and of the registers
only D of the lanes whose guard holds (D and D + 1 of a pair); a write to RZ is discarded; D reads as the lane's result. -/
def Obligations.DrillWritesOnlyItsDestination : Prop :=
  ∀ (w : Bool) (v : DCtx → Nat → LReg) (x : DCtx) (c : Chip), x.lanes.Nodup → (∀ i ∈ x.lanes, i < 32) → x.g.pcs.length = 32 →
    ∃ y : DGroup, compute w v x c = x.save y c ∧ y.preds = x.g.preds ∧ y.predPoison = x.g.predPoison ∧ y.exited = x.g.exited ∧
      (∀ i < 32, nth y.pcs i 0 = if i ∈ x.lanes then (x.pc + 8) % 2 ^ 64 else nth x.g.pcs i 0) ∧
      (x.i.d = 255 → y.regs = x.g.regs) ∧
      (∀ r i, i < 32 → r ≠ x.i.d → (w = false ∨ r ≠ x.i.d + 1) → y.reg r i = x.g.reg r i) ∧
      (∀ r i, i < 32 → i ∉ x.on → y.reg r i = x.g.reg r i) ∧
      (∀ i ∈ x.on, x.i.d < 254 → w = false → y.reg x.i.d i = ⟨(v x i).v % 2 ^ 32, (v x i).poison || x.g.predBad x.i.p i, (v x i).nan⟩) ∧
      (∀ i ∈ x.on, x.i.d < 254 → w = true → (v x i).v < 2 ^ 64 →
        y.pair x.i.d i = ⟨(v x i).v, (v x i).poison || x.g.predBad x.i.p i, (v x i).nan⟩)

/-! ### The fabric -/

/-- A collective (of any of the five kinds) in execution that no member's data have reached yet, whose SRC has no word of bad parity, begins:
it reads SRC with the poison of its elements, takes the port to the next member as its engine instance, keeps its own data as a member's,
sends them to the next member of its group when there is one, and moves on when nothing has gone wrong meanwhile. -/
def Obligations.CollectivesBegin : Prop :=
  ∀ (s : State) (q seq : Nat) (m : Cmd) (x : Coll) (g : Group), let c := s.toChip
    let d := collSrc m
    let bad := (List.range d.d0).filter (fun e => (elemBad c m d e 0 0).isSome)
    let data := opBytes c m d 0 d.rowBytes
    let r := takeAll [(d, 0, d.rowBytes)] m c
    let port := match (rankNode r.2 (g.rank r.2 g.next)).map (route r.2) with
      | some (.port p) => p
      | _ => 0
    let n := { r.1 with inst := port }
    let e := (r.2.putCmd n).putColl { x with begun := true, got := [(g.me, bad, data)] }
    let e := if g.n > 1 then sendColl g g.next (ownMsg { x with begun := true, got := [(g.me, bad, data)] } g.me 0 0 bad data) e else e
    ∀ (y : Coll), c.fab.colls.find? (fun x => decide (x.cmd = some (m.car, m.seq)) && !x.begun) = some x → groupOf c m (m.par 96 2) = some g →
      x.got = [] → x.ready = [] → partsBadWord c m [(d, 0, d.rowBytes)] = none →
      e.coll x.group x.cseq = some y → y.lost = none → y.fail = none → y.mismatch = false →
        (running q seq 7 1 c = some m → (Instr.allreduce q seq).wf = true → Gives (.allreduce q seq) s (collAdvance y n g e)) ∧
        (running q seq 7 2 c = some m → (Instr.reduceScatter q seq).wf = true → Gives (.reduceScatter q seq) s (collAdvance y n g e)) ∧
        (running q seq 7 3 c = some m → (Instr.allgather q seq).wf = true → Gives (.allgather q seq) s (collAdvance y n g e)) ∧
        (running q seq 7 4 c = some m → (Instr.broadcast q seq).wf = true → Gives (.broadcast q seq) s (collAdvance y n g e)) ∧
        (running q seq 7 5 c = some m → (Instr.alltoall q seq).wf = true → Gives (.alltoall q seq) s (collAdvance y n g e))

/-- A reduction of INT32 sums does not depend on the order in which a chunk's partial sums travel: every element is the sum of the members'
elements, wrapped to 32 bits. -/
def Obligations.CollectiveSumsOfIntegersAreExact : Prop :=
  ∀ (len e : Nat) (l : List Int), e < len → l ≠ [] → (∀ i ∈ l, -2147483648 ≤ i ∧ i < 2147483648) →
    (redElem .int32 0 len e (l.map (fun i => ⟨vInt i, 0⟩))).v = vInt (sext 32 (wrapInt 32 (l.foldl (· + ·) 0)))

/-- A transaction arriving from an origin that is known: repeated, it is answered with the first outcome, marked, and does nothing else;
new, it is answered with what it comes to. An access that fails a check of its job, window, rank, right or range is refused, REASON 5, counted,
and changes no byte; a write that passes is stored and answered DONE; a Yoke operation is answered once it has an outcome; a collective
message of another job is refused, and one of this job is heard and answered DONE. -/
def Obligations.ArrivingTransactionsAreAnswered : Prop :=
  ∀ (s : State) (rank node seq : Nat) (o : Origin), let c := s.toChip
    c.origin rank = some o →
    let p := { o with node := node, last := c.time }
    let e := c.setOrigin (p.remember seq none c.time)
    let again := fun (i : Instr) => ∀ (r : Reply) (t : Nat), i.wf = true → o.seen.find? (fun x => x.seq == seq) = some ⟨seq, some r, t⟩ →
      Gives i s (sendPkt 1 node (.reply { r with dup := true }) ((c.setOrigin p).rcount AIH AIH_DUPS 1)).2
    let answered := fun (i : Instr) (r : Reply) (f : Chip) =>
      Gives i s (sendPkt 1 node (.reply r) (f.setOrigin (p.remember seq (some r) c.time))).2
    let fresh := o.seen.find? (fun x => x.seq == seq) = none
    (∀ a : RemoteAccess, a.rank = rank → a.node = node → a.seq = seq → c.up = true → let i := Instr.remoteAccessArrival a
      again i ∧ (i.wf = true → fresh →
        (accessOk a e = none → answered i (mkReply e seq (accessRes 0 5 0xFF) [] false) (e.rcount AIH AIH_REFUSED 1) ∧
          SameMemory c (e.rcount AIH AIH_REFUSED 1)) ∧
        (∀ w, accessOk a e = some w → a.kind = 0 → answered i (mkReply (accessWrite w a e) seq doneRes [] false) (accessWrite w a e)))) ∧
    (∀ y : YokeFrame, y.rank = rank → y.node = node → y.txn = seq → let i := Instr.remoteYokeOperation y
      again i ∧ (i.wf = true → fresh → (∀ r f, remoteYoke y e = (some r, f) → answered i (mkReply f seq r [] false) f) ∧
        (∀ f, remoteYoke y e = (none, f) → Gives i s f))) ∧
    (∀ m : CollMsg, m.rank = rank → m.node = node → m.seq = seq → let i := Instr.collectiveMessage m
      again i ∧ (i.wf = true → fresh →
        (m.job ≠ e.rget AIH AIH_JOB_CUR_JOB → answered i (mkReply e seq (accessRes 0 5 0xFF) [] false) (e.rcount AIH AIH_REFUSED 1)) ∧
        (m.job = e.rget AIH AIH_JOB_CUR_JOB → answered i (mkReply e seq doneRes [] false) (hearColl m e))))

/-- At the origin: a reply that is not busy ends its transaction (data DONE are kept for the command, a Yoke operation ends with the reply's
outcome, a refusal ends the command); a busy one, and one that answers nothing outstanding, change nothing. A transaction that no path
reaches makes its command PEER_LOST. One not answered within the end-to-end timeout is sent again while resends are left, counted, and
then ends its command: RETRY_EXHAUSTED where every port has failed, PEER_LOST where no path leads to the target, TIMEOUT otherwise.
Windows open with the fields of their command and close for their owner and for PRIV contexts. -/
def Obligations.OriginsSeeEveryTransactionEnd : Prop :=
  ∀ (s : State), let c := s.toChip
    (∀ r : Reply, (Instr.transactionReply r).wf = true → c.up = true →
      let f := c.fab.txns.find? (fun t => t.rank == r.rank && t.seq == r.seq)
      (f = none → Gives (.transactionReply r) s c) ∧
      (∀ t, f = some t → r.busy = true → Gives (.transactionReply r) s c) ∧
      (∀ t k n tile m, f = some t → r.busy = false → t.for_ = .cmd k n tile → (dropTxn t.id c).findCmd k n = some m →
        let m1 := { m with txns := m.txns.filter (fun i => i != t.id), dup := m.dup || r.dup }
        (m.cls = 6 → Gives (.transactionReply r) s (finish m1 ⟨r.status, r.detail⟩ (dropTxn t.id c))) ∧
        (m.cls ≠ 6 → r.status = sDone → Gives (.transactionReply r) s ((dropTxn t.id c).putCmd { m1 with got := m.got ++ [(tile, r.poison, r.data)] })) ∧
        (m.cls ≠ 6 → r.status ≠ sDone → r.status ≠ sPoisoned → r.status ≠ sUncorr →
          Gives (.transactionReply r) s (failCmd m1 ⟨r.status, r.detail⟩ (dropTxn t.id c))))) ∧
    (∀ (id : Nat) (t : Txn), c.up = true → c.fab.txns.find? (fun t => t.id == id) = some t →
      ((Instr.unreachableReply id).wf = true → Gives (.unreachableReply id) s (failTxn t (mkRes sPeerLost [(0, 4, t.rank), (4, 2, 0)]) c)) ∧
      ((Instr.e2eTimeout id).wf = true →
        (∀ n, t.resends < e2eResends c → rankNode c t.rank = some n →
          let r := sendPkt 0 n t.pkt c
          let x := { t with resends := t.resends + 1, unreach := !r.1, exhausted := !r.1 && allFailed c }
          let e := r.2.rcount AIH AIH_RESENDS 1
          Gives (.e2eTimeout id) s { e with fab := { e.fab with txns := e.fab.txns.map (fun y => if y.id = id then x else y) } }) ∧
        (e2eResends c ≤ t.resends → Gives (.e2eTimeout id) s
          (failTxn t (if t.exhausted then mkRes sRetryEx [] else if t.unreach then mkRes sPeerLost [(0, 4, t.rank), (4, 2, 0)] else mkRes sTimeout []) c)))) ∧
    (∀ (q seq : Nat) (m : Cmd), let n := m.par 48 2
      let d := parseDesc m.bytes 16 0
      let opened := fun (w : Win) => Gives (.winOpen q seq) s (finish m doneRes { c with fab := { c.fab with wins := c.fab.wins ++ [(n, w)] } })
      (winCmd q seq 0x10 c = some m → (Instr.winOpen q seq).wf = true →
        (c.window n ≠ none → Gives (.winOpen q seq) s (finish m (accessRes d.addr 5 0) c)) ∧
        (c.window n = none → d.space ≠ 1 →
          opened ⟨m.ctx, false, 0, bits d.addr 0 57, m.pages, ceilDiv (d.d0 * d.w) 8, m.par 50 1, bits (m.par 52 4) 0 20, bits (m.par 56 4) 0 20⟩) ∧
        (c.window n = none → d.space = 1 → let g := (c.ctxDesc m.ctx).seg (d.sbdHalf m.half)
          (bits d.addr 0 28 + ceilDiv (d.d0 * d.w) 8 > g.2 → Gives (.winOpen q seq) s (finish m (accessRes d.addr 3 0) c)) ∧
          (bits d.addr 0 28 + ceilDiv (d.d0 * d.w) 8 ≤ g.2 → opened ⟨m.ctx, true, d.sbdHalf m.half, g.1 + bits d.addr 0 28, [],
            ceilDiv (d.d0 * d.w) 8, m.par 50 1, bits (m.par 52 4) 0 20, bits (m.par 56 4) 0 20⟩))) ∧
      (winCmd q seq 0x11 c = some m → (Instr.winClose q seq).wf = true →
        (m.priv = true ∨ (∃ w, c.window n = some w ∧ w.ctx = m.ctx) →
          Gives (.winClose q seq) s (finish m doneRes { c with fab := { c.fab with wins := c.fab.wins.filter (fun e => e.1 != n) } })) ∧
        (m.priv = false → (∀ w, c.window n = some w → w.ctx ≠ m.ctx) → Gives (.winClose q seq) s (finish m (accessRes 0 6 0xFF) c))))

/-! ### Surveyor -/

/-- HINT sets the placement flags of its range's frames by its KIND; UNPIN takes their pins; PIN pins its frames in turn up to the region's
limit, and has ended when each of them lies there. At the end of a survey period the fills are counted, migrations not yet begun are planned
anew (of pins and of slots to be retired always, of hints, hot groups and halves while the policy is enabled), and every count is halved. A
migration may start while its devices have 128 KiB of credit, its half has a place and nothing throttles or wakes its devices; a copy pass
counts its units, takes credit, and opens the window when at most 64 units of each frame are dirty, or gives the migration up after four
passes. -/
def Obligations.SurveyorCommandsAct : Prop :=
  ∀ (s : State), let c := s.toChip
    (∀ (q seq : Nat) (m : Cmd), (surveyCmd q seq 1 c = some m → (Instr.hint q seq).wf = true → Gives (.hint q seq) s
      (finish m doneRes ((rangeFrames m).foldl (fun c f => c.setFlags f.2
        (let x := c.pflags f.2
         match m.par 32 1 with
         | 1 => { x with prefer := 1 + m.par 33 1 % 2, cold := false }
         | 2 => { x with ilv := some (f.1 % 24) }
         | 3 => { x with prefer := 0, cold := true }
         | _ => { x with prefer := 0, cold := false, ilv := none })) c))) ∧
    (surveyCmd q seq 3 c = some m → (Instr.unpin q seq).wf = true → Gives (.unpin q seq) s
      (finish m doneRes ((rangeFrames m).foldl (fun c f => c.setFlags f.2 { c.pflags f.2 with pin := none }) c))) ∧
    (surveyCmd q seq 2 c = some m → (Instr.pin q seq).wf = true → let r := m.par 33 1 % 4
      (m.prog = 0 → ∀ d, pinFrames r ((rangeFrames m).map (fun f => f.2)) 0 c = ((rangeFrames m).length, d) →
        let e := d.putCmd { m with prog := (rangeFrames m).length + 1 }
        ((∀ f ∈ rangeFrames m, (d.pflags f.2).pin = some r → (d.place f.2).region = r) →
          Gives (.pin q seq) s (finish { m with prog := (rangeFrames m).length + 1 } doneRes e)) ∧
        (∀ f ∈ rangeFrames m, (d.pflags f.2).pin = some r → (d.place f.2).region ≠ r → Gives (.pin q seq) s e)))) ∧
    (∀ fills, (Instr.surveyPeriodEnd fills).wf = true → c.up = true →
      let d := fills.foldl (fun c f => addHeat f.group f.east f.west c) c
      let d : Chip := { d with srv := { d.srv with migs := d.srv.migs.filter (fun m => m.started || decide (m.why = .testOut) || decide (m.why = .testBack)) } }
      let p := planPins (planRetire ({ c := d } : SrvPlan))
      let e := (if p.c.rget MOD MOD_SRV_POLICY_CUR_ENABLE = 1 then planBalance (planPromote (planHints p)) else p).c
      Gives (.surveyPeriodEnd fills) s { e with srv := { e.srv with
        heat := (e.srv.heat.map (fun x => (x.1, (x.2.1 / 2, x.2.2 / 2)))).filter (fun x => x.2 != (0, 0)),
        gone := (e.srv.gone.map (fun x => (x.1, x.2 - 1))).filter (fun x => x.2 != 0) } }) ∧
    (∀ (i : Nat) (m : Mig), c.srv.migs.find? (fun m => m.id == i) = some m →
      (∀ b, (Instr.migrationStart i).wf = true → c.up = true → mayStart c m = true → m.b = some b → c.srv.sr = [] → c.srv.waking = [] →
        let d := (c.touch (m.a * 65536)).touch (b * 65536)
        Gives (.migrationStart i) s (putMig { m with started := true, mover := d.draw.1 % 16 } d.draw.2)) ∧
      (∀ dirtyA dirtyB b, (Instr.migrationCopyPass i dirtyA dirtyB).wf = true → m.started = true → m.window = false → m.b = some b →
        let na := if m.passes = 0 then 1024 else m.dirtyA
        let nb := if m.passes = 0 then 1024 else m.dirtyB
        let d := takeCredit m.dst.dk nb (takeCredit (c.place m.a).dk na
          ((c.rcount (SRV m.half) SRV_UNITS (na + nb)).rcount (DMA m.half m.mover) DMA_MIG_UNITS (na + nb)))
        let x := { m with passes := m.passes + 1, dirtyA := dirtyA, dirtyB := dirtyB }
        (dirtyA ≤ 64 ∧ dirtyB ≤ 64 → Gives (.migrationCopyPass i dirtyA dirtyB) s (putMig { x with window := true } d)) ∧
        ((dirtyA > 64 ∨ dirtyB > 64) → m.passes < 3 → Gives (.migrationCopyPass i dirtyA dirtyB) s (putMig x d)) ∧
        ((dirtyA > 64 ∨ dirtyB > 64) → m.passes ≥ 3 → Gives (.migrationCopyPass i dirtyA dirtyB) s (endMig x true d))))

/-- When the window of an exchange closes its two frames have changed places, no other frame has moved, and every byte of memory reads as it
did: a program's addresses keep their contents. The end of a Seedbed group's move puts the spare in its place and says so in the half's
registers and in the event log. -/
def Obligations.MigrationsKeepContents : Prop :=
  ∀ (s : State), let c := s.toChip
    (∀ (i ns held a b : Nat) (m : Mig), (Instr.migrationWindow i ns held).wf = true → Canonical s → c.quiet = true →
      c.srv.migs.find? (fun m => m.id == i && m.window) = some m → m.a = a → m.b = some b → a ≠ b → m.dst = c.place b → m.bad = [] →
      m.why ≠ .retire → c.hedge.slice = none → c.host.dir = [] →
        ∃ e, Gives (.migrationWindow i ns held) s e ∧ SameMemory c e ∧ e.place a = c.place b ∧ e.place b = c.place a ∧
          (∀ f, f ≠ a → f ≠ b → e.place f = c.place f) ∧ (∀ x ∈ e.srv.migs, x.id ≠ i)) ∧
    (∀ (h g : Nat), (Instr.seedbedGroupMoveEnd h).wf = true → c.bank.moving.find? (fun e => e.1 == h) = some (h, g, true) → c.hedge.slice = none →
      let d : Chip := { c with bank := { c.bank with moving := c.bank.moving.filter (fun e => e.1 != h) } }
      Gives (.seedbedGroupMoveEnd h) s
        (((((d.rput (SBD h) SBD_STATUS_MOVE_ACTIVE 0).rput (SBD h) SBD_MAP_SPARED_GROUP g).rput (SBD h) SBD_MAP_SPARE_IN_USE 1).rput
          (SBD h) SBD_MAP_TEST 1).logEvent 0x0016 2 0x08 h 0 g 1))

/-! ### Management -/

/-- IDENTIFY, REG_READ, TELEMETRY_READ and EVENT_LOG_READ end DONE with their replies: the module's identity; the words read, which before
READY must lie in the management region; the header and the samples of a telemetry ring from the index asked for, or the oldest held, as many
whole ones as fit; the header and at most 31 records of the event log. A reply is written at RESP for a command of a queue, as far as
RESP_MAX and backed pages go, and kept for a path's sender otherwise. -/
def Obligations.ManagementReadsAnswer : Prop :=
  ∀ (s : State) (k : Carrier) (seq : Nat) (m : Cmd), let c := s.toChip
    (∀ data, m.queue? = none → answer m data c = finish { m with reply := data } (mkRes sDone [(0, 4, data.length)]) c) ∧
    (∀ data q, m.queue? = some q → m.par 16 8 ≠ 0 → (∀ i, i < min (m.par 24 4) data.length → pageAddr m.pages (bits (m.par 16 8) 0 57 + i) = none) →
      answer m data c = finish m (mkRes sDone [(0, 4, data.length)]) c) ∧
    ((Instr.identify k seq).wf = true → control k seq 0xF 1 c = some m →
      (identReply c).length = 256 ∧ Gives (.identify k seq) s (answer m (identReply c) c)) ∧
    ((Instr.regRead k seq).wf = true → control k seq 0xF 2 c = some m →
      (c.up = true ∨ (0x10000 ≤ m.par 32 8 ∧ m.par 32 8 < 0x1000000) →
        Gives (.regRead k seq) s (answer m ((List.range (m.par 40 2)).flatMap (fun i => leBytes 4 (regWord c (m.par 32 8 + 4 * i)))) c)) ∧
      (c.up = false → m.par 32 8 < 0x10000 ∨ 0x1000000 ≤ m.par 32 8 → Gives (.regRead k seq) s (finish m (mkRes sBusy []) c))) ∧
    ((Instr.telemetryRead k seq).wf = true → control k seq 0xF 4 c = some m → ∀ d, back32 (nth c.gov.next (m.par 32 1) 0) (m.par 36 4) = some d →
      let ring := nth c.gov.rings (m.par 32 1) []
      let size := if m.par 32 1 = 2 then 8 else 16
      let n := min d ring.length
      let l := (ring.drop (ring.length - n)).take (1008 / size)
      Gives (.telemetryRead k seq) s (answer m (fields 16 [(0, 4, nth c.gov.next (m.par 32 1) 0 - n), (4, 4, l.length),
        (8, 8, (l.head?.map (fun x => x.1)).getD 0)] ++ l.flatMap (fun x => sliceBytes x.2 0 size)) c)) ∧
    ((Instr.eventLogRead k seq).wf = true → control k seq 0xF 0xC c = some m → ∀ d r rs, back32 (c.rget MGT MGT_EVENTS) (m.par 36 4) = some d →
      c.log.recs = r :: rs → let l := (c.log.recs.drop (c.log.recs.length - min d c.log.recs.length)).take 31
      ∀ x xs, l = x :: xs → Gives (.eventLogRead k seq) s (answer m (fields 16 [(0, 4, x.index), (4, 4, l.length), (8, 4, r.index),
        (12, 4, c.rget MGT MGT_LOG_NEXT_NEXT)] ++ l.flatMap LogRec.bytes) c.draw.2))

/-- REG_WRITE writes its words, LIMIT_SET the power limits (a floor of 0 only clears FLOOR_EN), STILE_SET the Stile's order. A self-test of
a slice starts with its record in the registers, and is not run for want of spares with RESULT 2; SELFTEST_FULL is refused unless the module
is quiescent, and then writes its record and restarts the module; FW_STAGE verifies an image that needs no copy, and marks its slot;
FW_ACTIVATE of a verified slot starts an activation that a failure to start takes back; RESET_FUNCTION ends a reset of the host complex
that is already down at once, and resets an engine with every command in its instance ended. -/
def Obligations.ManagementCommandsAct : Prop :=
  ∀ (s : State) (k : Carrier) (seq : Nat) (m : Cmd), let c := s.toChip
    ((Instr.regWrite k seq).wf = true → control k seq 0xF 3 c = some m → c.up = true →
      let d := writeWords (carPath k) (m.par 32 8) ((List.range (m.par 40 2)).map (fun i => m.par (64 + 4 * i) 4)) c
      Gives (.regWrite k seq) s (finish ((d.findCmd k seq).getD m) doneRes d)) ∧
    ((Instr.limitSet k seq).wf = true → control k seq 0xF 5 c = some m →
      let d := ((c.rput PWR PWR_LIMIT_LIMIT (m.par 32 4)).rput PWR PWR_LIMIT_FIXED_FREQ (bits (m.par 41 1) 0 1)).rput PWR PWR_GRID_RAMP (m.par 36 4)
      Gives (.limitSet k seq) s (finish m doneRes (if m.par 40 1 = 0 then d.rput PWR PWR_GRID_FLOOR_EN 0
        else (d.rput PWR PWR_GRID_FLOOR_PCT (m.par 40 1)).rput PWR PWR_GRID_FLOOR_EN 1))) ∧
    ((Instr.stileSet k seq).wf = true → control k seq 0xF 0xB c = some m →
      Gives (.stileSet k seq) s (finish m doneRes (stileCheck (c.rput AIH AIH_STILE_ORDERED (m.par 32 1))))) ∧
    ((Instr.selftestSlice k seq).wf = true → control k seq 0xF 6 c = some m → c.hedge.slice = none →
      let t : SliceTest := { car := k, seq := seq, kind := m.par 32 1, half := m.par 33 1, index := m.par 34 2, at_ := c.time }
      let d := setSlice t (((c.rput START MGT_ST_STATUS_KIND t.kind).rput START MGT_ST_STATUS_HALF t.half).rput START MGT_ST_STATUS_INDEX t.index)
      stHeld t d = false →
        (stFree t d = true → Gives (.selftestSlice k seq) s (stAside t d)) ∧
        (stFree t d = false → Gives (.selftestSlice k seq) s (stOver t (stReply t ⟨2, 0, 0, 0, 0, 0⟩ d) d))) ∧
    (∀ t o, (Instr.sliceTestEnd o).wf = true → c.hedge.slice = some t → t.begun = true → t.back = none → o.result < 2 → t.kind < 9 →
      stVerdict t.kind { o with result := 0 } = 0 →
        Gives (.sliceTestEnd o) s (stOver t (stReply t { o with result := 0 } c) (stUndo t c))) ∧
    ((Instr.selftestFull k seq).wf = true → control k seq 0xF 7 c = some m →
      (quiescent m c = false → Gives (.selftestFull k seq) s (finish m (mkRes sBusy []) c)) ∧
      (∀ n, let d := answer m (fields 8 [(0, 4, c.draw.1)]) c.draw.2
        quiescent m c = true → d.findCmd k seq = some n → Gives (.selftestFull k seq) s (fullRestart (retire n (n.res.getD doneRes) d)))) ∧
    ((Instr.fwStage k seq).wf = true → control k seq 0xF 8 c = some m →
      (m.prog = 0 → Gives (.fwStage k seq) s (finish m (mkRes sBusy []) c)) ∧
      (m.prog ≠ 0 → m.par 32 8 = 0 → let u := m.par 44 1
        let i := m.par 45 1
        let r := fwVerify u i none c
        Gives (.fwStage k seq) s (answer m (fields 8 [(0, 1, r), (4, 4, fwLe c (2 * u + i) 8 4)]) (if r = 0 then setSlotOk u i 1 c else c)))) ∧
    ((Instr.fwActivate k seq).wf = true → control k seq 0xF 9 c = some m → let u := m.par 44 1
      (c.hedge.act ≠ none ∨ slotOk c u (m.par 45 1) = false → Gives (.fwActivate k seq) s (finish m (mkRes sBusy []) c)) ∧
      (c.hedge.act = none → slotOk c u (m.par 45 1) = true → u ≠ 0 →
        let d := ((c.rput MGT MGT_FW_ACTIVE 1).rput MGT MGT_FW_ACTIVE_UNIT u).putCmd { m with wait := .activation u }
        Gives (.fwActivate k seq) s { d with hedge := { d.hedge with
          act := some { car := m.car, seq := m.seq, unit := u, image := m.par 45 1, now := 0 } } })) ∧
    (∀ a, (Instr.fwActivationFail).wf = true → c.hedge.act = some a → a.back = false →
      let d := endAct a (mkRes sRetryEx []) (c.logEvent 0x0054 3 0x11 0xFF 0 a.unit a.image)
      Gives .fwActivationFail s (if a.unit = 0 then { d with hedge := { d.hedge with act := some { a with back := true } } } else clearAct d)) ∧
    ((Instr.resetFunction k seq).wf = true → control k seq 0xF 0xA c = some m →
      (m.par 32 1 = 0 → c.rget CPLX HST_CPLX_STATUS_STATE ≠ 1 → Gives (.resetFunction k seq) s (finish m doneRes c)) ∧
      (m.par 32 1 = 0 → c.rget CPLX HST_CPLX_STATUS_STATE = 1 → Gives (.resetFunction k seq) s (hostDown 4 0 (c.putCmd { m with wait := .hostReset }))) ∧
      (m.par 32 1 = 1 → let d := engineReset (m.par 34 1) (resetEngine (m.par 33 1) (m.par 34 1)) (c.rcount MGT MGT_ENGINE_RESETS 1)
        Gives (.resetFunction k seq) s (finish ((d.findCmd k seq).getD m) doneRes d)))

/-! ### Epochs and faults -/

/-- A commit with the next epoch, no mixed window open and a topology that fits puts every shadow in force, with CURRENT the new epoch,
PREVIOUS the old one, the window open and every engine that is awake pending; any other commit sets REFUSED and changes nothing else. An
engine at a command boundary that has adopted already changes nothing. -/
def Obligations.CommitsFollowTheEpoch : Prop :=
  ∀ (s : State) (p : Path) (v : Nat), (Instr.modCfgCommit p v).wf = true → let c := s.toChip
    let n := v % 65536
    let ok := n = nextEpoch (c.rget MOD MOD_CFG_EPOCH_CURRENT) ∧ c.rget MOD MOD_CFG_STATUS_MIXED = 0 ∧ topoOk c = true
    (c.up = true → ok → Gives (.modCfgCommit p v) s (commitNow n c) ∧ let d := commitNow n c
      ∀ e, e ∈ allEngines → (c.engine e).awake = true → (c.engine e).service = true → (d.engine e).adopted = false ∧
        (∀ x ∈ shadowMap, d.reg x.2 = c.reg x.1) ∧ d.rget MOD MOD_CFG_EPOCH_CURRENT = n ∧
        d.rget MOD MOD_CFG_EPOCH_PREVIOUS = c.rget MOD MOD_CFG_EPOCH_CURRENT ∧ d.rget MOD MOD_CFG_STATUS_MIXED = 1 ∧
        d.rget MOD MOD_CFG_STATUS_PENDING = (allEngines.filter (fun x => (c.engine x).awake && (c.engine x).service)).length % 65536) ∧
    (c.up = true → ¬ ok → Gives (.modCfgCommit p v) s (c.rput MOD MOD_CFG_STATUS_REFUSED 1)) ∧
    (∀ e, (Instr.engineAdoptEpoch e).wf = true → (c.engine e).adopted = true → Gives (.engineAdoptEpoch e) s c)

/-- The mixed window closes when PENDING reaches 0: an engine that adopts as the last of those pending, at its command boundary or as it
loses its power, and a commit that finds no engine awake, clear MIXED, set PREVIOUS to 0, release the previous configuration of every engine
and of the module, and send the notification if MOD_CFG_NOTIFY.ENABLE is 1; while others are pending the window stays open. -/
def Obligations.MixedWindowCloses : Prop :=
  let closed := fun (c d : Chip) =>
    let x := (c.rput MOD MOD_CFG_STATUS_MIXED 0).rput MOD MOD_CFG_EPOCH_PREVIOUS 0
    let x : Chip := { x with prevCfg := [], eng := c.eng.map (fun e => (e.1, { e.2 with holdsPrev := false })) }
    d = if c.rget MOD MOD_CFG_NOTIFY_ENABLE = 1 then notifyAdd (c.rget MOD MOD_CFG_NOTIFY_SEM) x else x
  ∀ (s : State) (e : Engine), let c := s.toChip
    (c.engine e).adopted = false →
      (∀ keep, c.rget MOD MOD_CFG_STATUS_PENDING = 1 →
        let y := (c.setEngine e { c.engine e with adopted := true, holdsPrev := keep }).rput MOD MOD_CFG_STATUS_PENDING 0
        closed y (adopt keep e c) ∧ (keep = true → (Instr.engineAdoptEpoch e).wf = true → c.busy e = false →
          ∃ d, Gives (.engineAdoptEpoch e) s d ∧ closed y d)) ∧
      (∀ keep n, c.rget MOD MOD_CFG_STATUS_PENDING = n + 2 →
        (adopt keep e c).rget MOD MOD_CFG_STATUS_PENDING = n + 1 ∧
          (adopt keep e c).rget MOD MOD_CFG_STATUS_MIXED = c.rget MOD MOD_CFG_STATUS_MIXED ∧
          (adopt keep e c).rget MOD MOD_CFG_EPOCH_PREVIOUS = c.rget MOD MOD_CFG_EPOCH_PREVIOUS)

/-- A response to a pending fault retries it or declines it; to another one it sets RESP_UNKNOWN; before READY it is ignored and logged.
Consumption is recorded. A pending fault's entry is written to the ring at the next slot when one is free, counted and marked, with an
interrupt when the ring was empty and interrupts are on; with the ring full nothing is written, and with no usable ring RING_FAULT is set.
A command held or stalled on a fault ends with TIMEOUT where its context has a fault timeout. -/
def Obligations.FaultCommandsAct : Prop :=
  ∀ (s : State), let c := s.toChip
    (∀ p id x, c.up = true → c.pendingFaults.find? (fun x => x.id == id) = some x →
      ((Instr.faultRetry p id).wf = true → Gives (.faultRetry p id) s (settleWaits (faultRetry x c))) ∧
      ((Instr.faultDecline p id).wf = true → Gives (.faultDecline p id) s (settleWaits (faultDecline x c)))) ∧
    (∀ p id, c.pendingFaults.find? (fun x => x.id == id) = none →
      ((Instr.faultRetry p id).wf = true →
        Gives (.faultRetry p id) s (if c.up then c.rput MOD MOD_XLT_ERR_RESP_UNKNOWN 1 else accLog 0 0x3018 .other p c)) ∧
      ((Instr.faultDecline p id).wf = true →
        Gives (.faultDecline p id) s (if c.up then c.rput MOD MOD_XLT_ERR_RESP_UNKNOWN 1 else accLog 0 0x3018 .other p c))) ∧
    (∀ p v, (Instr.modFrConsumed p v).wf = true → c.up = true → Gives (.modFrConsumed p v) s (c.rput MOD MOD_FR_CONSUMED_CONSUMED v)) ∧
    (∀ id x, (Instr.faultRingWrite id).wf = true → c.xlt.pending.find? (fun x => x.id == id && !x.written) = some x →
      (frHeld c ≥ frEntries c → Gives (.faultRingWrite id) s c) ∧
      (frHeld c < frEntries c → frUsable c = false → Gives (.faultRingWrite id) s (c.rput MOD MOD_XLT_ERR_RING_FAULT 1)) ∧
      (frHeld c < frEntries c → frUsable c = true → let n := c.rget MOD MOD_FR_COUNT_COUNT
        let d := (c.wrMem (frBase c + 64 * (n % frEntries c)) (faultEntry x c)).rput MOD MOD_FR_COUNT_COUNT (n + 1)
        let d : Chip := { d with xlt := { d.xlt with pending := markWritten x d.xlt.pending } }
        Gives (.faultRingWrite id) s (if d.rget MOD MOD_FR_CFG_IRQ_EN = 1 ∧ frHeld c = 0 then d.raiseVector (d.rget MOD MOD_FR_CFG_VECTOR) else d))) ∧
    (∀ k seq m, (Instr.faultTimeout k seq).wf = true → c.findCmd k seq = some m → (faultTimeoutNs m.ctx c).isSome = true →
      m.stall.isSome = true ∨ (m.phase = .accepted ∧ heldByFault m = true) →
        Gives (.faultTimeout k seq) s (settleWaits (endOnFault m (mkRes sTimeout []) c)))

/-! ### Register writes -/

/-- A write stored in a register changes each of its fields as the field's access says: an RW field and, while its commit lock is clear, an
RWL field take the bits written; a W1C field loses those bits; RO, WO and HWI fields keep theirs, and so does an RWL field under its lock,
whose write is logged; a commit lock that is 1 stays 1. -/
def Obligations.StoredWritesFollowTheAccess : Prop :=
  ∀ (path : Path) (o : Nat) (p : Place) (r : RegDef) (v : Nat) (c : Chip) (f : RegField), f ∈ r.flds → p.blk ≠ .out →
    r.flds.Pairwise (fun a b => a.lo + a.w ≤ b.lo ∨ b.lo + b.w ≤ a.lo) → (∀ g ∈ r.flds, g.lo + g.w ≤ 64) →
    let old := bits (c.reg o).toNat f.lo f.w
    let new := bits v f.lo f.w
    ∃ x : Chip, OnlyRegs [o] c x ∧
      bits (x.reg o).toNat f.lo f.w = (match f.acc with
        | .rw => if isLock p.blk r.off f.lo = true ∧ old = 1 then 1 % 2 ^ f.w else new
        | .w1c => old &&& (2 ^ f.w - 1 - new)
        | .rwl => if lockOn c p then old else new
        | _ => old) ∧
      regStore path o p r v c = if lockOn c p && r.flds.any (fun g => decide (g.acc = .rwl)) then accLog 0 o .locked path x else x

/-- REGISTER_WRITE of the right width at a register stores it, or does what a write of it does; of the wrong width it is logged. The
commands that are writes of one register do what that register's write does: a PCX or an Aihal link trains again, ALERT_N is deasserted
unless an event of severity 4 stands, a port's optics fault is cleared and tried again, a wake is asked for, a root's time is set, a held
host complex starts, an image byte of a slot that is not running is stored, and PCX_FLUSH drains its port and reads 0. -/
def Obligations.RegisterCommandsAct : Prop :=
  ∀ (s : State) (path : Path), let c := s.toChip
    (∀ off size v p r, (Instr.registerWrite path off size v).wf = true → finds path off size c p r →
      (size = 4 → r.wide = false → Gives (.registerWrite path off size v) s (regAct path off p r (bits v 0 32) c)) ∧
      (size = 8 → r.wide = true → Gives (.registerWrite path off size v) s (regAct path off p r v c)) ∧
      (size = 4 → r.wide = true → Gives (.registerWrite path off size v) s (accLog 0 off .narrow path c))) ∧
    (∀ q p r, (Instr.pcxRetrain path q).wf = true → finds path (PCX q + 4) 4 c p r → r.wide = false → p.blk = .pcx → r.off = 4 → p.inst = q →
      Gives (.pcxRetrain path q) s (linkRetrainNow q (regStore path (PCX q + 4) p r 2 c))) ∧
    (∀ q p r, (Instr.aihPortRetrain path q).wf = true → finds path (AIHP q + 4) 4 c p r → r.wide = false → p.blk = .aihp → r.off = 4 → p.inst = q →
      (c.reg (AIHP q + 4)).toNat < 8 → let v := (c.reg (AIHP q + 4)).toNat + 8
      Gives (.aihPortRetrain path q) s (portRetrain q (regStore path (AIHP q + 4) p r v c))) ∧
    (∀ p r, (Instr.mgtAlertClear path).wf = true → finds path (MGT + 8) 4 c p r → r.wide = false → p.blk = .mgt → r.off = 8 →
      Gives (.mgtAlertClear path) s (if c.log.hold4 then c else (c.rput MGT MGT_ALERT_PENDING 0).rput MGT MGT_STATUS_ALERT 0)) ∧
    (∀ q p r, (Instr.opticsFaultClear path q).wf = true → finds path (PWR + 0x34) 4 c p r → r.wide = false → p.blk = .pwr → r.off = 0x34 →
      Gives (.opticsFaultClear path q) s (opticsFaultClear q c)) ∧
    ((Instr.wakeReq path).wf = true → c.hedge.standby = true → Gives (.wakeReq path) s (wakeBy c)) ∧
    (∀ v, (Instr.aihTimeSet path v).wf = true → c.up = true →
      (c.rget AIH AIH_TIME_CTL_ROOT = 1 → Gives (.aihTimeSet path v) s
        (timeCheck { c with time := v, fab := { c.fab with synced := true, rate := 0, left := 0, frac := 0 } })) ∧
      (c.rget AIH AIH_TIME_CTL_ROOT ≠ 1 → Gives (.aihTimeSet path v) s (accLog 0 (AIH + AIH_TIME_SET_TIME.off) .other path c))) ∧
    ((Instr.mgtHostRelease path).wf = true → c.up = true → c.rget START MGT_STRAP_HOST_HOLD = 1 → c.rget CPLX HST_CPLX_STATUS_STATE = 0 →
      c.host.resetting = false → Gives (.mgtHostRelease path) s (hostsStart c)) ∧
    (∀ w v, (Instr.imageWindowWrite path w v).wf = true → c.hedge.standby = true → pathLive path c = true → w % 4 = 0 → v < 2 ^ 32 →
      let u := c.rget START MGT_FW_WIN_CTL_UNIT
      let i := c.rget START MGT_FW_WIN_CTL_IMAGE
      let o := c.rget START MGT_FW_WIN_CTL_BASE * 256 + w
      u ≠ 3 → o + 4 ≤ fwLimit u → c.rget MGT (runFld u) ≠ i →
        Gives (.imageWindowWrite path w v) s (fwStore (2 * u + i) o (leBytes 4 v) c)) ∧
    (∀ q, (Instr.pcxFlush path q).wf = true → c.hedge.standby = true → pathLive path c = true → c.up = true →
      Gives (.pcxFlush path q) s ((drainAll q c).emit (.read path (PCX q + PCX_FLUSH.off) 0)))

/-! ### The management paths -/

/-- A Block Write of a whole request with its PEC reaches an SMBus that is served and free, and is acknowledged and accepted; without the
PEC, or while a command is in progress, it is not acknowledged. A Block Read answers the next bytes of the record, at most 255, or a single
byte 0xFF while there are none. A submitted mailbox that is free is accepted. A datagram from a sender the allow list admits, whose envelope
and lengths fit, is counted and accepted in its session; one from another sender is counted as discarded. A request for the module's own
address, on the management port or an encapsulated one, is answered to its sender. A request whose header
is sound and whose SEQ is not newer and lies in no duplicate window is answered with DUPLICATE_SUPPRESSED. Opening the presence contact takes the Stile to JOINED as soon as it may leave. -/
def Obligations.PathCommandsAct : Prop :=
  ∀ (s : State), let c := s.toChip
    (∀ bytes len, (Instr.smbusRequest true bytes).wf = true → pathsServed c = true → (c.path .smbus).busy = false → 1 ≤ len → len ≤ 3 →
      leAt bytes 3 1 = len → bytes.length = 64 * len →
        Gives (.smbusRequest true bytes) s (pathAccept .smbus none bytes (c.emit (.smbus true [])))) ∧
    (∀ pec bytes, (Instr.smbusRequest pec bytes).wf = true → pec = false ∨ (c.path .smbus).busy = true →
      Gives (.smbusRequest pec bytes) s (c.emit (.smbus false []))) ∧
    (pathsServed c = true → let x := c.path .smbus
      let l := (x.reply.drop x.cursor).take 255
      (x.busy = false → l ≠ [] → Gives .smbusReplyRead s
        ((c.setPath .smbus { x with cursor := x.cursor + l.length }).emit (.smbus true (BitVec.ofNat 8 l.length :: l)))) ∧
      (x.busy = true ∨ l = [] → Gives .smbusReplyRead s (c.emit (.smbus true [1, 0xFF])))) ∧
    (∀ p, (Instr.mailboxSubmit p).wf = true → isEp c p = true → pcxUp c p = true → (c.path (.mailbox p)).busy = false →
      pathsServed c = true → let b := (c.path (.mailbox p)).buf ++ List.replicate (320 - (c.path (.mailbox p)).buf.length) 0
        Gives (.mailboxSubmit p) s (pathAccept (.mailbox p) none (b.take (64 * leAt b 3 1)) c)) ∧
    (∀ d, (Instr.mgtDatagram d).wf = true → pathsServed c = true → c.rget NET MGT_NET_CTL_ENABLE = 1 →
      d.v6 = decide (c.rget NET MGT_NET_CTL_IPV6 = 1) →
      (∀ n < 16, allows c d.v6 d.src n = true → envelopeOk d.bytes = true → (d.bytes.drop 16).length ≥ 16 →
        (d.bytes.drop 16).length = 64 * leAt (d.bytes.drop 16) 3 1 →
        let k := leAt d.bytes 4 4
        let e := makeSession k (c.rcount NET MGT_NET_ACCEPTED 1)
        Gives (.mgtDatagram d) s (pathAccept (.net k) (some ⟨leAt (d.bytes.drop 16) 4 4, false, d.v6, d.src, d.mac, d.sport⟩) (d.bytes.drop 16)
          (e.setPath (.net k) { e.path (.net k) with used := e.time }))) ∧
      ((∀ n < 16, allows c d.v6 d.src n = false) → Gives (.mgtDatagram d) s (c.rcount NET MGT_NET_DISCARDED 1))) ∧
    (∀ r, (Instr.arpRequest r).wf = true →
      (r.port = 9 → pathsServed c = true → c.rget NET MGT_NET_CTL_ENABLE = 1 → r.v6 = decide (c.rget NET MGT_NET_CTL_IPV6 = 1) →
        r.target = netAddr c → Gives (.arpRequest r) s (c.emit (.arp 9 r.v6 r.target (c.rget NET MGT_NET_MAC) r.mac))) ∧
      (r.port < 9 → portState c r.port = 4 → c.rget (AIHP r.port) AIH_PORT_STATUS_USE = 3 → r.v6 = decide (c.rget AIH AIH_ENCAP_CUR_IPV6 = 1) →
        r.target = encapAddr c → Gives (.arpRequest r) s (c.emit (.arp r.port r.v6 r.target (c.rget (AIHP r.port) AIH_PORT_MAC) r.mac)))) ∧
    (∀ k f bytes, headerCheck (bytes.take 16) = 0 → bytes.length = 64 * leAt bytes 3 1 → let x := c.path k
      (∀ l, x.last = some l → seqNewer (leAt bytes 4 4) l = false → x.window.find? (fun y => y.seq == leAt bytes 4 4) = none →
        pathAccept k f bytes c =
          pathAnswer k f (recordBytes c (leAt bytes 4 4) sDupSupp (engByte (bits (leAt bytes 0 2) 12 4) 0) 0xFF (setDflag (detail []) 1)) c)) ∧
    ((Instr.moduleWithdrawn).wf = true → Gives .moduleWithdrawn s (stileCheck { c with fab := { c.fab with withdrawn := true } }))

/-! ### The PCI Express ports -/

/-- A posted write that a root port's window of the right rights covers and that is not poisoned is cut at 256 B lines and waits in the port,
from where it becomes visible as it pleases; one in the message page raises the vector of its low 15 data bits after the requester's earlier
writes. Each failed write sets the one error bit of its cause, is counted, and captures its address unless one is held. A read answers with
success and the bytes read, with the earlier writes of its requester visible; an atomic answers with the old value. A read or atomic that
no window of the right rights covers, or whose target is not backed, answers Unsupported Request. -/
def Obligations.InboundRequestsAct : Prop :=
  ∀ (s : State) (r : InboundReq), let c := s.toChip
    inLive c r = true → isEp c r.port = false →
    let n := r.data.length
    ((Instr.pcxInboundWrite r).wf = true → 0 < n → let d := c.rcount (PCX r.port) PCX_IN_WR_BYTES n
      (∀ w t, msiPage d r.port r.addr = false → inHit d r.port r.addr n 1 = .ok w t → r.poison = false → let x := d.port r.port
        let ps := (chunks 256 t n).map (fun u => (⟨r.req, w.tgt, u.1, (r.data.drop (u.1 - t)).take u.2, false, w.n, w.ctx, r.addr⟩ : Posted))
        Gives (.pcxInboundWrite r) s (drainSome r.port (d.setPcx r.port { x with posted := x.posted ++ ps }))) ∧
      (msiPage d r.port r.addr = true → n = 4 → r.addr % 4 = 0 → r.poison = false →
        Gives (.pcxInboundWrite r) s ((drainReq r.port r.req d).raiseVector (leNat r.data % 2 ^ 15))) ∧
      (msiPage d r.port r.addr = false → inHit d r.port r.addr n 1 = .noWin →
        Gives (.pcxInboundWrite r) s (failNote r.port r.addr (d.rput (PCX r.port) PCX_ERR_IN_NOWIN 1)))) ∧
    ((Instr.pcxInboundRead r).wf = true → let d := drainReq r.port r.req c
      (∀ w t, inHit d r.port r.addr r.size 0 = .ok w t → 
        let f := fun (x : List Byte × List Nat × Chip) (u : Nat × Nat) =>
          let y := readUnit (inLoc w u.1) u.2 x.2.2
          (x.1 ++ y.1, x.2.1 ++ y.2.1.toList, y.2.2)
        let x := (chunks 64 t r.size).foldl f ([], [], d)
        x.2.1 = [] → Gives (.pcxInboundRead r) s ((x.2.2.emit (.pcxCpl r.port r.tag 0 false x.1)).rcount (PCX r.port) PCX_IN_RD_BYTES x.1.length)) ∧
      (inHit d r.port r.addr r.size 0 = .noWin → Gives (.pcxInboundRead r) s
        (complete r 1 false [] (failNote r.port r.addr (d.rput (PCX r.port) PCX_ERR_IN_NOWIN 1)))) ∧
      (∀ w t, inHit d r.port r.addr r.size 0 = .rights w t → Gives (.pcxInboundRead r) s
        (complete r 1 false [] (failNote r.port r.addr (d.rput (PCX r.port) PCX_ERR_IN_RIGHTS 1)))) ∧
      (∀ w t, inHit d r.port r.addr r.size 0 = .unbacked w t → Gives (.pcxInboundRead r) s
        (complete r 1 false [] (failNote r.port r.addr (d.rput (PCX r.port) PCX_ERR_IN_UNBACKED 1))))) ∧
    ((Instr.pcxInboundAtomic r).wf = true → r.size = 4 ∨ r.size = 8 → r.addr % r.size = 0 → let d := drainReq r.port r.req c
      (∀ w t, inHit d r.port r.addr r.size 2 = .ok w t → r.poison = false →
        let x := atomAt t (tlpAop r.aop) .int32 (8 * r.size) r.operand r.compare (d.touch t)
        x.2.2.2 = none → Gives (.pcxInboundAtomic r) s (complete r 0 false (leBytes r.size x.2.1) x.1)) ∧
      (inHit d r.port r.addr r.size 2 = .noWin → Gives (.pcxInboundAtomic r) s
        (complete r 1 false [] (failNote r.port r.addr (d.rput (PCX r.port) PCX_ERR_IN_NOWIN 1))))) ∧
    (∀ data, (Instr.pcxMsiReceive r.port r.req r.addr data).wf = true → msiPage c r.port r.addr = true → r.addr % 4 = 0 →
      Gives (.pcxMsiReceive r.port r.req r.addr data) s
        ((drainReq r.port r.req (c.rcount (PCX r.port) PCX_IN_WR_BYTES 4)).raiseVector (data % 2 ^ 15)))

/-- A function-level reset of function 0 resets the contexts the port owns, invalidates its windows, clears MSI-X and ends its outbound
requests with access faults; one of function 1 clears the mailbox, while a command from it runs on under another name; an endpoint reset or
loss of the link does both. A link that trained comes up with the speed and width of the partner, in FLIT mode at 64 GT/s, and ends a port
reset that waits for it; an error message sets AER_MSG at a root port; a port reset
whose link is not up in time ends. -/
def Obligations.PortsComeAndGo : Prop :=
  ∀ (s : State) (p : Nat), let c := s.toChip
    (isEp c p = true → pcxUp c p = true →
      ((Instr.pcxFlrFunction0 p).wf = true → Gives (.pcxFlrFunction0 p) s (flr0 p c)) ∧
      ((Instr.pcxFlrFunction1 p).wf = true → Gives (.pcxFlrFunction1 p) s (flr1 p c))) ∧
    ((Instr.pcxEndpointReset p).wf = true → isEp c p = true → c.hedge.standby = true → Gives (.pcxEndpointReset p) s (flr1 p (flr0 p c))) ∧
    ((Instr.pcxLinkDown p).wf = true → pcxUp c p = true → let d := (linkClear p c).rput (PCX p) PCX_ERR_LINK_DOWN 1
      Gives (.pcxLinkDown p) s (if isEp d p then flr1 p (flr0 p d) else d)) ∧
    (c.cmds.all (fun m => decide (m.car ≠ .mailbox p)) = true → flr1 p c = c.setPath (.mailbox p) {}) ∧
    (∀ speed width, (Instr.pcxLinkUp p speed width).wf = true → c.hedge.standby = true → pcxUp c p = false → 1 ≤ speed → speed ≤ 6 →
      width ∈ [1, 2, 4, 8, 16] → ∃ e, Gives (.pcxLinkUp p speed width) s e ∧ pcxUp e p = true ∧ e.rget (PCX p) PCX_STATUS_SPEED = speed ∧
        e.rget (PCX p) PCX_STATUS_WIDTH = width ∧ (speed = 6 → e.rget (PCX p) PCX_STATUS_FLIT = 1) ∧
        (c.rget (PCX p) PCX_STATUS_FLR = 1 → e.rget (PCX p) PCX_STATUS_FLR = 0)) ∧
    ((Instr.pcxErrorMessage p).wf = true → pcxUp c p = true → isEp c p = false → Gives (.pcxErrorMessage p) s (c.rput (PCX p) PCX_ERR_AER_MSG 1)) ∧
    ((Instr.portResetTimeout false p).wf = true → Gives (.portResetTimeout false p) s (endWaits (.portReset p) (c.rput (PCX p) PCX_STATUS_FLR 0))) ∧
    ((Instr.portResetTimeout true p).wf = true → Gives (.portResetTimeout true p) s (endWaits (.aihalPort p) c))

/-- A host core's read over a port with a free tag goes out and waits; its completion of status 0 gives the core the bytes, and one of an
error status, or none for 50 ms, an access fault; a write is posted and done at once. ECAM of an endpoint, and a port whose link is down, are
access faults. A function that is ready answers a configuration request, and one that is not answers with Request Retry Status. -/
def Obligations.OutboundRequestsAct : Prop :=
  ∀ (s : State), let c := s.toChip
    (∀ r p ecam o, (Instr.pcxOutboundRequest r).wf = true → outTarget r.addr = some (p, ecam, o) → hostOn r.hart c = true →
      let d := hartRuns r.hart c
      (ecam = true → isEp d p = true → Gives (.pcxOutboundRequest r) s (outFault p r.hart r.addr d)) ∧
      (ecam = false → pcxUp d p = false → Gives (.pcxOutboundRequest r) s (outFault p r.hart r.addr d)) ∧
      (ecam = false → pcxUp d p = true →
        (∀ t, r.wr = none → freeTag (d.port p) = some t → let x := d.port p
          let e := d.setPcx p { x with outs := x.outs ++ [⟨t, r.hart, r.addr, r.size⟩], nextTag := (t + 1) % 16384 }
          Gives (.pcxOutboundRequest r) s ((e.emit (.pcxReq p t 0 o r.size [])).rcount (PCX p) PCX_OUT_BYTES 0)) ∧
        (∀ b, r.wr = some b → Gives (.pcxOutboundRequest r) s
          (((d.emit (.pcxReq p 0 1 o r.size b)).emit (.hostReply r.hart r.addr 0 [])).rcount (PCX p) PCX_OUT_BYTES b.length)))) ∧
    (∀ p tag o, (c.port p).outs.find? (fun o => o.tag == tag) = some o →
      let d := c.setPcx p { c.port p with outs := (c.port p).outs.filter (fun o => o.tag != tag) }
      (∀ data, (Instr.pcxOutboundCompletion p tag 0 data).wf = true → pcxUp c p = true →
        Gives (.pcxOutboundCompletion p tag 0 data) s (d.emit (.hostReply o.hart o.addr 0 (sliceBytes data 0 o.size)))) ∧
      (∀ st data, (Instr.pcxOutboundCompletion p tag st data).wf = true → pcxUp c p = true → st ≠ 0 → st ≠ 2 →
        Gives (.pcxOutboundCompletion p tag st data) s ((d.rput (PCX p) PCX_ERR_OUT_FAULT 1).emit (.hostReply o.hart o.addr 1 []))) ∧
      ((Instr.pcxCompletionTimeout p tag).wf = true →
        Gives (.pcxCompletionTimeout p tag) s ((d.rput (PCX p) PCX_ERR_OUT_FAULT 1).emit (.hostReply o.hart o.addr 1 [])))) ∧
    (∀ p fn off, (Instr.pcxConfigRequest p fn off none).wf = true → c.hedge.standby = true → pcxUp c p = true → isEp c p = true →
      (fn = 0 → c.up = false ∨ c.rget (PCX p) PCX_STATUS_FLR = 1 → Gives (.pcxConfigRequest p fn off none) s (c.emit (.pcxCfg p fn off 2 0))) ∧
      (fn = 1 ∨ (c.up = true ∧ c.rget (PCX p) PCX_STATUS_FLR = 0) → off < 4 → Gives (.pcxConfigRequest p fn off none) s
        (c.emit (.pcxCfg p fn off 0 (c.rget MOD MOD_ID_VENDOR + 65536 * (if fn = 0 then c.rget MOD MOD_ID_DEVICE else 0x4B02))))))

/-! ### The links, the Stile and fabric time -/

/-- Light at a port that is OFF and may train starts its training, and FEC lock takes it to the exchange of records, or UP where it is
encapsulated; loss of light in QUARANTINE, UP or the exchange takes it back to training. A record that agrees brings a link UP, one that does not takes
it to QUARANTINE, with CONCORD set and an event as it enters. In state UP: the next frame awaited is counted and delivered, and acknowledged as the 64th; one
with a bad CRC is counted and answered with a NAK; an older one is dropped; an ACK frees the frames before its number and lets others leave,
a NAK or 2 µs of silence sends the unacknowledged ones again, and the ACK timer acknowledges what has arrived. After 16 replays the link
retrains; a third failed retrain makes it FAILED, its frames dropped, with an event. A time exchange with the port that time is taken on adopts
the hops, and slews, steps or slows down by the offset; 10 ms without one make stamps time-unsure. The Stile moves to where its conditions
ask, and as the change ends both ring links are dropped; the bypass pin is one of the conditions. -/
def Obligations.LinkCommandsAct : Prop :=
  ∀ (s : State) (p : Nat), let c := s.toChip
    let b := AIHP p
    let a := c.aport p
    ((Instr.linkSignalDetect p).wf = true → portState c p = 0 → portReady (c.rput b AIH_PORT_STATUS_LOS 0) p = true →
      Gives (.linkSignalDetect p) s (portTrain p (c.rput b AIH_PORT_STATUS_LOS 0))) ∧
    ((Instr.linkFecLock p).wf = true → portState c p = 1 → portReady c p = true → let d := c.rput b AIH_PORT_STATUS_LOS 0
      (c.rget b AIH_PORT_STATUS_USE = 3 → Gives (.linkFecLock p) s (portUpNow p d)) ∧
      (c.rget b AIH_PORT_STATUS_USE ≠ 3 → Gives (.linkFecLock p) s (setPort p 2 d))) ∧
    ((Instr.linkLossOfSignal p).wf = true → portState c p ∈ [2, 3, 4] → Gives (.linkLossOfSignal p) s (setPort p 1 (c.rput b AIH_PORT_STATUS_LOS 1))) ∧
    ((Instr.concordSend p).wf = true → portState c p = 2 ∨ portState c p = 3 → c.rget b AIH_PORT_STATUS_USE ≠ 3 →
      Gives (.concordSend p) s (c.emit (.concord p (concordRec c p)))) ∧
    (∀ r, (Instr.concordReceive p r).wf = true → c.rget b AIH_PORT_STATUS_USE ≠ 3 → recCrc r.bytes = true →
      let d := (((c.setAport p { a with peer := r.bytes }).rput b AIH_PORT_PEER_NODE (leAt r.bytes 8 3)).rput b AIH_PORT_PEER_PORT
        (leAt r.bytes 11 1)).rput b AIH_PORT_PEER_VALID 1
      (portState c p ∈ [2, 3] → agree (concordRec d p) r.bytes = true → Gives (.concordReceive p r) s (portUpNow p d)) ∧
      (portState c p ∈ [2, 4] → agree (concordRec d p) r.bytes = false →
        Gives (.concordReceive p r) s (linkEvent p (setPort p 3 (d.rput b AIH_PORT_ERR_CONCORD 1))))) ∧
    (∀ f, (Instr.frameReceive p f).wf = true → portState c p = 4 → c.rget b AIH_PORT_STATUS_USE ≠ 3 →
      (f.crcOk = false → Gives (.frameReceive p f) s ((c.rcount b AIH_PORT_CRC_ERR 1).emit (.nak p a.rxSeq))) ∧
      (f.crcOk = true → f.seq = a.rxSeq → f.dst = c.node → a.sinceAck < 63 →
        Gives (.frameReceive p f) s (deliverPkt f.pkt ((c.setAport p { a with rxSeq := (a.rxSeq + 1) % 65536, sinceAck := a.sinceAck + 1 }).rcount b
          AIH_PORT_RX_BYTES (pktBytes f.pkt)))) ∧
      (f.crcOk = true → f.seq = a.rxSeq → f.dst = c.node → a.sinceAck = 63 →
        Gives (.frameReceive p f) s (deliverPkt f.pkt (((c.setAport p { a with rxSeq := (a.rxSeq + 1) % 65536, sinceAck := 0 }).emit
          (.ack p ((a.rxSeq + 1) % 65536))).rcount b AIH_PORT_RX_BYTES (pktBytes f.pkt)))) ∧
      (f.crcOk = true → (∃ n, 1 ≤ n ∧ n ≤ 4096 ∧ f.seq + n = a.rxSeq) → a.rxSeq < 65536 → Gives (.frameReceive p f) s c)) ∧
    (portState c p = 4 →
      (∀ n, (Instr.ackReceive p n).wf = true → Gives (.ackReceive p n) s (ackTo p n c)) ∧
      (∀ n, (Instr.nakReceive p n).wf = true → Gives (.nakReceive p n) s (replayNow p (ackTo p n c))) ∧
      ((Instr.replayTimeout p).wf = true → Gives (.replayTimeout p) s (replayNow p c)) ∧
      ((Instr.ackTimer p).wf = true → a.sinceAck > 0 → Gives (.ackTimer p) s ((c.setAport p { a with sinceAck := 0 }).emit (.ack p a.rxSeq))) ∧
      ((Instr.linkRetrain p).wf = true → a.replays ≥ 16 →
        let d := (c.rput b AIH_PORT_ERR_REPLAY_LIMIT 1).rcount b AIH_PORT_RETRAINS 1
        Gives (.linkRetrain p) s (setPort p 1 (d.setAport p { d.aport p with replays := 0 })))) ∧
    ((Instr.linkFailed p).wf = true → portState c p ∈ [1, 2, 3] →
      Gives (.linkFailed p) s (linkEvent p (dropFrames p ((setPort p 5 c).rput b AIH_PORT_ERR_RETRAIN_FAIL 1)))) ∧
    (∀ x, (Instr.timeExchange x).wf = true → c.rget AIH AIH_TIME_CTL_ROOT = 0 → timePort c = some x.port → x.hops < 0xFFFF →
      let d := c.rput AIH AIH_TIME_CTL_HOPS (x.hops + 1)
      let fb := { c.fab with synced := true, lastX := c.time }
      (c.time ≤ x.theirs → x.theirs - c.time < 10000 →
        Gives (.timeExchange x) s (timeCheck { d with fab := { fb with rate := if x.theirs = c.time then 0 else 1, left := (x.theirs - c.time) * 1000 } })) ∧
      (x.theirs < c.time → c.time - x.theirs < 10000 →
        Gives (.timeExchange x) s (timeCheck { d with fab := { fb with rate := 2, left := (c.time - x.theirs) * 1000 } })) ∧
      (c.time + 10000 ≤ x.theirs → Gives (.timeExchange x) s
        (timeCheck { d with time := x.theirs, fab := { fb with rate := 0, left := 0, frac := 0, stepped := some x.theirs, lastX := x.theirs } })) ∧
      (x.theirs + 10000 ≤ c.time →
        Gives (.timeExchange x) s (timeCheck { d with fab := { fb with rate := 3, left := (c.time - x.theirs) * 1000 } }))) ∧
    ((Instr.timeUnsureTimeout).wf = true → c.rget AIH AIH_TIME_CTL_ROOT = 0 → Gives .timeUnsureTimeout s (c.rput AIH AIH_TIME_CTL_UNSURE 1)) ∧
    ((Instr.stileChange).wf = true → c.rget AIH AIH_STILE_MOVING = 1 → Gives .stileChange s
      (linkLossOfSignalStep 1 (linkLossOfSignalStep 0 ((c.rput AIH AIH_STILE_JOINED (b2n (stileJoins c))).rput AIH AIH_STILE_MOVING 0)))) ∧
    ((Instr.bypassReq).wf = true → Gives .bypassReq s (stileCheck (c.rput AIH AIH_STILE_REQ_PIN 1))) ∧
    ((Instr.bypassReqRelease).wf = true → Gives .bypassReqRelease s (stileCheck (c.rput AIH AIH_STILE_REQ_PIN 0)))

/-! ### Power, clocks and heat -/

/-- A tick of the governor counts the measurement's energy, works on the power measured, shows ballast and grant, and puts a sample of them into
ring 2; while a start waits in fixed-frequency mode the grant it works with has risen by RAMP / 50 W at most, and not above LIMIT. A junction
reading shows the temperatures, and caps clocks from 105 °C on, 10 % a degree and never below 20 %, until it is below 103 °C; a reading at the trip
point takes the rails down at once and locks the module. A memory reading before step 8 is only kept. A sample of 1 ms leaves the two slow rings one
sample longer and starts new sums. -/
def Obligations.GovernorCommandsAct : Prop :=
  ∀ (s : State), let c := s.toChip
    c.hedge.standby = true →
    (∀ m, (Instr.governorTick m).wf = true →
      let d := floorCheck (noteSource m c)
      let f := sampleFlags m.source d
      let g := govTick (1280 * m.power) (countTick m.power d)
      let e := showGov { g with gov := { g.gov with accP := g.gov.accP + m.power, accN := g.gov.accN + 1, accMax := max g.gov.accMax m.power,
                                                    accFlags := g.gov.accFlags ||| f } }
      Gives (.governorTick m) s
        (ringPush 2 (fields 8 [(0, 2, m.power / 10), (2, 2, e.gov.grant / 12800), (4, 2, e.gov.bal / 12800), (6, 1, f)]) e) ∧
        (d.rget MGT MGT_STATUS_OUTPUTS = 0 → govHeld d = false → d.gov.waiting ≠ [] → d.rget PWR PWR_LIMIT_CUR_FIXED_FREQ = 1 →
          let x := countTick m.power d
          let n := nextGrant x
          let y : Chip := { x with gov := { x.gov with grant := n } }
          let z := setBallast (if 1280 * m.power ≤ n then x.gov.bal + (n - 1280 * m.power) else x.gov.bal - min (rampStep x) (1280 * m.power - n)) y
          g = useFreed (admitLoop z.gov.waiting.length z) ∧ z.gov.grant = n ∧ n ≤ max (watt (govLimit d)) d.gov.grant ∧ n ≤ d.gov.grant + rampStep d)) ∧
    (∀ east west, (Instr.junctionSenseTick east west).wf = true →
      let pct := fun (n t : Nat) => if t ≥ 105 then max 20 (1150 - 10 * t) else if nth c.gov.caps n false = true ∧ t ≥ 103 then 100 else 100
      let on := fun (n t : Nat) => decide (t ≥ 105) || (nth c.gov.caps n false && decide (t ≥ 103))
      ∃ e, Gives (.junctionSenseTick east west) s e ∧ e.rget PWR PWR_TEMP_TJ_EAST = east ∧ e.rget PWR PWR_TEMP_TJ_WEST = west ∧
        e.rget PWR PWR_TEMP_CAP_EAST = pct 0 east ∧ e.rget PWR PWR_TEMP_CAP_WEST = pct 1 west ∧ e.gov.caps = [on 0 east, on 1 west] ∧
        e.rget PWR PWR_STATUS_THERMAL_CAP = b2n (on 0 east || on 1 west) ∧
        (on 0 east = true ∨ on 1 west = true → e.rget PWR PWR_STATUS_FLOOR_HELD = 0)) ∧
    (∀ n t, (Instr.thermalTrip n t).wf = true → c.hedge.trip = false → tripAt n t = true →
      let d := c.logEvent 0x0041 4 0x12 0xFF 0 n t
      Gives (.thermalTrip n t) s (railsFall (min 2 c.hedge.step) { d with hedge := { d.hedge with trip := true, lock := true, tripped := true } })) ∧
    (∀ d t, (Instr.memoryTempPoll d t).wf = true → c.hedge.step < 8 →
      Gives (.memoryTempPoll d t) s { c with hedge := { c.hedge with memT := c.hedge.memT.filter (fun x => x.1 != devKey d) ++ [(devKey d, t)] } }) ∧
    (∀ t, (Instr.telemetrySample t).wf = true → ∃ e, Gives (.telemetrySample t) s e ∧
      nth e.gov.next 0 0 = nth c.gov.next 0 0 + (if 0 < c.gov.next.length then 1 else 0) ∧
      e.gov.accP = 0 ∧ e.gov.accN = 0 ∧ e.gov.accMax = 0 ∧ e.gov.short = false ∧
      (0 < c.gov.accN → e.gov.lastMean = some (c.gov.accP / c.gov.accN) ∧ e.rget PWR PWR_NOW_POWER = c.gov.accP / c.gov.accN % 2 ^ PWR_NOW_POWER.w))

/-- A module with nothing running and nothing waiting falls asleep, and the wake pin wakes it; grid hint, wake pin and the end of the
stagger delay show in PWR_STATUS. A switch at its limit turns its port's optics off and latches the fault, with an event; a retry that is owed and
admitted is used up, and turns them on where it succeeds. An engine whose clock start has been ordered is awake; one that is idle past its
time, where that is not 0, adopts and loses its clock or its power. An idle core's caches are written back as it is gated. Paths and devices
that may rest go to power-down and self-refresh, and the end of a retraining takes the device back to service. -/
def Obligations.PowerCommandsAct : Prop :=
  ∀ (s : State), let c := s.toChip
    ((Instr.asleep).wf = true → c.hedge.standby = true → c.cmds.any (fun m => m.holds) = false → c.gov.bal = 0 → c.gov.waiting = [] →
      Gives .asleep s (({ c with gov := { c.gov with wakeFloor := false } } : Chip).rput PWR PWR_STATUS_ASLEEP 1)) ∧
    ((Instr.wakeNFall).wf = true → c.hedge.standby = true → Gives .wakeNFall s (wakeBy (c.rput PWR PWR_STATUS_WAKE 1))) ∧
    ((Instr.wakeNRise).wf = true → Gives .wakeNRise s (c.rput PWR PWR_STATUS_WAKE 0)) ∧
    ((Instr.staggerEnd).wf = true → Gives .staggerEnd s ((c.rput PWR PWR_STATUS_STAGGER 0).rput PWR PWR_STAGGER_NOW_DELAY_US 0)) ∧
    ((Instr.gridHintRise).wf = true → c.hedge.standby = true →
      let d : Chip := { c.rput PWR PWR_STATUS_GRID_HINT 1 with gov := { c.gov with wakeFloor := false } }
      Gives .gridHintRise s (d.rput PWR PWR_STATUS_FLOOR_HELD 0)) ∧
    ((Instr.gridHintFall).wf = true → Gives .gridHintFall s (c.rput PWR PWR_STATUS_GRID_HINT 0)) ∧
    (∀ p, (Instr.opticsSwitchLimit p).wf = true → opticsOn c p = true → let d := setOptics p false c
      Gives (.opticsSwitchLimit p) s (linkEvent p (((d.rput PWR PWR_OPTICS_STATUS_FAULT (setBits (d.rget PWR PWR_OPTICS_STATUS_FAULT) p 1 1)).rput (AIHP p)
        AIH_PORT_ERR_OPTICS_FAULT 1).rput PWR PWR_ERR_OPTICS_LATCHED 1))) ∧
    (∀ p ok, (Instr.opticsRetry p ok).wf = true → retryOwed p c = true → c.hedge.optics.contains p = true →
      let d : Chip := { c with hedge := { c.hedge with optics := c.hedge.optics.filter (fun x => x != p),
                                                        retries := setNth c.hedge.retries p (nth c.hedge.retries p 0 + 1) } }
      Gives (.opticsRetry p ok) s (if ok then opticsUp p d else d.rput PWR PWR_ERR_OPTICS_LATCHED 1)) ∧
    (∀ e, (Instr.engineClockStart e).wf = true → (c.engine e).starting = true →
      Gives (.engineClockStart e) s (c.setEngine e { c.engine e with awake := true, starting := false, adopted := true, holdsPrev := false })) ∧
    (let gone := fun (e : Engine) (keep : Bool) => (adopt keep e c).setEngine e { (adopt keep e c).engine e with awake := false }
     let rests := fun (e : Engine) => (c.engine e).awake = true ∧ idle e c = true
     (∀ h, (Instr.furrowIdleStop h).wf = true → rests ⟨1, h, 0⟩ → c.rget (FUR h) FUR_CTL_IDLE_STOP ≠ 0 →
        Gives (.furrowIdleStop h) s (gone ⟨1, h, 0⟩ true)) ∧
     (∀ h n, (Instr.harrowIdleGate h n).wf = true → rests ⟨2, h, n⟩ → c.rget (HAR h n) HAR_CTL_IDLE_GATE ≠ 0 →
        Gives (.harrowIdleGate h n) s (gone ⟨2, h, n⟩ false)) ∧
     (∀ h n, (Instr.drillIdleGate h n).wf = true → rests ⟨3, h, n⟩ → coreBlocks c h n = [] → (c.engine ⟨3, h, n⟩).paid = false →
        c.rget (DRL h n) DRL_CTL_IDLE_GATE ≠ 0 → Gives (.drillIdleGate h n) s (gone ⟨3, h, n⟩ false)) ∧
     (∀ h n, (Instr.gleanerIdleGate h n).wf = true → rests ⟨0x15, h, n⟩ → c.cmds = [] → c.rget (INF h n) INF_GLN_CTL_IDLE_GATE ≠ 0 →
        Gives (.gleanerIdleGate h n) s (gone ⟨0x15, h, n⟩ false))) ∧
    (∀ n, (Instr.hostCoreGateIdle n).wf = true → hostOn n c = true → c.rget (hstBase n) HST_CTL_GATE_IDLE ≠ 0 →
      Gives (.hostCoreGateIdle n) s (((c.host.copies.filter (fun x => x.hart == n)).foldl (fun c x =>
        if x.hold = .modified then setDir x.sec false 0 (dropCopy n x.sec (writeBack x c)) else dropCopy n x.sec c) c).rput (hstBase n) HST_STATUS_STATE 3)) ∧
    (∀ d, mayRest c (devKey d) = true →
      (∀ p, (Instr.memoryPowerDown d p).wf = true → devGet c (devKey d) INF_CTL_PD_IDLE OUT_CTL_PD_IDLE ≠ 0 → c.srv.pd.contains (devKey d * 64 + p) = false →
        Gives (.memoryPowerDown d p) s { c with srv := { c.srv with pd := c.srv.pd ++ [devKey d * 64 + p] } }) ∧
      ((Instr.memorySelfRefresh d).wf = true → devGet c (devKey d) INF_CTL_SR_IDLE OUT_CTL_SR_IDLE ≠ 0 → c.srv.migs = [] →
        Gives (.memorySelfRefresh d) s { c with srv := { c.srv with sr := c.srv.sr ++ [devKey d], pd := c.srv.pd.filter (fun p => p / 64 != devKey d) } })) ∧
    (∀ d, (Instr.retrainingEnd d).wf = true → let k := devKey d
      c.srv.training = some k →
        let x := setOffload (dkHalf k) 0 (devPut k INF_STATUS_STATE OUT_STATUS_STATE 2 c)
        let y := setTrain ⟨k, devGet x k INF_STATUS_TEMP OUT_STATUS_TEMP, false⟩ x
        Gives (.retrainingEnd d) s (tryRetrain { y with srv := { y.srv with training := none, sr := y.srv.sr.filter (fun z => z != k) } }))

/-! ### Power-up, module reset and the management controllers -/

/-- Standby brings up rail 1 and boots both controllers; losing it leaves what the non-volatile record keeps. PWR_EN starts the rails where
standby is good, the input between 40 and 59 V, no rail falling and a trip lockout over, and is refused otherwise; its fall, an input below
service, a rail that is not good and a rail fault bring the rails down, each step after the other, and each good step lets the next ramp. MOD_RESET_N
holds a module reset with the rails kept up. Start-up goes on from FUSES when the images load, from the tests when no failed part stops it, and
to READY when every device in service is trained and filled. A controller that has booted or restarted is up; one that resets boots again,
and with the lead the outputs are held; the follower that misses the heartbeats takes over; after 2 s the outputs take safe defaults. -/
def Obligations.StartUpCommandsAct : Prop :=
  ∀ (s : State), let c := s.toChip
    let h := c.hedge
    ((Instr.standbyApplied).wf = true → h.standby = false → c.rget START MGT_STRAP_FW_ALT = 0 →
      Gives .standbyApplied s (let d := c.rput MGT MGT_FW_MC_RUN h.fwRec
        stileCheck { d with hedge := { h with standby := true, step := 1, booting := [true, true], mcs := [false, false] },
                            fab := { c.fab with withdrawn := false } })) ∧
    (∀ mv, (Instr.standbyLost mv).wf = true → h.standby = true → h.step ≤ 1 → h.rising = false → Gives (.standbyLost mv) s (standbyGone c)) ∧
    (∀ mv, (Instr.standbyLost mv).wf = true → h.standby = true → h.step > 1 →
      Gives (.standbyLost mv) s (standbyGone (c.logEvent 0x0045 3 0x12 0xFF 0 mv 2))) ∧
    (∀ mv, (Instr.standbyGoodFor10Ms mv).wf = true → h.standby = true → h.good = false → h.pwrEn = false →
      Gives (.standbyGoodFor10Ms mv) s { c with hedge := { h with good := true } }) ∧
    (∀ mv, (Instr.pwrEnRise mv).wf = true → h.pwrEn = false → h.standby = true → c.log.hold4 = false →
      let d : Chip := { c with hedge := { h with pwrEn := true } }
      (h.good = true → 40000 ≤ mv → mv ≤ 59000 → h.lock = false ∨ cool c = true → h.falling = false → Gives (.pwrEnRise mv) s
        (setPhase 1 { d with hedge := { d.hedge with lock := false, rising := true, falling := false, started := c.time, step := 1 } })) ∧
      (h.good = false → Gives (.pwrEnRise mv) s (refuse 1 mv d)) ∧
      (h.good = true → mv < 40000 ∨ 59000 < mv → Gives (.pwrEnRise mv) s (refuse 2 mv d)) ∧
      (h.good = true → 40000 ≤ mv → mv ≤ 59000 → h.lock = true → cool d = false → Gives (.pwrEnRise mv) s (refuse 3 mv d)) ∧
      (h.good = true → 40000 ≤ mv → mv ≤ 59000 → h.lock = false → h.falling = true → Gives (.pwrEnRise mv) s (refuse 4 mv d))) ∧
    (h.standby = true → 1 < h.step → let log := fun (kind sev a b : Nat) => c.logEvent kind sev 0x12 0xFF 0 a b
      ((Instr.pwrEnFall).wf = true → Gives .pwrEnFall s (railsFall 1 { c with hedge := { h with pwrEn := false, told := false, trip := false } })) ∧
      (∀ mv, (Instr.mainInputFault mv).wf = true → h.falling = false → Gives (.mainInputFault mv) s (railsFall 1 (alertNow (log 0x0045 3 mv 1)))) ∧
      (∀ r mv, (Instr.sequenceFault r mv).wf = true → h.rising = true →
        Gives (.sequenceFault r mv) s (railsFall 1 ((log 0x0040 4 r mv).rput PWR PWR_ERR_RAIL_FAULT 1))) ∧
      (∀ r mv, (Instr.railFault r mv).wf = true → Gives (.railFault r mv) s (railsFall 1 ((log 0x0040 4 r mv).rput PWR PWR_ERR_RAIL_FAULT 1)))) ∧
    ((Instr.railStepGood).wf = true → h.rising = true → h.step < 8 → 
      Gives .railStepGood s (tryFuses { c with hedge := { h with step := h.step + 1, rising := decide (h.step + 1 < 9) } })) ∧
    ((Instr.railStepDown).wf = true → h.falling = true → h.floor < h.step →
      Gives .railStepDown s { c with hedge := { h with step := h.step - 1, falling := decide (h.floor < h.step - 1) } }) ∧
    ((Instr.modResetAssert).wf = true → h.resetHigh = true → h.standby = true → h.falling = false → h.trip = false → 1 < h.step →
      Gives .modResetAssert s (setPhase 1 (moduleReset { c with hedge := { h with resetHigh := false } }))) ∧
    (∀ v, (Instr.modResetRelease v).wf = true → h.resetHigh = false →
      let d : Chip := { c with hedge := { h with resetHigh := true } }
      let d := d.setReg (START + MGT_STRAP_PCX0_ROLE.off) (BitVec.ofNat 64 v)
      Gives (.modResetRelease v) s (tryFuses (stileCheck ((d.rput (PCX 0) PCX_STATUS_ROLE (d.rget START MGT_STRAP_PCX0_ROLE)).rput (PCX 1) PCX_STATUS_ROLE
        (d.rget START MGT_STRAP_PCX1_ROLE))))) ∧
    ((Instr.fusesDone).wf = true → phase c = 2 → stopped c = false →
      (slotOk c 1 (c.rget MGT (runFld 1)) = true → slotOk c 2 (c.rget MGT (runFld 2)) = true → Gives .fusesDone s (setPhase 3 c)) ∧
      (slotOk c 1 (c.rget MGT (runFld 1)) = true → slotOk c 2 0 = false → slotOk c 2 1 = false → c.rget MGT (runFld 2) < 2 →
        let d := c.logEvent 0x0001 3 0x11 0xFF 2 2 0
        Gives .fusesDone s ((d.rput START MGT_START_STOP_PHASE 2).rput START MGT_START_STOPPED 1))) ∧
    (∀ l, (Instr.logicBistDone l).wf = true → phase c = 3 → stopped c = false →
      Gives (.logicBistDone l) s (bistDone l 4 ([0, 1].foldl (fun c n => c.rput (BLK n) BLK_STATUS_ACTIVE (20 - balkLost c)) c))) ∧
    ((Instr.sramBistDone []).wf = true → phase c = 4 → stopped c = false → balkLost c = 0 →
      let d := setPhase 5 { c with sbd := [], sbdBad := [], sbdSlip := [], sbdPoison := [] }
      Gives (.sramBistDone []) s (allDevs.foldl (fun c k => if c.srv.devOut.contains k then c else devPut k INF_STATUS_STATE OUT_STATUS_STATE 1 c) d)) ∧
    (∀ d, let k := devKey d
      stopped c = false → c.srv.devOut.contains k = false →
      ((Instr.deviceTrained d).wf = true → phase c = 5 → h.trained.contains k = false →
        let t := ((h.memT.find? (fun x => x.1 == k)).map (fun x => x.2)).getD 0
        Gives (.deviceTrained d) s (devicesCheck (setTrain ⟨k, t, false⟩ { c with hedge := { h with trained := insertNat k h.trained } }))) ∧
      ((Instr.deviceFilled d).wf = true → phase c = 5 ∨ phase c = 6 → h.trained.contains k = true → h.filled.contains k = false →
        Gives (.deviceFilled d) s (devicesCheck (devPut k INF_STATUS_STATE OUT_STATUS_STATE 2 { c with hedge := { h with filled := insertNat k h.filled } })))) ∧
    (∀ n, n < 2 → h.standby = true → nth h.booting n false = true → mcUp c n = false →
      let up : Chip := { c with hedge := { h with mcs := setNth h.mcs n true, booting := setNth h.booting n false } }
      let lead : Chip := { up with hedge := { up.hedge with beat := c.time } }
      ((Instr.managementControllerBoot n).wf = true →
        Gives (.managementControllerBoot n) s (if c.rget PWR PWR_MGR_LEAD = n then tryFuses (logRefusals lead) else up)) ∧
      ((Instr.mcRestartDone n).wf = true → h.act = none → c.rget PWR PWR_MGR_LEAD ≠ n → Gives (.mcRestartDone n) s up) ∧
      ((Instr.mcBootFallback n).wf = true → let i := 1 - c.rget MGT MGT_FW_MC_RUN
        slotOk c 0 i = true → let d := (c.rput MGT MGT_FW_MC_RUN i).rcount MGT MGT_MC_RESETS 1
          Gives (.mcBootFallback n) s (({ d with hedge := { h with fwRec := i } } : Chip).logEvent 0x0050 3 0x11 n 0 n 2))) ∧
    (∀ n, n < 2 → h.standby = true → mcUp c n = true → c.rget PWR PWR_MGR_LEAD ≠ n →
      let d : Chip := { c with hedge := { h with mcs := setNth h.mcs n false, booting := setNth h.booting n true } }
      let down := fun (cause : Nat) => (d.rcount MGT MGT_MC_RESETS 1).logEvent 0x0050 3 0x11 n 0 n cause
      ((Instr.mcWatchdogExpiry n).wf = true → Gives (.mcWatchdogExpiry n) s (down 1)) ∧
      (∀ x, (Instr.managementControllerReset n x).wf = true → Gives (.managementControllerReset n x) s (down x))) ∧
    ((Instr.heartbeat).wf = true → leadUp c = true → Gives .heartbeat s { c with hedge := { h with beat := c.time } }) ∧
    (let l := c.rget PWR PWR_MGR_LEAD
     (Instr.takeover).wf = true → h.standby = true → mcUp c (1 - l) = true → mcUp c l = false ∨ h.beat + 500000 ≤ c.time →
       Gives .takeover s (tryFuses (logRefusals (leadTo (1 - l) c)))) ∧
    ((Instr.outputsSafeDefaults).wf = true → c.rget MGT MGT_STATUS_OUTPUTS = 1 → h.step ≠ 9 →
      Gives .outputsSafeDefaults s (stileCheck (c.rput MGT MGT_STATUS_OUTPUTS 2)))

/-! ### Errors and the host complex -/

/-- A patrol read of a slot in service is counted; a unit it cannot correct is handled as uncorrectable, one it corrects as corrected. A stream ends 1 µs
after its last write. A reported error sets the bit of its place: a semaphore word or Seedbed word is bad from then on, a lost unit of memory
is uncorrectable, a corrected error is counted and logged once an hour, a directory error takes the host complex down. On the Balk link a
repaired lane and a replayed frame are recorded, a poisoned one is counted, and a coherence error takes the complex down: its sectors owned
by cores are poisoned, its copies gone and its cores stopped. The sweep of the directory and the reset by the lead controller bring it up again, and a
spare that has been mapped in stands for its part. -/
def Obligations.ErrorCommandsAct : Prop :=
  ∀ (s : State), let c := s.toChip
    (∀ d slot unit, let k := devKey d
      let l : FrameLoc := ⟨dkRegion k, dkDev k, slot⟩
      let e := c.rcount (pathBlock (pathOf l (unit * 64))) (if dkInf k then INF_SCRUB_UNITS else OUT_SCRUB_UNITS) 1
      devState c k = 2 → devGet c k INF_CTL_SCRUB_HOURS OUT_CTL_SCRUB_HOURS ≠ 0 → c.srv.fallow.contains l = false →
      (∀ f, frameAt e l = some f → let a := f * 65536 + unit * 64
        ((Instr.patrolScrubRead d slot unit ⟨none, false⟩).wf = true → (e.touch a).memBad.contains (a / 64) = false →
          Gives (.patrolScrubRead d slot unit ⟨none, false⟩) s (e.touch a)) ∧
        (∀ p, (Instr.patrolScrubRead d slot unit ⟨some p, false⟩).wf = true → (e.touch a).memBad.contains (a / 64) = false →
          Gives (.patrolScrubRead d slot unit ⟨some p, false⟩) s (memCorrect l a p (e.touch a))) ∧
        (∀ x, (Instr.patrolScrubRead d slot unit ⟨x, true⟩).wf = true → Gives (.patrolScrubRead d slot unit ⟨x, true⟩) s (memUncorr a (e.touch a))))) ∧
    (∀ h n x, (Instr.streamTimeout h n x).wf = true → Gives (.streamTimeout h n x) s
      { c with host := { c.host with streams := c.host.streams.filter (fun y => !(y.1 == h * 16 + n && y.2.1 == x)) } }) ∧
    (8 ≤ c.hedge.step →
      (∀ h o, (Instr.errorReport (.sbdWord h o)).wf = true → Gives (.errorReport (.sbdWord h o)) s { c with sbdBad := insertNat (sbdKey h o / 4) c.sbdBad }) ∧
      (∀ a, (Instr.errorReport (.memLost a)).wf = true → Gives (.errorReport (.memLost a)) s { c with memBad := insertNat (a / 64) c.memBad }) ∧
      (∀ x, (Instr.errorReport (.semLost x)).wf = true → Gives (.errorReport (.semLost x)) s
        (c.setSem (x / 131072) (x % 131072) { c.sem (x / 131072) (x % 131072) with bad := true })) ∧
      (∀ h n, (Instr.errorReport (.dirCorrected h n)).wf = true → Gives (.errorReport (.dirCorrected h n)) s
        (corrEvent 0x09 h n 0 1 ((c.rput (SYC h n) SYC_ERR_DIR_CORR 1).rcount (SYC h n) SYC_CORRECTED 1))) ∧
      (∀ h n, (Instr.errorReport (.dirLost h n)).wf = true → Gives (.errorReport (.dirLost h n)) s (hostDown 2 0 (c.rput (SYC h n) SYC_ERR_DIR_UNCORR 1))) ∧
      (∀ h, ((Instr.balkLinkError h .lane).wf = true →
          Gives (.balkLinkError h .lane) s (corrEvent 0x0E h 0 0 1 (c.rput (BLK h) BLK_ERR_LANE_REPAIRED 1))) ∧
        ((Instr.balkLinkError h .poison).wf = true → Gives (.balkLinkError h .poison) s (c.rcount (BLK h) BLK_POISON 1)) ∧
        ((Instr.balkLinkError h .coherence).wf = true →
          Gives (.balkLinkError h .coherence) s (hostDown 3 0 (c.rput (BLK h) BLK_ERR_COH_UNCORR 1))))) ∧
    (∀ n, (Instr.coherenceTimeout n).wf = true → hartOut c n = false → c.rget CPLX HST_CPLX_STATUS_STATE = 1 →
      ∃ e, Gives (.coherenceTimeout n) s e ∧ e.rget CPLX HST_CPLX_STATUS_STATE = 2 ∧ e.rget CPLX HST_CPLX_STATUS_CAUSE = 1 ∧
        e.host.copies = [] ∧ e.host.resv = [] ∧ (∀ d ∈ c.host.dir, d.owned = true → e.poison.contains d.sec = true)) ∧
    ((Instr.directorySweepEnd).wf = true → 2 ≤ c.rget CPLX HST_CPLX_STATUS_STATE →
      (leadUp c = true → Gives .directorySweepEnd s (replaceHosts (allHarts 0
        (({ c with host := { c.host with dir := [], resetting := true } } : Chip).rput CPLX HST_CPLX_STATUS_STATE 0)))) ∧
      (leadUp c = false → Gives .directorySweepEnd s (({ c with host := { c.host with dir := [] } } : Chip).rput CPLX HST_CPLX_STATUS_STATE 3))) ∧
    ((Instr.hostComplexResetEnd).wf = true → c.host.resetting = true →
      Gives .hostComplexResetEnd s (endWaits .hostReset (hostsStart { c with host := { c.host with resetting := false } }))) ∧
    (∀ p, (Instr.spareInService p).wf = true → c.hedge.repl.contains p = true → p.kind ≠ .hostCore → let d := spareIn p true c
      Gives (.spareInService p) s { d with hedge := { d.hedge with repl := d.hedge.repl.filter (fun x => decide (x ≠ p)) } })

/-- A host core's store to a sector that it has no copy of leaves it the only one that holds the sector, modified, with the bytes stored; its load
answers the bytes of the sector, or an access fault where the sector is poisoned; a load-reserved holds the reservation, and a
store-conditional without one fails and changes no copy. A place that is not backed is an access fault. A Seedbed window takes an aligned
store, and a load answers its bytes; beyond the Seedbed, misaligned or on a poisoned unit it faults, with HOST_FAULT set. -/
def Obligations.HostMemoryRequestsAct : Prop :=
  ∀ (s : State), let c := s.toChip
    (∀ r, (Instr.hostCoreMemoryRequest r).wf = true → hostOn r.hart c = true →
      let d := hartRuns r.hart c
      let sec := r.addr / 64
      (backed r.addr r.size = false → Gives (.hostCoreMemoryRequest r) s (d.emit (.hostReply r.hart r.addr 1 []))) ∧
      (backed r.addr r.size = true → (∀ x ∈ c.host.copies, x.sec = sec → x.hart ≠ r.hart ∧ ∃ y ∈ c.host.dir, y.sec = sec) →
        (r.kind = .store → ∃ e x, Gives (.hostCoreMemoryRequest r) s e ∧ copyOf e r.hart sec = some x ∧ x.hold = .modified ∧
          sliceBytes x.data (r.addr % 64) r.size = sliceBytes r.data 0 r.size ∧ ∀ y ∈ e.host.copies, y.sec = sec → y = x) ∧
        (r.kind = .load → ∃ e x, copyOf e r.hart sec = some x ∧
          (x.poison = false → Gives (.hostCoreMemoryRequest r) s (e.emit (.hostReply r.hart r.addr 0 (sliceBytes x.data (r.addr % 64) r.size)))) ∧
          (x.poison = true → Gives (.hostCoreMemoryRequest r) s (hostPoison r e))) ∧
        (r.kind = .lr → ∃ e, Gives (.hostCoreMemoryRequest r) s e ∧ e.host.resv.contains (r.hart, sec) = true) ∧
        (r.kind = .sc → c.host.resv.contains (r.hart, sec) = false → ∃ e, Gives (.hostCoreMemoryRequest r) s e ∧ e.host.copies = c.host.copies ∧
          e.outs = c.outs ++ [.hostReply r.hart r.addr 2 []]))) ∧
    (∀ n off size, c.up = true → hostOn n c = true → let d := hartRuns n c
      let h := off / 0x10000000 % 2
      let o := off % 0x10000000
      let at_ : Nat := 0x100000000000 + off
      (size ∈ [1, 2, 4, 8] → off % size = 0 → o < sbdSize → off < 0x20000000 →
        (∀ v, (Instr.seedbedWindowAccess n off size (some v)).wf = true →
          Gives (.seedbedWindowAccess n off size (some v)) s ((d.wrSbd h o (leBytes size v)).emit (.hostReply n at_ 0 []))) ∧
        ((Instr.seedbedWindowAccess n off size none).wf = true → d.firstBadWord h o size = none →
          (d.sbdPoison.contains (sbdKey h o / 64) = false →
            Gives (.seedbedWindowAccess n off size none) s (d.emit (.hostReply n at_ 0 (d.rdSbdBytes h o size)))) ∧
          (d.sbdPoison.contains (sbdKey h o / 64) = true →
            Gives (.seedbedWindowAccess n off size none) s ((d.rput (SBD h) SBD_ERR_HOST_FAULT 1).emit (.hostReply n at_ 1 []))))) ∧
      (∀ wr, (Instr.seedbedWindowAccess n off size wr).wf = true → o ≥ sbdSize ∨ off % size ≠ 0 →
        Gives (.seedbedWindowAccess n off size wr) s ((d.rput (SBD h) SBD_ERR_HOST_FAULT 1).emit (.hostReply n at_ 1 []))))

/-! ### Frames -/

/-- Commands that only change registers leave, in a module at rest, everything but the registers named unchanged: every other register, every
byte of frame space and of the Seedbeds, every queue, context and engine, and the commands that wait. -/
def Obligations.RegisterCommandsLeaveTheRest : Prop :=
  ∀ (s : State), Canonical s → s.toChip.quiet = true → let c := s.toChip
    let only := fun (i : Instr) (l : List Nat) => i.wf = true → ∃ t, exec i s = .next t ∧ t.pending = s.pending ∧ OnlyRegs l c t.toChip ∧ SameMemory c t.toChip
    only .wakeNRise [PWR + PWR_STATUS_WAKE.off] ∧ only .gridHintFall [PWR + PWR_STATUS_GRID_HINT.off] ∧
    only .staggerEnd [PWR + PWR_STATUS_STAGGER.off, PWR + PWR_STAGGER_NOW_DELAY_US.off] ∧
    only .timeUnsureTimeout [AIH + AIH_TIME_CTL_UNSURE.off, AIH + AIH_TIME_BOUND_NS.off] ∧
    only .bypassReq [AIH + AIH_STILE_REQ_PIN.off] ∧ only .bypassReqRelease [AIH + AIH_STILE_REQ_PIN.off] ∧
    (∀ p, only (.pcxErrorMessage p) [PCX p + PCX_ERR_AER_MSG.off]) ∧
    (∀ p v, c.up = true → only (.modFrConsumed p v) [(MOD + MOD_FR_CONSUMED_CONSUMED.off)]) ∧
    (∀ p v, c.up = true → topoOk c = false → only (.modCfgCommit p v) [(MOD + MOD_CFG_STATUS_REFUSED.off)]) ∧
    (∀ p id, c.up = true → c.pendingFaults = [] →
      only (.faultRetry p id) [(MOD + MOD_XLT_ERR_RESP_UNKNOWN.off)] ∧ only (.faultDecline p id) [(MOD + MOD_XLT_ERR_RESP_UNKNOWN.off)]) ∧
    (∀ h, c.hedge.step ≥ 8 → only (.balkLinkError h .poison) [BLK h + BLK_POISON.off])
end

