-- ==== Sys2Proof/Laws/Maps.lean ====
section
/-! SUPPORT. The laws of sparse maps: reading after writing, and the canonical form. -/

namespace Sys2Proof.Machine

variable {β : Type} (d : Nat → β)

/-- Reading past removed entries of another key. -/
theorem kget_kerase_ne (m : List (Nat × β)) {j k : Nat} (h : j ≠ k) : kget d (kerase m k) j = kget d m j := by
  induction m with
  | nil => rfl
  | cons e m ih =>
    obtain ⟨a, b⟩ := e
    by_cases ha : a = k
    · subst ha
      simp only [kerase, List.filter_cons, kget] at ih ⊢
      simp [Ne.symm h, ih]
    · simp only [kerase, List.filter_cons] at ih ⊢
      simp [ha, kget, ih]

/-- A removed key reads as the default. -/
theorem kget_kerase_self (m : List (Nat × β)) (k : Nat) : kget d (kerase m k) k = d k := by
  induction m with
  | nil => rfl
  | cons e m ih =>
    obtain ⟨a, b⟩ := e
    by_cases ha : a = k
    · subst ha; simpa [kerase, List.filter_cons] using ih
    · simp only [kerase, List.filter_cons] at ih ⊢
      simp [ha, kget, ih]

/-- An inserted key reads as its value. -/
theorem kget_kinsert_self (m : List (Nat × β)) (k : Nat) (b : β) : kget d (kinsert k b m) k = b := by
  induction m with
  | nil => simp [kinsert, kget]
  | cons e m ih =>
    obtain ⟨a, x⟩ := e
    simp only [kinsert]
    split
    · simp [kget]
    · split
      · simp [kget]
      · simp [kget, *]

/-- Another key reads as before an insertion. -/
theorem kget_kinsert_ne (m : List (Nat × β)) {j k : Nat} (b : β) (h : j ≠ k) : kget d (kinsert k b m) j = kget d m j := by
  induction m with
  | nil => simp [kinsert, kget, Ne.symm h]
  | cons e m ih =>
    obtain ⟨a, x⟩ := e
    simp only [kinsert]
    split
    · simp [kget, Ne.symm h]
    · split
      · rename_i hk; subst hk; simp [kget, Ne.symm h]
      · simp [kget, ih]

variable [DecidableEq β]

/-- A written key reads as what was written. -/
theorem kget_kset_self (m : List (Nat × β)) (k : Nat) (b : β) : kget d (kset d m k b) k = b := by
  unfold kset
  split
  · rename_i h; rw [kget_kerase_self, h]
  · exact kget_kinsert_self d m k b

/-- Another key reads as before a write. -/
theorem kget_kset_ne (m : List (Nat × β)) {j k : Nat} (b : β) (h : j ≠ k) : kget d (kset d m k b) j = kget d m j := by
  unfold kset
  split
  · exact kget_kerase_ne d m h
  · exact kget_kinsert_ne d m b h

/-- What a map reads as after a write. -/
theorem kget_kset (m : List (Nat × β)) (j k : Nat) (b : β) : kget d (kset d m k b) j = if j = k then b else kget d m j := by
  split
  · rename_i h; subst h; exact kget_kset_self d m j b
  · rename_i h; exact kget_kset_ne d m b h

/-- The canonical list reads the same. -/
theorem kget_kcanon (m : List (Nat × β)) (k : Nat) : kget d (kcanon d m) k = kget d m k := by
  induction m with
  | nil => rfl
  | cons e m ih =>
    obtain ⟨a, b⟩ := e
    have : kcanon d ((a, b) :: m) = kset d (kcanon d m) a b := rfl
    rw [this, kget_kset, ih]
    simp only [kget]
    by_cases h : k = a
    · simp [h]
    · simp [h, Ne.symm h]

/-! ### The canonical form -/

/-- The canonical form, said of all entries at once. -/
theorem kwf_iff (m : List (Nat × β)) : kwf d m = true ↔ (∀ e ∈ m, e.2 ≠ d e.1) ∧ m.Pairwise (fun x y => x.1 < y.1) := by
  induction m with
  | nil => simp [kwf]
  | cons e m ih =>
    obtain ⟨a, b⟩ := e
    cases m with
    | nil => simp [kwf]
    | cons f m =>
      obtain ⟨a', b'⟩ := f
      simp only [kwf, Bool.and_eq_true, decide_eq_true_eq, ih]
      constructor
      · rintro ⟨⟨h1, h2⟩, h3, h4⟩
        refine ⟨?_, ?_⟩
        · intro e he
          rcases List.mem_cons.1 he with rfl | he
          · exact h1
          · exact h3 e he
        · refine List.Pairwise.cons ?_ h4
          intro y hy
          rcases List.mem_cons.1 hy with rfl | hy
          · exact h2
          · exact Nat.lt_trans h2 ((List.pairwise_cons.1 h4).1 y hy)
      · rintro ⟨h1, h2⟩
        have h2' := List.pairwise_cons.1 h2
        exact ⟨⟨h1 (a, b) (by simp), h2'.1 (a', b') (by simp)⟩, fun e he => h1 e (List.mem_cons_of_mem _ he), h2'.2⟩

theorem kwf_kerase (m : List (Nat × β)) (k : Nat) (h : kwf d m = true) : kwf d (kerase m k) = true := by
  rw [kwf_iff] at h ⊢
  exact ⟨fun e he => h.1 e (List.mem_filter.1 he).1, h.2.filter _⟩

omit [DecidableEq β] in
theorem mem_kinsert {m : List (Nat × β)} {k : Nat} {b : β} {e : Nat × β} (he : e ∈ kinsert k b m) : e = (k, b) ∨ e ∈ m := by
  induction m with
  | nil => simp [kinsert] at he; exact .inl he
  | cons f m ih =>
    obtain ⟨a, x⟩ := f
    simp only [kinsert] at he
    split at he
    · rcases List.mem_cons.1 he with h | h
      · exact .inl h
      · exact .inr h
    · split at he
      · rcases List.mem_cons.1 he with h | h
        · exact .inl h
        · exact .inr (List.mem_cons_of_mem _ h)
      · rcases List.mem_cons.1 he with h | h
        · exact .inr (h ▸ List.mem_cons_self)
        · rcases ih h with h | h
          · exact .inl h
          · exact .inr (List.mem_cons_of_mem _ h)

theorem kwf_kinsert (m : List (Nat × β)) (k : Nat) (b : β) (hb : b ≠ d k) (h : kwf d m = true) : kwf d (kinsert k b m) = true := by
  rw [kwf_iff] at h ⊢
  refine ⟨?_, ?_⟩
  · intro e he
    rcases mem_kinsert he with rfl | he
    · exact hb
    · exact h.1 e he
  · have hp := h.2
    clear h
    induction m with
    | nil => simp [kinsert]
    | cons f m ih =>
      obtain ⟨a, x⟩ := f
      have hp' := List.pairwise_cons.1 hp
      simp only [kinsert]
      split
      · rename_i hk
        refine List.Pairwise.cons ?_ hp
        intro y hy
        rcases List.mem_cons.1 hy with rfl | hy
        · exact hk
        · exact Nat.lt_trans hk (hp'.1 y hy)
      · split
        · rename_i hk
          subst hk
          exact List.Pairwise.cons (fun y hy => hp'.1 y hy) hp'.2
        · rename_i h1 h2
          refine List.Pairwise.cons ?_ (ih hp'.2)
          intro y hy
          rcases mem_kinsert hy with rfl | hy
          · show a < k
            omega
          · exact hp'.1 y hy

/-- A write keeps the canonical form. -/
theorem kwf_kset (m : List (Nat × β)) (k : Nat) (b : β) (h : kwf d m = true) : kwf d (kset d m k b) = true := by
  unfold kset
  split
  · exact kwf_kerase d m k h
  · rename_i hb; exact kwf_kinsert d m k b hb h

/-- The canonical list is canonical. -/
theorem kwf_kcanon (m : List (Nat × β)) : kwf d (kcanon d m) = true := by
  induction m with
  | nil => rfl
  | cons e m ih => exact kwf_kset d _ e.1 e.2 ih

/-- A list in canonical form is its own canonical list. -/
theorem kcanon_of_wf (m : List (Nat × β)) (h : kwf d m = true) : kcanon d m = m := by
  induction m with
  | nil => rfl
  | cons e m ih =>
    obtain ⟨a, b⟩ := e
    have hh := (kwf_iff d _).1 h
    have hp := List.pairwise_cons.1 hh.2
    have hm : kwf d m = true := (kwf_iff d m).2 ⟨fun e he => hh.1 e (List.mem_cons_of_mem _ he), hp.2⟩
    have : kcanon d ((a, b) :: m) = kset d (kcanon d m) a b := rfl
    rw [this, ih hm]
    have hb : b ≠ d a := hh.1 (a, b) (by simp)
    simp only [kset, if_neg hb]
    cases m with
    | nil => rfl
    | cons f m =>
      have : a < f.1 := hp.1 f (by simp)
      simp [kinsert, this]

end Sys2Proof.Machine
end

