-- ==== Sys2Proof/Laws/Regs.lean ====
section
/-! SUPPORT. The laws of bit fields and of the register operations: a field reads back what was put, other fields of its register and other
registers are unchanged. -/

namespace Sys2Proof.Machine

open Sys2Proof

/-! ### Bit fields -/

theorem bits_lt (x lo w : Nat) : bits x lo w < 2 ^ w := Nat.mod_lt _ (Nat.two_pow_pos w)

/-- Bits of a number by its tests. -/
theorem testBit_bits (x lo w i : Nat) : (bits x lo w).testBit i = (decide (i < w) && x.testBit (i + lo)) := by
  simp [bits, Nat.testBit_mod_two_pow, Nat.testBit_div_two_pow]

/-- A number with a field replaced, by its tests. -/
theorem testBit_setBits (x lo w v i : Nat) :
    (setBits x lo w v).testBit i = if i < lo then x.testBit i else if i < lo + w then v.testBit (i - lo) else x.testBit i := by
  have h1 : x % 2 ^ lo < 2 ^ lo := Nat.mod_lt _ (Nat.two_pow_pos lo)
  have h2 : x % 2 ^ lo + 2 ^ lo * (v % 2 ^ w) < 2 ^ (lo + w) := by
    have : v % 2 ^ w < 2 ^ w := Nat.mod_lt _ (Nat.two_pow_pos w)
    have : 2 ^ lo * (v % 2 ^ w + 1) ≤ 2 ^ lo * 2 ^ w := Nat.mul_le_mul_left _ this
    rw [Nat.pow_add]; rw [Nat.mul_add] at this; omega
  have e : setBits x lo w v = 2 ^ (lo + w) * (x / 2 ^ (lo + w)) + (2 ^ lo * (v % 2 ^ w) + x % 2 ^ lo) := by
    simp only [setBits]; omega
  rw [e, Nat.testBit_two_pow_mul_add _ (by omega)]
  by_cases a : i < lo + w
  · rw [if_pos a, Nat.testBit_two_pow_mul_add _ h1]
    by_cases b : i < lo
    · simp [b, Nat.testBit_mod_two_pow]
    · simp [b, a, Nat.testBit_mod_two_pow]; omega
  · rw [if_neg a, if_neg (by omega : ¬ i < lo), if_neg a, Nat.testBit_div_two_pow]
    congr 1; omega

/-- The field that was replaced. -/
theorem bits_setBits_self (x lo w v : Nat) : bits (setBits x lo w v) lo w = v % 2 ^ w := by
  apply Nat.eq_of_testBit_eq
  intro i
  rw [testBit_bits, testBit_setBits, Nat.testBit_mod_two_pow]
  by_cases h : i < w
  · simp [h, show ¬ i + lo < lo by omega, show i + lo < lo + w by omega]
  · simp [h]

/-- A field that does not meet the one replaced. -/
theorem bits_setBits_of_disjoint (x lo w v lo' w' : Nat) (h : lo + w ≤ lo' ∨ lo' + w' ≤ lo) :
    bits (setBits x lo w v) lo' w' = bits x lo' w' := by
  apply Nat.eq_of_testBit_eq
  intro i
  rw [testBit_bits, testBit_bits, testBit_setBits]
  by_cases hi : i < w'
  · simp only [hi, decide_true, Bool.true_and]
    rcases h with h | h
    · rw [if_neg (by omega), if_neg (by omega)]
    · rw [if_pos (by omega)]
  · simp [hi]

/-- A number with a field inside its width replaced stays in its width. -/
theorem setBits_lt (x lo w v n : Nat) (hx : x < 2 ^ n) (h : lo + w ≤ n) : setBits x lo w v < 2 ^ n := by
  apply Nat.lt_pow_two_of_testBit
  intro i hi
  rw [testBit_setBits, if_neg (by omega), if_neg (by omega)]
  exact Nat.testBit_lt_two_pow (Nat.lt_of_lt_of_le hx (Nat.pow_le_pow_right (by omega) hi))

/-! ### Registers -/

variable (c : Chip)

@[simp] theorem Chip.reg_setReg (o o' : Nat) (v : Word) : (c.setReg o v).reg o' = if o' = o then v else c.reg o' := by
  simp [Chip.setReg, Chip.reg, kget_kset]

/-- A register other than the one that holds the field. -/
theorem Chip.reg_rput_ne (b : Nat) (f : Fld) (v o : Nat) (h : o ≠ b + f.off) : (c.rput b f v).reg o = c.reg o := by
  simp [Chip.rput, h]

/-- The register that holds the field. -/
theorem Chip.reg_rput_self (b : Nat) (f : Fld) (v : Nat) :
    (c.rput b f v).reg (b + f.off) = BitVec.ofNat 64 (setBits (c.reg (b + f.off)).toNat f.lo f.w v) := by
  simp [Chip.rput]

/-- A field reads back what was put. -/
theorem Chip.rget_rput_self (b : Nat) (f : Fld) (v : Nat) (h : f.lo + f.w ≤ 64) : (c.rput b f v).rget b f = v % 2 ^ f.w := by
  have hlt := setBits_lt (c.reg (b + f.off)).toNat f.lo f.w v 64 (c.reg (b + f.off)).isLt h
  rw [Chip.rget, Chip.reg_rput_self, BitVec.toNat_ofNat, Nat.mod_eq_of_lt hlt, bits_setBits_self]

/-- A field that shares no bit with the one put reads as before. -/
theorem Chip.rget_rput_ne (b : Nat) (f : Fld) (v b' : Nat) (g : Fld) (hf : f.lo + f.w ≤ 64)
    (h : b' + g.off ≠ b + f.off ∨ f.lo + f.w ≤ g.lo ∨ g.lo + g.w ≤ f.lo) : (c.rput b f v).rget b' g = c.rget b' g := by
  by_cases e : b' + g.off = b + f.off
  · have hlt := setBits_lt (c.reg (b + f.off)).toNat f.lo f.w v 64 (c.reg (b + f.off)).isLt hf
    rw [Chip.rget, e, Chip.reg_rput_self, BitVec.toNat_ofNat, Nat.mod_eq_of_lt hlt, bits_setBits_of_disjoint _ _ _ _ _ _ (by omega)]
    simp [Chip.rget, e]
  · rw [Chip.rget, Chip.reg_rput_ne _ _ _ _ _ e, Chip.rget]

/-- A counter that is advanced. -/
theorem Chip.rget_rcount_self (b : Nat) (f : Fld) (n : Nat) (h : f.lo + f.w ≤ 64) :
    (c.rcount b f n).rget b f = (c.rget b f + n) % 2 ^ f.w := Chip.rget_rput_self c b f _ h

end Sys2Proof.Machine
end

