-- ==== Sys2Proof/Laws/State.lean ====
section
/-! SUPPORT. What each named update of the module leaves in each field of the state: one lemma per field per update. -/

namespace Sys2Proof.Machine

open Sys2Proof

/-! ### Chip.setReg -/

@[simp] theorem Chip.setReg_mem (c : Chip) (o : Nat) (v : Word) : (c.setReg o v).mem = c.mem := (rfl)
@[simp] theorem Chip.setReg_poison (c : Chip) (o : Nat) (v : Word) : (c.setReg o v).poison = c.poison := (rfl)
@[simp] theorem Chip.setReg_memBad (c : Chip) (o : Nat) (v : Word) : (c.setReg o v).memBad = c.memBad := (rfl)
@[simp] theorem Chip.setReg_retire (c : Chip) (o : Nat) (v : Word) : (c.setReg o v).retire = c.retire := (rfl)
@[simp] theorem Chip.setReg_sbd (c : Chip) (o : Nat) (v : Word) : (c.setReg o v).sbd = c.sbd := (rfl)
@[simp] theorem Chip.setReg_sbdBad (c : Chip) (o : Nat) (v : Word) : (c.setReg o v).sbdBad = c.sbdBad := (rfl)
@[simp] theorem Chip.setReg_sbdSlip (c : Chip) (o : Nat) (v : Word) : (c.setReg o v).sbdSlip = c.sbdSlip := (rfl)
@[simp] theorem Chip.setReg_sbdPoison (c : Chip) (o : Nat) (v : Word) : (c.setReg o v).sbdPoison = c.sbdPoison := (rfl)
@[simp] theorem Chip.setReg_landing (c : Chip) (o : Nat) (v : Word) : (c.setReg o v).landing = c.landing := (rfl)
@[simp] theorem Chip.setReg_plot (c : Chip) (o : Nat) (v : Word) : (c.setReg o v).plot = c.plot := (rfl)
@[simp] theorem Chip.setReg_time (c : Chip) (o : Nat) (v : Word) : (c.setReg o v).time = c.time := (rfl)
@[simp] theorem Chip.setReg_freeCtr (c : Chip) (o : Nat) (v : Word) : (c.setReg o v).freeCtr = c.freeCtr := (rfl)
@[simp] theorem Chip.setReg_ctxs (c : Chip) (o : Nat) (v : Word) : (c.setReg o v).ctxs = c.ctxs := (rfl)
@[simp] theorem Chip.setReg_queues (c : Chip) (o : Nat) (v : Word) : (c.setReg o v).queues = c.queues := (rfl)
@[simp] theorem Chip.setReg_cmds (c : Chip) (o : Nat) (v : Word) : (c.setReg o v).cmds = c.cmds := (rfl)
@[simp] theorem Chip.setReg_paths (c : Chip) (o : Nat) (v : Word) : (c.setReg o v).paths = c.paths := (rfl)
@[simp] theorem Chip.setReg_gord (c : Chip) (o : Nat) (v : Word) : (c.setReg o v).gord = c.gord := (rfl)
@[simp] theorem Chip.setReg_prevCfg (c : Chip) (o : Nat) (v : Word) : (c.setReg o v).prevCfg = c.prevCfg := (rfl)
@[simp] theorem Chip.setReg_xlt (c : Chip) (o : Nat) (v : Word) : (c.setReg o v).xlt = c.xlt := (rfl)
@[simp] theorem Chip.setReg_yoke (c : Chip) (o : Nat) (v : Word) : (c.setReg o v).yoke = c.yoke := (rfl)
@[simp] theorem Chip.setReg_drill (c : Chip) (o : Nat) (v : Word) : (c.setReg o v).drill = c.drill := (rfl)
@[simp] theorem Chip.setReg_host (c : Chip) (o : Nat) (v : Word) : (c.setReg o v).host = c.host := (rfl)
@[simp] theorem Chip.setReg_fab (c : Chip) (o : Nat) (v : Word) : (c.setReg o v).fab = c.fab := (rfl)
@[simp] theorem Chip.setReg_outs (c : Chip) (o : Nat) (v : Word) : (c.setReg o v).outs = c.outs := (rfl)
@[simp] theorem Chip.setReg_eng (c : Chip) (o : Nat) (v : Word) : (c.setReg o v).eng = c.eng := (rfl)
@[simp] theorem Chip.setReg_log (c : Chip) (o : Nat) (v : Word) : (c.setReg o v).log = c.log := (rfl)
@[simp] theorem Chip.setReg_irqs (c : Chip) (o : Nat) (v : Word) : (c.setReg o v).irqs = c.irqs := (rfl)
@[simp] theorem Chip.setReg_gov (c : Chip) (o : Nat) (v : Word) : (c.setReg o v).gov = c.gov := (rfl)
@[simp] theorem Chip.setReg_srv (c : Chip) (o : Nat) (v : Word) : (c.setReg o v).srv = c.srv := (rfl)
@[simp] theorem Chip.setReg_bank (c : Chip) (o : Nat) (v : Word) : (c.setReg o v).bank = c.bank := (rfl)
@[simp] theorem Chip.setReg_pcx (c : Chip) (o : Nat) (v : Word) : (c.setReg o v).pcx = c.pcx := (rfl)
@[simp] theorem Chip.setReg_hedge (c : Chip) (o : Nat) (v : Word) : (c.setReg o v).hedge = c.hedge := (rfl)
@[simp] theorem Chip.setReg_rr (c : Chip) (o : Nat) (v : Word) : (c.setReg o v).rr = c.rr := (rfl)

/-! ### Chip.rput -/

@[simp] theorem Chip.rput_mem (c : Chip) (b : Nat) (f : Fld) (v : Nat) : (c.rput b f v).mem = c.mem := (rfl)
@[simp] theorem Chip.rput_poison (c : Chip) (b : Nat) (f : Fld) (v : Nat) : (c.rput b f v).poison = c.poison := (rfl)
@[simp] theorem Chip.rput_memBad (c : Chip) (b : Nat) (f : Fld) (v : Nat) : (c.rput b f v).memBad = c.memBad := (rfl)
@[simp] theorem Chip.rput_retire (c : Chip) (b : Nat) (f : Fld) (v : Nat) : (c.rput b f v).retire = c.retire := (rfl)
@[simp] theorem Chip.rput_sbd (c : Chip) (b : Nat) (f : Fld) (v : Nat) : (c.rput b f v).sbd = c.sbd := (rfl)
@[simp] theorem Chip.rput_sbdBad (c : Chip) (b : Nat) (f : Fld) (v : Nat) : (c.rput b f v).sbdBad = c.sbdBad := (rfl)
@[simp] theorem Chip.rput_sbdSlip (c : Chip) (b : Nat) (f : Fld) (v : Nat) : (c.rput b f v).sbdSlip = c.sbdSlip := (rfl)
@[simp] theorem Chip.rput_sbdPoison (c : Chip) (b : Nat) (f : Fld) (v : Nat) : (c.rput b f v).sbdPoison = c.sbdPoison := (rfl)
@[simp] theorem Chip.rput_landing (c : Chip) (b : Nat) (f : Fld) (v : Nat) : (c.rput b f v).landing = c.landing := (rfl)
@[simp] theorem Chip.rput_plot (c : Chip) (b : Nat) (f : Fld) (v : Nat) : (c.rput b f v).plot = c.plot := (rfl)
@[simp] theorem Chip.rput_time (c : Chip) (b : Nat) (f : Fld) (v : Nat) : (c.rput b f v).time = c.time := (rfl)
@[simp] theorem Chip.rput_freeCtr (c : Chip) (b : Nat) (f : Fld) (v : Nat) : (c.rput b f v).freeCtr = c.freeCtr := (rfl)
@[simp] theorem Chip.rput_ctxs (c : Chip) (b : Nat) (f : Fld) (v : Nat) : (c.rput b f v).ctxs = c.ctxs := (rfl)
@[simp] theorem Chip.rput_queues (c : Chip) (b : Nat) (f : Fld) (v : Nat) : (c.rput b f v).queues = c.queues := (rfl)
@[simp] theorem Chip.rput_cmds (c : Chip) (b : Nat) (f : Fld) (v : Nat) : (c.rput b f v).cmds = c.cmds := (rfl)
@[simp] theorem Chip.rput_paths (c : Chip) (b : Nat) (f : Fld) (v : Nat) : (c.rput b f v).paths = c.paths := (rfl)
@[simp] theorem Chip.rput_gord (c : Chip) (b : Nat) (f : Fld) (v : Nat) : (c.rput b f v).gord = c.gord := (rfl)
@[simp] theorem Chip.rput_prevCfg (c : Chip) (b : Nat) (f : Fld) (v : Nat) : (c.rput b f v).prevCfg = c.prevCfg := (rfl)
@[simp] theorem Chip.rput_xlt (c : Chip) (b : Nat) (f : Fld) (v : Nat) : (c.rput b f v).xlt = c.xlt := (rfl)
@[simp] theorem Chip.rput_yoke (c : Chip) (b : Nat) (f : Fld) (v : Nat) : (c.rput b f v).yoke = c.yoke := (rfl)
@[simp] theorem Chip.rput_drill (c : Chip) (b : Nat) (f : Fld) (v : Nat) : (c.rput b f v).drill = c.drill := (rfl)
@[simp] theorem Chip.rput_host (c : Chip) (b : Nat) (f : Fld) (v : Nat) : (c.rput b f v).host = c.host := (rfl)
@[simp] theorem Chip.rput_fab (c : Chip) (b : Nat) (f : Fld) (v : Nat) : (c.rput b f v).fab = c.fab := (rfl)
@[simp] theorem Chip.rput_outs (c : Chip) (b : Nat) (f : Fld) (v : Nat) : (c.rput b f v).outs = c.outs := (rfl)
@[simp] theorem Chip.rput_eng (c : Chip) (b : Nat) (f : Fld) (v : Nat) : (c.rput b f v).eng = c.eng := (rfl)
@[simp] theorem Chip.rput_log (c : Chip) (b : Nat) (f : Fld) (v : Nat) : (c.rput b f v).log = c.log := (rfl)
@[simp] theorem Chip.rput_irqs (c : Chip) (b : Nat) (f : Fld) (v : Nat) : (c.rput b f v).irqs = c.irqs := (rfl)
@[simp] theorem Chip.rput_gov (c : Chip) (b : Nat) (f : Fld) (v : Nat) : (c.rput b f v).gov = c.gov := (rfl)
@[simp] theorem Chip.rput_srv (c : Chip) (b : Nat) (f : Fld) (v : Nat) : (c.rput b f v).srv = c.srv := (rfl)
@[simp] theorem Chip.rput_bank (c : Chip) (b : Nat) (f : Fld) (v : Nat) : (c.rput b f v).bank = c.bank := (rfl)
@[simp] theorem Chip.rput_pcx (c : Chip) (b : Nat) (f : Fld) (v : Nat) : (c.rput b f v).pcx = c.pcx := (rfl)
@[simp] theorem Chip.rput_hedge (c : Chip) (b : Nat) (f : Fld) (v : Nat) : (c.rput b f v).hedge = c.hedge := (rfl)
@[simp] theorem Chip.rput_rr (c : Chip) (b : Nat) (f : Fld) (v : Nat) : (c.rput b f v).rr = c.rr := (rfl)

/-! ### Chip.rcount -/

@[simp] theorem Chip.rcount_mem (c : Chip) (b : Nat) (f : Fld) (n : Nat) : (c.rcount b f n).mem = c.mem := (rfl)
@[simp] theorem Chip.rcount_poison (c : Chip) (b : Nat) (f : Fld) (n : Nat) : (c.rcount b f n).poison = c.poison := (rfl)
@[simp] theorem Chip.rcount_memBad (c : Chip) (b : Nat) (f : Fld) (n : Nat) : (c.rcount b f n).memBad = c.memBad := (rfl)
@[simp] theorem Chip.rcount_retire (c : Chip) (b : Nat) (f : Fld) (n : Nat) : (c.rcount b f n).retire = c.retire := (rfl)
@[simp] theorem Chip.rcount_sbd (c : Chip) (b : Nat) (f : Fld) (n : Nat) : (c.rcount b f n).sbd = c.sbd := (rfl)
@[simp] theorem Chip.rcount_sbdBad (c : Chip) (b : Nat) (f : Fld) (n : Nat) : (c.rcount b f n).sbdBad = c.sbdBad := (rfl)
@[simp] theorem Chip.rcount_sbdSlip (c : Chip) (b : Nat) (f : Fld) (n : Nat) : (c.rcount b f n).sbdSlip = c.sbdSlip := (rfl)
@[simp] theorem Chip.rcount_sbdPoison (c : Chip) (b : Nat) (f : Fld) (n : Nat) : (c.rcount b f n).sbdPoison = c.sbdPoison := (rfl)
@[simp] theorem Chip.rcount_landing (c : Chip) (b : Nat) (f : Fld) (n : Nat) : (c.rcount b f n).landing = c.landing := (rfl)
@[simp] theorem Chip.rcount_plot (c : Chip) (b : Nat) (f : Fld) (n : Nat) : (c.rcount b f n).plot = c.plot := (rfl)
@[simp] theorem Chip.rcount_time (c : Chip) (b : Nat) (f : Fld) (n : Nat) : (c.rcount b f n).time = c.time := (rfl)
@[simp] theorem Chip.rcount_freeCtr (c : Chip) (b : Nat) (f : Fld) (n : Nat) : (c.rcount b f n).freeCtr = c.freeCtr := (rfl)
@[simp] theorem Chip.rcount_ctxs (c : Chip) (b : Nat) (f : Fld) (n : Nat) : (c.rcount b f n).ctxs = c.ctxs := (rfl)
@[simp] theorem Chip.rcount_queues (c : Chip) (b : Nat) (f : Fld) (n : Nat) : (c.rcount b f n).queues = c.queues := (rfl)
@[simp] theorem Chip.rcount_cmds (c : Chip) (b : Nat) (f : Fld) (n : Nat) : (c.rcount b f n).cmds = c.cmds := (rfl)
@[simp] theorem Chip.rcount_paths (c : Chip) (b : Nat) (f : Fld) (n : Nat) : (c.rcount b f n).paths = c.paths := (rfl)
@[simp] theorem Chip.rcount_gord (c : Chip) (b : Nat) (f : Fld) (n : Nat) : (c.rcount b f n).gord = c.gord := (rfl)
@[simp] theorem Chip.rcount_prevCfg (c : Chip) (b : Nat) (f : Fld) (n : Nat) : (c.rcount b f n).prevCfg = c.prevCfg := (rfl)
@[simp] theorem Chip.rcount_xlt (c : Chip) (b : Nat) (f : Fld) (n : Nat) : (c.rcount b f n).xlt = c.xlt := (rfl)
@[simp] theorem Chip.rcount_yoke (c : Chip) (b : Nat) (f : Fld) (n : Nat) : (c.rcount b f n).yoke = c.yoke := (rfl)
@[simp] theorem Chip.rcount_drill (c : Chip) (b : Nat) (f : Fld) (n : Nat) : (c.rcount b f n).drill = c.drill := (rfl)
@[simp] theorem Chip.rcount_host (c : Chip) (b : Nat) (f : Fld) (n : Nat) : (c.rcount b f n).host = c.host := (rfl)
@[simp] theorem Chip.rcount_fab (c : Chip) (b : Nat) (f : Fld) (n : Nat) : (c.rcount b f n).fab = c.fab := (rfl)
@[simp] theorem Chip.rcount_outs (c : Chip) (b : Nat) (f : Fld) (n : Nat) : (c.rcount b f n).outs = c.outs := (rfl)
@[simp] theorem Chip.rcount_eng (c : Chip) (b : Nat) (f : Fld) (n : Nat) : (c.rcount b f n).eng = c.eng := (rfl)
@[simp] theorem Chip.rcount_log (c : Chip) (b : Nat) (f : Fld) (n : Nat) : (c.rcount b f n).log = c.log := (rfl)
@[simp] theorem Chip.rcount_irqs (c : Chip) (b : Nat) (f : Fld) (n : Nat) : (c.rcount b f n).irqs = c.irqs := (rfl)
@[simp] theorem Chip.rcount_gov (c : Chip) (b : Nat) (f : Fld) (n : Nat) : (c.rcount b f n).gov = c.gov := (rfl)
@[simp] theorem Chip.rcount_srv (c : Chip) (b : Nat) (f : Fld) (n : Nat) : (c.rcount b f n).srv = c.srv := (rfl)
@[simp] theorem Chip.rcount_bank (c : Chip) (b : Nat) (f : Fld) (n : Nat) : (c.rcount b f n).bank = c.bank := (rfl)
@[simp] theorem Chip.rcount_pcx (c : Chip) (b : Nat) (f : Fld) (n : Nat) : (c.rcount b f n).pcx = c.pcx := (rfl)
@[simp] theorem Chip.rcount_hedge (c : Chip) (b : Nat) (f : Fld) (n : Nat) : (c.rcount b f n).hedge = c.hedge := (rfl)
@[simp] theorem Chip.rcount_rr (c : Chip) (b : Nat) (f : Fld) (n : Nat) : (c.rcount b f n).rr = c.rr := (rfl)

/-! ### Chip.rsat -/

@[simp] theorem Chip.rsat_mem (c : Chip) (b : Nat) (f : Fld) (n : Nat) : (c.rsat b f n).mem = c.mem := (rfl)
@[simp] theorem Chip.rsat_poison (c : Chip) (b : Nat) (f : Fld) (n : Nat) : (c.rsat b f n).poison = c.poison := (rfl)
@[simp] theorem Chip.rsat_memBad (c : Chip) (b : Nat) (f : Fld) (n : Nat) : (c.rsat b f n).memBad = c.memBad := (rfl)
@[simp] theorem Chip.rsat_retire (c : Chip) (b : Nat) (f : Fld) (n : Nat) : (c.rsat b f n).retire = c.retire := (rfl)
@[simp] theorem Chip.rsat_sbd (c : Chip) (b : Nat) (f : Fld) (n : Nat) : (c.rsat b f n).sbd = c.sbd := (rfl)
@[simp] theorem Chip.rsat_sbdBad (c : Chip) (b : Nat) (f : Fld) (n : Nat) : (c.rsat b f n).sbdBad = c.sbdBad := (rfl)
@[simp] theorem Chip.rsat_sbdSlip (c : Chip) (b : Nat) (f : Fld) (n : Nat) : (c.rsat b f n).sbdSlip = c.sbdSlip := (rfl)
@[simp] theorem Chip.rsat_sbdPoison (c : Chip) (b : Nat) (f : Fld) (n : Nat) : (c.rsat b f n).sbdPoison = c.sbdPoison := (rfl)
@[simp] theorem Chip.rsat_landing (c : Chip) (b : Nat) (f : Fld) (n : Nat) : (c.rsat b f n).landing = c.landing := (rfl)
@[simp] theorem Chip.rsat_plot (c : Chip) (b : Nat) (f : Fld) (n : Nat) : (c.rsat b f n).plot = c.plot := (rfl)
@[simp] theorem Chip.rsat_time (c : Chip) (b : Nat) (f : Fld) (n : Nat) : (c.rsat b f n).time = c.time := (rfl)
@[simp] theorem Chip.rsat_freeCtr (c : Chip) (b : Nat) (f : Fld) (n : Nat) : (c.rsat b f n).freeCtr = c.freeCtr := (rfl)
@[simp] theorem Chip.rsat_ctxs (c : Chip) (b : Nat) (f : Fld) (n : Nat) : (c.rsat b f n).ctxs = c.ctxs := (rfl)
@[simp] theorem Chip.rsat_queues (c : Chip) (b : Nat) (f : Fld) (n : Nat) : (c.rsat b f n).queues = c.queues := (rfl)
@[simp] theorem Chip.rsat_cmds (c : Chip) (b : Nat) (f : Fld) (n : Nat) : (c.rsat b f n).cmds = c.cmds := (rfl)
@[simp] theorem Chip.rsat_paths (c : Chip) (b : Nat) (f : Fld) (n : Nat) : (c.rsat b f n).paths = c.paths := (rfl)
@[simp] theorem Chip.rsat_gord (c : Chip) (b : Nat) (f : Fld) (n : Nat) : (c.rsat b f n).gord = c.gord := (rfl)
@[simp] theorem Chip.rsat_prevCfg (c : Chip) (b : Nat) (f : Fld) (n : Nat) : (c.rsat b f n).prevCfg = c.prevCfg := (rfl)
@[simp] theorem Chip.rsat_xlt (c : Chip) (b : Nat) (f : Fld) (n : Nat) : (c.rsat b f n).xlt = c.xlt := (rfl)
@[simp] theorem Chip.rsat_yoke (c : Chip) (b : Nat) (f : Fld) (n : Nat) : (c.rsat b f n).yoke = c.yoke := (rfl)
@[simp] theorem Chip.rsat_drill (c : Chip) (b : Nat) (f : Fld) (n : Nat) : (c.rsat b f n).drill = c.drill := (rfl)
@[simp] theorem Chip.rsat_host (c : Chip) (b : Nat) (f : Fld) (n : Nat) : (c.rsat b f n).host = c.host := (rfl)
@[simp] theorem Chip.rsat_fab (c : Chip) (b : Nat) (f : Fld) (n : Nat) : (c.rsat b f n).fab = c.fab := (rfl)
@[simp] theorem Chip.rsat_outs (c : Chip) (b : Nat) (f : Fld) (n : Nat) : (c.rsat b f n).outs = c.outs := (rfl)
@[simp] theorem Chip.rsat_eng (c : Chip) (b : Nat) (f : Fld) (n : Nat) : (c.rsat b f n).eng = c.eng := (rfl)
@[simp] theorem Chip.rsat_log (c : Chip) (b : Nat) (f : Fld) (n : Nat) : (c.rsat b f n).log = c.log := (rfl)
@[simp] theorem Chip.rsat_irqs (c : Chip) (b : Nat) (f : Fld) (n : Nat) : (c.rsat b f n).irqs = c.irqs := (rfl)
@[simp] theorem Chip.rsat_gov (c : Chip) (b : Nat) (f : Fld) (n : Nat) : (c.rsat b f n).gov = c.gov := (rfl)
@[simp] theorem Chip.rsat_srv (c : Chip) (b : Nat) (f : Fld) (n : Nat) : (c.rsat b f n).srv = c.srv := (rfl)
@[simp] theorem Chip.rsat_bank (c : Chip) (b : Nat) (f : Fld) (n : Nat) : (c.rsat b f n).bank = c.bank := (rfl)
@[simp] theorem Chip.rsat_pcx (c : Chip) (b : Nat) (f : Fld) (n : Nat) : (c.rsat b f n).pcx = c.pcx := (rfl)
@[simp] theorem Chip.rsat_hedge (c : Chip) (b : Nat) (f : Fld) (n : Nat) : (c.rsat b f n).hedge = c.hedge := (rfl)
@[simp] theorem Chip.rsat_rr (c : Chip) (b : Nat) (f : Fld) (n : Nat) : (c.rsat b f n).rr = c.rr := (rfl)

/-! ### Chip.emit -/

@[simp] theorem Chip.emit_regs (c : Chip) (o : Out) : (c.emit o).regs = c.regs := (rfl)
@[simp] theorem Chip.emit_mem (c : Chip) (o : Out) : (c.emit o).mem = c.mem := (rfl)
@[simp] theorem Chip.emit_poison (c : Chip) (o : Out) : (c.emit o).poison = c.poison := (rfl)
@[simp] theorem Chip.emit_memBad (c : Chip) (o : Out) : (c.emit o).memBad = c.memBad := (rfl)
@[simp] theorem Chip.emit_retire (c : Chip) (o : Out) : (c.emit o).retire = c.retire := (rfl)
@[simp] theorem Chip.emit_sbd (c : Chip) (o : Out) : (c.emit o).sbd = c.sbd := (rfl)
@[simp] theorem Chip.emit_sbdBad (c : Chip) (o : Out) : (c.emit o).sbdBad = c.sbdBad := (rfl)
@[simp] theorem Chip.emit_sbdSlip (c : Chip) (o : Out) : (c.emit o).sbdSlip = c.sbdSlip := (rfl)
@[simp] theorem Chip.emit_sbdPoison (c : Chip) (o : Out) : (c.emit o).sbdPoison = c.sbdPoison := (rfl)
@[simp] theorem Chip.emit_landing (c : Chip) (o : Out) : (c.emit o).landing = c.landing := (rfl)
@[simp] theorem Chip.emit_plot (c : Chip) (o : Out) : (c.emit o).plot = c.plot := (rfl)
@[simp] theorem Chip.emit_time (c : Chip) (o : Out) : (c.emit o).time = c.time := (rfl)
@[simp] theorem Chip.emit_freeCtr (c : Chip) (o : Out) : (c.emit o).freeCtr = c.freeCtr := (rfl)
@[simp] theorem Chip.emit_ctxs (c : Chip) (o : Out) : (c.emit o).ctxs = c.ctxs := (rfl)
@[simp] theorem Chip.emit_queues (c : Chip) (o : Out) : (c.emit o).queues = c.queues := (rfl)
@[simp] theorem Chip.emit_cmds (c : Chip) (o : Out) : (c.emit o).cmds = c.cmds := (rfl)
@[simp] theorem Chip.emit_paths (c : Chip) (o : Out) : (c.emit o).paths = c.paths := (rfl)
@[simp] theorem Chip.emit_gord (c : Chip) (o : Out) : (c.emit o).gord = c.gord := (rfl)
@[simp] theorem Chip.emit_prevCfg (c : Chip) (o : Out) : (c.emit o).prevCfg = c.prevCfg := (rfl)
@[simp] theorem Chip.emit_xlt (c : Chip) (o : Out) : (c.emit o).xlt = c.xlt := (rfl)
@[simp] theorem Chip.emit_yoke (c : Chip) (o : Out) : (c.emit o).yoke = c.yoke := (rfl)
@[simp] theorem Chip.emit_drill (c : Chip) (o : Out) : (c.emit o).drill = c.drill := (rfl)
@[simp] theorem Chip.emit_host (c : Chip) (o : Out) : (c.emit o).host = c.host := (rfl)
@[simp] theorem Chip.emit_fab (c : Chip) (o : Out) : (c.emit o).fab = c.fab := (rfl)
@[simp] theorem Chip.emit_eng (c : Chip) (o : Out) : (c.emit o).eng = c.eng := (rfl)
@[simp] theorem Chip.emit_log (c : Chip) (o : Out) : (c.emit o).log = c.log := (rfl)
@[simp] theorem Chip.emit_irqs (c : Chip) (o : Out) : (c.emit o).irqs = c.irqs := (rfl)
@[simp] theorem Chip.emit_gov (c : Chip) (o : Out) : (c.emit o).gov = c.gov := (rfl)
@[simp] theorem Chip.emit_srv (c : Chip) (o : Out) : (c.emit o).srv = c.srv := (rfl)
@[simp] theorem Chip.emit_bank (c : Chip) (o : Out) : (c.emit o).bank = c.bank := (rfl)
@[simp] theorem Chip.emit_pcx (c : Chip) (o : Out) : (c.emit o).pcx = c.pcx := (rfl)
@[simp] theorem Chip.emit_hedge (c : Chip) (o : Out) : (c.emit o).hedge = c.hedge := (rfl)
@[simp] theorem Chip.emit_rr (c : Chip) (o : Out) : (c.emit o).rr = c.rr := (rfl)

/-! ### Chip.setPcx -/

@[simp] theorem Chip.setPcx_regs (c : Chip) (p : Nat) (x : PcxSt) : (c.setPcx p x).regs = c.regs := (rfl)
@[simp] theorem Chip.setPcx_mem (c : Chip) (p : Nat) (x : PcxSt) : (c.setPcx p x).mem = c.mem := (rfl)
@[simp] theorem Chip.setPcx_poison (c : Chip) (p : Nat) (x : PcxSt) : (c.setPcx p x).poison = c.poison := (rfl)
@[simp] theorem Chip.setPcx_memBad (c : Chip) (p : Nat) (x : PcxSt) : (c.setPcx p x).memBad = c.memBad := (rfl)
@[simp] theorem Chip.setPcx_retire (c : Chip) (p : Nat) (x : PcxSt) : (c.setPcx p x).retire = c.retire := (rfl)
@[simp] theorem Chip.setPcx_sbd (c : Chip) (p : Nat) (x : PcxSt) : (c.setPcx p x).sbd = c.sbd := (rfl)
@[simp] theorem Chip.setPcx_sbdBad (c : Chip) (p : Nat) (x : PcxSt) : (c.setPcx p x).sbdBad = c.sbdBad := (rfl)
@[simp] theorem Chip.setPcx_sbdSlip (c : Chip) (p : Nat) (x : PcxSt) : (c.setPcx p x).sbdSlip = c.sbdSlip := (rfl)
@[simp] theorem Chip.setPcx_sbdPoison (c : Chip) (p : Nat) (x : PcxSt) : (c.setPcx p x).sbdPoison = c.sbdPoison := (rfl)
@[simp] theorem Chip.setPcx_landing (c : Chip) (p : Nat) (x : PcxSt) : (c.setPcx p x).landing = c.landing := (rfl)
@[simp] theorem Chip.setPcx_plot (c : Chip) (p : Nat) (x : PcxSt) : (c.setPcx p x).plot = c.plot := (rfl)
@[simp] theorem Chip.setPcx_time (c : Chip) (p : Nat) (x : PcxSt) : (c.setPcx p x).time = c.time := (rfl)
@[simp] theorem Chip.setPcx_freeCtr (c : Chip) (p : Nat) (x : PcxSt) : (c.setPcx p x).freeCtr = c.freeCtr := (rfl)
@[simp] theorem Chip.setPcx_ctxs (c : Chip) (p : Nat) (x : PcxSt) : (c.setPcx p x).ctxs = c.ctxs := (rfl)
@[simp] theorem Chip.setPcx_queues (c : Chip) (p : Nat) (x : PcxSt) : (c.setPcx p x).queues = c.queues := (rfl)
@[simp] theorem Chip.setPcx_cmds (c : Chip) (p : Nat) (x : PcxSt) : (c.setPcx p x).cmds = c.cmds := (rfl)
@[simp] theorem Chip.setPcx_paths (c : Chip) (p : Nat) (x : PcxSt) : (c.setPcx p x).paths = c.paths := (rfl)
@[simp] theorem Chip.setPcx_gord (c : Chip) (p : Nat) (x : PcxSt) : (c.setPcx p x).gord = c.gord := (rfl)
@[simp] theorem Chip.setPcx_prevCfg (c : Chip) (p : Nat) (x : PcxSt) : (c.setPcx p x).prevCfg = c.prevCfg := (rfl)
@[simp] theorem Chip.setPcx_xlt (c : Chip) (p : Nat) (x : PcxSt) : (c.setPcx p x).xlt = c.xlt := (rfl)
@[simp] theorem Chip.setPcx_yoke (c : Chip) (p : Nat) (x : PcxSt) : (c.setPcx p x).yoke = c.yoke := (rfl)
@[simp] theorem Chip.setPcx_drill (c : Chip) (p : Nat) (x : PcxSt) : (c.setPcx p x).drill = c.drill := (rfl)
@[simp] theorem Chip.setPcx_host (c : Chip) (p : Nat) (x : PcxSt) : (c.setPcx p x).host = c.host := (rfl)
@[simp] theorem Chip.setPcx_fab (c : Chip) (p : Nat) (x : PcxSt) : (c.setPcx p x).fab = c.fab := (rfl)
@[simp] theorem Chip.setPcx_outs (c : Chip) (p : Nat) (x : PcxSt) : (c.setPcx p x).outs = c.outs := (rfl)
@[simp] theorem Chip.setPcx_eng (c : Chip) (p : Nat) (x : PcxSt) : (c.setPcx p x).eng = c.eng := (rfl)
@[simp] theorem Chip.setPcx_log (c : Chip) (p : Nat) (x : PcxSt) : (c.setPcx p x).log = c.log := (rfl)
@[simp] theorem Chip.setPcx_irqs (c : Chip) (p : Nat) (x : PcxSt) : (c.setPcx p x).irqs = c.irqs := (rfl)
@[simp] theorem Chip.setPcx_gov (c : Chip) (p : Nat) (x : PcxSt) : (c.setPcx p x).gov = c.gov := (rfl)
@[simp] theorem Chip.setPcx_srv (c : Chip) (p : Nat) (x : PcxSt) : (c.setPcx p x).srv = c.srv := (rfl)
@[simp] theorem Chip.setPcx_bank (c : Chip) (p : Nat) (x : PcxSt) : (c.setPcx p x).bank = c.bank := (rfl)
@[simp] theorem Chip.setPcx_hedge (c : Chip) (p : Nat) (x : PcxSt) : (c.setPcx p x).hedge = c.hedge := (rfl)
@[simp] theorem Chip.setPcx_rr (c : Chip) (p : Nat) (x : PcxSt) : (c.setPcx p x).rr = c.rr := (rfl)

/-! ### Chip.setCtx -/

@[simp] theorem Chip.setCtx_regs (c : Chip) (n : Nat) (x : Ctx) : (c.setCtx n x).regs = c.regs := (rfl)
@[simp] theorem Chip.setCtx_mem (c : Chip) (n : Nat) (x : Ctx) : (c.setCtx n x).mem = c.mem := (rfl)
@[simp] theorem Chip.setCtx_poison (c : Chip) (n : Nat) (x : Ctx) : (c.setCtx n x).poison = c.poison := (rfl)
@[simp] theorem Chip.setCtx_memBad (c : Chip) (n : Nat) (x : Ctx) : (c.setCtx n x).memBad = c.memBad := (rfl)
@[simp] theorem Chip.setCtx_retire (c : Chip) (n : Nat) (x : Ctx) : (c.setCtx n x).retire = c.retire := (rfl)
@[simp] theorem Chip.setCtx_sbd (c : Chip) (n : Nat) (x : Ctx) : (c.setCtx n x).sbd = c.sbd := (rfl)
@[simp] theorem Chip.setCtx_sbdBad (c : Chip) (n : Nat) (x : Ctx) : (c.setCtx n x).sbdBad = c.sbdBad := (rfl)
@[simp] theorem Chip.setCtx_sbdSlip (c : Chip) (n : Nat) (x : Ctx) : (c.setCtx n x).sbdSlip = c.sbdSlip := (rfl)
@[simp] theorem Chip.setCtx_sbdPoison (c : Chip) (n : Nat) (x : Ctx) : (c.setCtx n x).sbdPoison = c.sbdPoison := (rfl)
@[simp] theorem Chip.setCtx_landing (c : Chip) (n : Nat) (x : Ctx) : (c.setCtx n x).landing = c.landing := (rfl)
@[simp] theorem Chip.setCtx_plot (c : Chip) (n : Nat) (x : Ctx) : (c.setCtx n x).plot = c.plot := (rfl)
@[simp] theorem Chip.setCtx_time (c : Chip) (n : Nat) (x : Ctx) : (c.setCtx n x).time = c.time := (rfl)
@[simp] theorem Chip.setCtx_freeCtr (c : Chip) (n : Nat) (x : Ctx) : (c.setCtx n x).freeCtr = c.freeCtr := (rfl)
@[simp] theorem Chip.setCtx_queues (c : Chip) (n : Nat) (x : Ctx) : (c.setCtx n x).queues = c.queues := (rfl)
@[simp] theorem Chip.setCtx_cmds (c : Chip) (n : Nat) (x : Ctx) : (c.setCtx n x).cmds = c.cmds := (rfl)
@[simp] theorem Chip.setCtx_paths (c : Chip) (n : Nat) (x : Ctx) : (c.setCtx n x).paths = c.paths := (rfl)
@[simp] theorem Chip.setCtx_gord (c : Chip) (n : Nat) (x : Ctx) : (c.setCtx n x).gord = c.gord := (rfl)
@[simp] theorem Chip.setCtx_prevCfg (c : Chip) (n : Nat) (x : Ctx) : (c.setCtx n x).prevCfg = c.prevCfg := (rfl)
@[simp] theorem Chip.setCtx_xlt (c : Chip) (n : Nat) (x : Ctx) : (c.setCtx n x).xlt = c.xlt := (rfl)
@[simp] theorem Chip.setCtx_yoke (c : Chip) (n : Nat) (x : Ctx) : (c.setCtx n x).yoke = c.yoke := (rfl)
@[simp] theorem Chip.setCtx_drill (c : Chip) (n : Nat) (x : Ctx) : (c.setCtx n x).drill = c.drill := (rfl)
@[simp] theorem Chip.setCtx_host (c : Chip) (n : Nat) (x : Ctx) : (c.setCtx n x).host = c.host := (rfl)
@[simp] theorem Chip.setCtx_fab (c : Chip) (n : Nat) (x : Ctx) : (c.setCtx n x).fab = c.fab := (rfl)
@[simp] theorem Chip.setCtx_outs (c : Chip) (n : Nat) (x : Ctx) : (c.setCtx n x).outs = c.outs := (rfl)
@[simp] theorem Chip.setCtx_eng (c : Chip) (n : Nat) (x : Ctx) : (c.setCtx n x).eng = c.eng := (rfl)
@[simp] theorem Chip.setCtx_log (c : Chip) (n : Nat) (x : Ctx) : (c.setCtx n x).log = c.log := (rfl)
@[simp] theorem Chip.setCtx_irqs (c : Chip) (n : Nat) (x : Ctx) : (c.setCtx n x).irqs = c.irqs := (rfl)
@[simp] theorem Chip.setCtx_gov (c : Chip) (n : Nat) (x : Ctx) : (c.setCtx n x).gov = c.gov := (rfl)
@[simp] theorem Chip.setCtx_srv (c : Chip) (n : Nat) (x : Ctx) : (c.setCtx n x).srv = c.srv := (rfl)
@[simp] theorem Chip.setCtx_bank (c : Chip) (n : Nat) (x : Ctx) : (c.setCtx n x).bank = c.bank := (rfl)
@[simp] theorem Chip.setCtx_pcx (c : Chip) (n : Nat) (x : Ctx) : (c.setCtx n x).pcx = c.pcx := (rfl)
@[simp] theorem Chip.setCtx_hedge (c : Chip) (n : Nat) (x : Ctx) : (c.setCtx n x).hedge = c.hedge := (rfl)
@[simp] theorem Chip.setCtx_rr (c : Chip) (n : Nat) (x : Ctx) : (c.setCtx n x).rr = c.rr := (rfl)

/-! ### Chip.setQueue -/

@[simp] theorem Chip.setQueue_regs (c : Chip) (n : Nat) (x : Queue) : (c.setQueue n x).regs = c.regs := (rfl)
@[simp] theorem Chip.setQueue_mem (c : Chip) (n : Nat) (x : Queue) : (c.setQueue n x).mem = c.mem := (rfl)
@[simp] theorem Chip.setQueue_poison (c : Chip) (n : Nat) (x : Queue) : (c.setQueue n x).poison = c.poison := (rfl)
@[simp] theorem Chip.setQueue_memBad (c : Chip) (n : Nat) (x : Queue) : (c.setQueue n x).memBad = c.memBad := (rfl)
@[simp] theorem Chip.setQueue_retire (c : Chip) (n : Nat) (x : Queue) : (c.setQueue n x).retire = c.retire := (rfl)
@[simp] theorem Chip.setQueue_sbd (c : Chip) (n : Nat) (x : Queue) : (c.setQueue n x).sbd = c.sbd := (rfl)
@[simp] theorem Chip.setQueue_sbdBad (c : Chip) (n : Nat) (x : Queue) : (c.setQueue n x).sbdBad = c.sbdBad := (rfl)
@[simp] theorem Chip.setQueue_sbdSlip (c : Chip) (n : Nat) (x : Queue) : (c.setQueue n x).sbdSlip = c.sbdSlip := (rfl)
@[simp] theorem Chip.setQueue_sbdPoison (c : Chip) (n : Nat) (x : Queue) : (c.setQueue n x).sbdPoison = c.sbdPoison := (rfl)
@[simp] theorem Chip.setQueue_landing (c : Chip) (n : Nat) (x : Queue) : (c.setQueue n x).landing = c.landing := (rfl)
@[simp] theorem Chip.setQueue_plot (c : Chip) (n : Nat) (x : Queue) : (c.setQueue n x).plot = c.plot := (rfl)
@[simp] theorem Chip.setQueue_time (c : Chip) (n : Nat) (x : Queue) : (c.setQueue n x).time = c.time := (rfl)
@[simp] theorem Chip.setQueue_freeCtr (c : Chip) (n : Nat) (x : Queue) : (c.setQueue n x).freeCtr = c.freeCtr := (rfl)
@[simp] theorem Chip.setQueue_ctxs (c : Chip) (n : Nat) (x : Queue) : (c.setQueue n x).ctxs = c.ctxs := (rfl)
@[simp] theorem Chip.setQueue_cmds (c : Chip) (n : Nat) (x : Queue) : (c.setQueue n x).cmds = c.cmds := (rfl)
@[simp] theorem Chip.setQueue_paths (c : Chip) (n : Nat) (x : Queue) : (c.setQueue n x).paths = c.paths := (rfl)
@[simp] theorem Chip.setQueue_gord (c : Chip) (n : Nat) (x : Queue) : (c.setQueue n x).gord = c.gord := (rfl)
@[simp] theorem Chip.setQueue_prevCfg (c : Chip) (n : Nat) (x : Queue) : (c.setQueue n x).prevCfg = c.prevCfg := (rfl)
@[simp] theorem Chip.setQueue_xlt (c : Chip) (n : Nat) (x : Queue) : (c.setQueue n x).xlt = c.xlt := (rfl)
@[simp] theorem Chip.setQueue_yoke (c : Chip) (n : Nat) (x : Queue) : (c.setQueue n x).yoke = c.yoke := (rfl)
@[simp] theorem Chip.setQueue_drill (c : Chip) (n : Nat) (x : Queue) : (c.setQueue n x).drill = c.drill := (rfl)
@[simp] theorem Chip.setQueue_host (c : Chip) (n : Nat) (x : Queue) : (c.setQueue n x).host = c.host := (rfl)
@[simp] theorem Chip.setQueue_fab (c : Chip) (n : Nat) (x : Queue) : (c.setQueue n x).fab = c.fab := (rfl)
@[simp] theorem Chip.setQueue_outs (c : Chip) (n : Nat) (x : Queue) : (c.setQueue n x).outs = c.outs := (rfl)
@[simp] theorem Chip.setQueue_eng (c : Chip) (n : Nat) (x : Queue) : (c.setQueue n x).eng = c.eng := (rfl)
@[simp] theorem Chip.setQueue_log (c : Chip) (n : Nat) (x : Queue) : (c.setQueue n x).log = c.log := (rfl)
@[simp] theorem Chip.setQueue_irqs (c : Chip) (n : Nat) (x : Queue) : (c.setQueue n x).irqs = c.irqs := (rfl)
@[simp] theorem Chip.setQueue_gov (c : Chip) (n : Nat) (x : Queue) : (c.setQueue n x).gov = c.gov := (rfl)
@[simp] theorem Chip.setQueue_srv (c : Chip) (n : Nat) (x : Queue) : (c.setQueue n x).srv = c.srv := (rfl)
@[simp] theorem Chip.setQueue_bank (c : Chip) (n : Nat) (x : Queue) : (c.setQueue n x).bank = c.bank := (rfl)
@[simp] theorem Chip.setQueue_pcx (c : Chip) (n : Nat) (x : Queue) : (c.setQueue n x).pcx = c.pcx := (rfl)
@[simp] theorem Chip.setQueue_hedge (c : Chip) (n : Nat) (x : Queue) : (c.setQueue n x).hedge = c.hedge := (rfl)
@[simp] theorem Chip.setQueue_rr (c : Chip) (n : Nat) (x : Queue) : (c.setQueue n x).rr = c.rr := (rfl)

/-! ### Chip.putCmd -/

@[simp] theorem Chip.putCmd_regs (c : Chip) (m : Cmd) : (c.putCmd m).regs = c.regs := (rfl)
@[simp] theorem Chip.putCmd_mem (c : Chip) (m : Cmd) : (c.putCmd m).mem = c.mem := (rfl)
@[simp] theorem Chip.putCmd_poison (c : Chip) (m : Cmd) : (c.putCmd m).poison = c.poison := (rfl)
@[simp] theorem Chip.putCmd_memBad (c : Chip) (m : Cmd) : (c.putCmd m).memBad = c.memBad := (rfl)
@[simp] theorem Chip.putCmd_retire (c : Chip) (m : Cmd) : (c.putCmd m).retire = c.retire := (rfl)
@[simp] theorem Chip.putCmd_sbd (c : Chip) (m : Cmd) : (c.putCmd m).sbd = c.sbd := (rfl)
@[simp] theorem Chip.putCmd_sbdBad (c : Chip) (m : Cmd) : (c.putCmd m).sbdBad = c.sbdBad := (rfl)
@[simp] theorem Chip.putCmd_sbdSlip (c : Chip) (m : Cmd) : (c.putCmd m).sbdSlip = c.sbdSlip := (rfl)
@[simp] theorem Chip.putCmd_sbdPoison (c : Chip) (m : Cmd) : (c.putCmd m).sbdPoison = c.sbdPoison := (rfl)
@[simp] theorem Chip.putCmd_landing (c : Chip) (m : Cmd) : (c.putCmd m).landing = c.landing := (rfl)
@[simp] theorem Chip.putCmd_plot (c : Chip) (m : Cmd) : (c.putCmd m).plot = c.plot := (rfl)
@[simp] theorem Chip.putCmd_time (c : Chip) (m : Cmd) : (c.putCmd m).time = c.time := (rfl)
@[simp] theorem Chip.putCmd_freeCtr (c : Chip) (m : Cmd) : (c.putCmd m).freeCtr = c.freeCtr := (rfl)
@[simp] theorem Chip.putCmd_ctxs (c : Chip) (m : Cmd) : (c.putCmd m).ctxs = c.ctxs := (rfl)
@[simp] theorem Chip.putCmd_queues (c : Chip) (m : Cmd) : (c.putCmd m).queues = c.queues := (rfl)
@[simp] theorem Chip.putCmd_paths (c : Chip) (m : Cmd) : (c.putCmd m).paths = c.paths := (rfl)
@[simp] theorem Chip.putCmd_gord (c : Chip) (m : Cmd) : (c.putCmd m).gord = c.gord := (rfl)
@[simp] theorem Chip.putCmd_prevCfg (c : Chip) (m : Cmd) : (c.putCmd m).prevCfg = c.prevCfg := (rfl)
@[simp] theorem Chip.putCmd_xlt (c : Chip) (m : Cmd) : (c.putCmd m).xlt = c.xlt := (rfl)
@[simp] theorem Chip.putCmd_yoke (c : Chip) (m : Cmd) : (c.putCmd m).yoke = c.yoke := (rfl)
@[simp] theorem Chip.putCmd_drill (c : Chip) (m : Cmd) : (c.putCmd m).drill = c.drill := (rfl)
@[simp] theorem Chip.putCmd_host (c : Chip) (m : Cmd) : (c.putCmd m).host = c.host := (rfl)
@[simp] theorem Chip.putCmd_fab (c : Chip) (m : Cmd) : (c.putCmd m).fab = c.fab := (rfl)
@[simp] theorem Chip.putCmd_outs (c : Chip) (m : Cmd) : (c.putCmd m).outs = c.outs := (rfl)
@[simp] theorem Chip.putCmd_eng (c : Chip) (m : Cmd) : (c.putCmd m).eng = c.eng := (rfl)
@[simp] theorem Chip.putCmd_log (c : Chip) (m : Cmd) : (c.putCmd m).log = c.log := (rfl)
@[simp] theorem Chip.putCmd_irqs (c : Chip) (m : Cmd) : (c.putCmd m).irqs = c.irqs := (rfl)
@[simp] theorem Chip.putCmd_gov (c : Chip) (m : Cmd) : (c.putCmd m).gov = c.gov := (rfl)
@[simp] theorem Chip.putCmd_srv (c : Chip) (m : Cmd) : (c.putCmd m).srv = c.srv := (rfl)
@[simp] theorem Chip.putCmd_bank (c : Chip) (m : Cmd) : (c.putCmd m).bank = c.bank := (rfl)
@[simp] theorem Chip.putCmd_pcx (c : Chip) (m : Cmd) : (c.putCmd m).pcx = c.pcx := (rfl)
@[simp] theorem Chip.putCmd_hedge (c : Chip) (m : Cmd) : (c.putCmd m).hedge = c.hedge := (rfl)
@[simp] theorem Chip.putCmd_rr (c : Chip) (m : Cmd) : (c.putCmd m).rr = c.rr := (rfl)

/-! ### Chip.setPath -/

@[simp] theorem Chip.setPath_regs (c : Chip) (k : Carrier) (x : PathSt) : (c.setPath k x).regs = c.regs := (rfl)
@[simp] theorem Chip.setPath_mem (c : Chip) (k : Carrier) (x : PathSt) : (c.setPath k x).mem = c.mem := (rfl)
@[simp] theorem Chip.setPath_poison (c : Chip) (k : Carrier) (x : PathSt) : (c.setPath k x).poison = c.poison := (rfl)
@[simp] theorem Chip.setPath_memBad (c : Chip) (k : Carrier) (x : PathSt) : (c.setPath k x).memBad = c.memBad := (rfl)
@[simp] theorem Chip.setPath_retire (c : Chip) (k : Carrier) (x : PathSt) : (c.setPath k x).retire = c.retire := (rfl)
@[simp] theorem Chip.setPath_sbd (c : Chip) (k : Carrier) (x : PathSt) : (c.setPath k x).sbd = c.sbd := (rfl)
@[simp] theorem Chip.setPath_sbdBad (c : Chip) (k : Carrier) (x : PathSt) : (c.setPath k x).sbdBad = c.sbdBad := (rfl)
@[simp] theorem Chip.setPath_sbdSlip (c : Chip) (k : Carrier) (x : PathSt) : (c.setPath k x).sbdSlip = c.sbdSlip := (rfl)
@[simp] theorem Chip.setPath_sbdPoison (c : Chip) (k : Carrier) (x : PathSt) : (c.setPath k x).sbdPoison = c.sbdPoison := (rfl)
@[simp] theorem Chip.setPath_landing (c : Chip) (k : Carrier) (x : PathSt) : (c.setPath k x).landing = c.landing := (rfl)
@[simp] theorem Chip.setPath_plot (c : Chip) (k : Carrier) (x : PathSt) : (c.setPath k x).plot = c.plot := (rfl)
@[simp] theorem Chip.setPath_time (c : Chip) (k : Carrier) (x : PathSt) : (c.setPath k x).time = c.time := (rfl)
@[simp] theorem Chip.setPath_freeCtr (c : Chip) (k : Carrier) (x : PathSt) : (c.setPath k x).freeCtr = c.freeCtr := (rfl)
@[simp] theorem Chip.setPath_ctxs (c : Chip) (k : Carrier) (x : PathSt) : (c.setPath k x).ctxs = c.ctxs := (rfl)
@[simp] theorem Chip.setPath_queues (c : Chip) (k : Carrier) (x : PathSt) : (c.setPath k x).queues = c.queues := (rfl)
@[simp] theorem Chip.setPath_cmds (c : Chip) (k : Carrier) (x : PathSt) : (c.setPath k x).cmds = c.cmds := (rfl)
@[simp] theorem Chip.setPath_gord (c : Chip) (k : Carrier) (x : PathSt) : (c.setPath k x).gord = c.gord := (rfl)
@[simp] theorem Chip.setPath_prevCfg (c : Chip) (k : Carrier) (x : PathSt) : (c.setPath k x).prevCfg = c.prevCfg := (rfl)
@[simp] theorem Chip.setPath_xlt (c : Chip) (k : Carrier) (x : PathSt) : (c.setPath k x).xlt = c.xlt := (rfl)
@[simp] theorem Chip.setPath_yoke (c : Chip) (k : Carrier) (x : PathSt) : (c.setPath k x).yoke = c.yoke := (rfl)
@[simp] theorem Chip.setPath_drill (c : Chip) (k : Carrier) (x : PathSt) : (c.setPath k x).drill = c.drill := (rfl)
@[simp] theorem Chip.setPath_host (c : Chip) (k : Carrier) (x : PathSt) : (c.setPath k x).host = c.host := (rfl)
@[simp] theorem Chip.setPath_fab (c : Chip) (k : Carrier) (x : PathSt) : (c.setPath k x).fab = c.fab := (rfl)
@[simp] theorem Chip.setPath_outs (c : Chip) (k : Carrier) (x : PathSt) : (c.setPath k x).outs = c.outs := (rfl)
@[simp] theorem Chip.setPath_eng (c : Chip) (k : Carrier) (x : PathSt) : (c.setPath k x).eng = c.eng := (rfl)
@[simp] theorem Chip.setPath_log (c : Chip) (k : Carrier) (x : PathSt) : (c.setPath k x).log = c.log := (rfl)
@[simp] theorem Chip.setPath_irqs (c : Chip) (k : Carrier) (x : PathSt) : (c.setPath k x).irqs = c.irqs := (rfl)
@[simp] theorem Chip.setPath_gov (c : Chip) (k : Carrier) (x : PathSt) : (c.setPath k x).gov = c.gov := (rfl)
@[simp] theorem Chip.setPath_srv (c : Chip) (k : Carrier) (x : PathSt) : (c.setPath k x).srv = c.srv := (rfl)
@[simp] theorem Chip.setPath_bank (c : Chip) (k : Carrier) (x : PathSt) : (c.setPath k x).bank = c.bank := (rfl)
@[simp] theorem Chip.setPath_pcx (c : Chip) (k : Carrier) (x : PathSt) : (c.setPath k x).pcx = c.pcx := (rfl)
@[simp] theorem Chip.setPath_hedge (c : Chip) (k : Carrier) (x : PathSt) : (c.setPath k x).hedge = c.hedge := (rfl)
@[simp] theorem Chip.setPath_rr (c : Chip) (k : Carrier) (x : PathSt) : (c.setPath k x).rr = c.rr := (rfl)

/-! ### Chip.setEngine -/

@[simp] theorem Chip.setEngine_regs (c : Chip) (e : Engine) (x : EngSt) : (c.setEngine e x).regs = c.regs := (rfl)
@[simp] theorem Chip.setEngine_mem (c : Chip) (e : Engine) (x : EngSt) : (c.setEngine e x).mem = c.mem := (rfl)
@[simp] theorem Chip.setEngine_poison (c : Chip) (e : Engine) (x : EngSt) : (c.setEngine e x).poison = c.poison := (rfl)
@[simp] theorem Chip.setEngine_memBad (c : Chip) (e : Engine) (x : EngSt) : (c.setEngine e x).memBad = c.memBad := (rfl)
@[simp] theorem Chip.setEngine_retire (c : Chip) (e : Engine) (x : EngSt) : (c.setEngine e x).retire = c.retire := (rfl)
@[simp] theorem Chip.setEngine_sbd (c : Chip) (e : Engine) (x : EngSt) : (c.setEngine e x).sbd = c.sbd := (rfl)
@[simp] theorem Chip.setEngine_sbdBad (c : Chip) (e : Engine) (x : EngSt) : (c.setEngine e x).sbdBad = c.sbdBad := (rfl)
@[simp] theorem Chip.setEngine_sbdSlip (c : Chip) (e : Engine) (x : EngSt) : (c.setEngine e x).sbdSlip = c.sbdSlip := (rfl)
@[simp] theorem Chip.setEngine_sbdPoison (c : Chip) (e : Engine) (x : EngSt) : (c.setEngine e x).sbdPoison = c.sbdPoison := (rfl)
@[simp] theorem Chip.setEngine_landing (c : Chip) (e : Engine) (x : EngSt) : (c.setEngine e x).landing = c.landing := (rfl)
@[simp] theorem Chip.setEngine_plot (c : Chip) (e : Engine) (x : EngSt) : (c.setEngine e x).plot = c.plot := (rfl)
@[simp] theorem Chip.setEngine_time (c : Chip) (e : Engine) (x : EngSt) : (c.setEngine e x).time = c.time := (rfl)
@[simp] theorem Chip.setEngine_freeCtr (c : Chip) (e : Engine) (x : EngSt) : (c.setEngine e x).freeCtr = c.freeCtr := (rfl)
@[simp] theorem Chip.setEngine_ctxs (c : Chip) (e : Engine) (x : EngSt) : (c.setEngine e x).ctxs = c.ctxs := (rfl)
@[simp] theorem Chip.setEngine_queues (c : Chip) (e : Engine) (x : EngSt) : (c.setEngine e x).queues = c.queues := (rfl)
@[simp] theorem Chip.setEngine_cmds (c : Chip) (e : Engine) (x : EngSt) : (c.setEngine e x).cmds = c.cmds := (rfl)
@[simp] theorem Chip.setEngine_paths (c : Chip) (e : Engine) (x : EngSt) : (c.setEngine e x).paths = c.paths := (rfl)
@[simp] theorem Chip.setEngine_gord (c : Chip) (e : Engine) (x : EngSt) : (c.setEngine e x).gord = c.gord := (rfl)
@[simp] theorem Chip.setEngine_prevCfg (c : Chip) (e : Engine) (x : EngSt) : (c.setEngine e x).prevCfg = c.prevCfg := (rfl)
@[simp] theorem Chip.setEngine_xlt (c : Chip) (e : Engine) (x : EngSt) : (c.setEngine e x).xlt = c.xlt := (rfl)
@[simp] theorem Chip.setEngine_yoke (c : Chip) (e : Engine) (x : EngSt) : (c.setEngine e x).yoke = c.yoke := (rfl)
@[simp] theorem Chip.setEngine_drill (c : Chip) (e : Engine) (x : EngSt) : (c.setEngine e x).drill = c.drill := (rfl)
@[simp] theorem Chip.setEngine_host (c : Chip) (e : Engine) (x : EngSt) : (c.setEngine e x).host = c.host := (rfl)
@[simp] theorem Chip.setEngine_fab (c : Chip) (e : Engine) (x : EngSt) : (c.setEngine e x).fab = c.fab := (rfl)
@[simp] theorem Chip.setEngine_outs (c : Chip) (e : Engine) (x : EngSt) : (c.setEngine e x).outs = c.outs := (rfl)
@[simp] theorem Chip.setEngine_log (c : Chip) (e : Engine) (x : EngSt) : (c.setEngine e x).log = c.log := (rfl)
@[simp] theorem Chip.setEngine_irqs (c : Chip) (e : Engine) (x : EngSt) : (c.setEngine e x).irqs = c.irqs := (rfl)
@[simp] theorem Chip.setEngine_gov (c : Chip) (e : Engine) (x : EngSt) : (c.setEngine e x).gov = c.gov := (rfl)
@[simp] theorem Chip.setEngine_srv (c : Chip) (e : Engine) (x : EngSt) : (c.setEngine e x).srv = c.srv := (rfl)
@[simp] theorem Chip.setEngine_bank (c : Chip) (e : Engine) (x : EngSt) : (c.setEngine e x).bank = c.bank := (rfl)
@[simp] theorem Chip.setEngine_pcx (c : Chip) (e : Engine) (x : EngSt) : (c.setEngine e x).pcx = c.pcx := (rfl)
@[simp] theorem Chip.setEngine_hedge (c : Chip) (e : Engine) (x : EngSt) : (c.setEngine e x).hedge = c.hedge := (rfl)
@[simp] theorem Chip.setEngine_rr (c : Chip) (e : Engine) (x : EngSt) : (c.setEngine e x).rr = c.rr := (rfl)

/-! ### Chip.putSbd -/

@[simp] theorem Chip.putSbd_regs (c : Chip) (h o : Nat) (b : Byte) : (c.putSbd h o b).regs = c.regs := (rfl)
@[simp] theorem Chip.putSbd_mem (c : Chip) (h o : Nat) (b : Byte) : (c.putSbd h o b).mem = c.mem := (rfl)
@[simp] theorem Chip.putSbd_poison (c : Chip) (h o : Nat) (b : Byte) : (c.putSbd h o b).poison = c.poison := (rfl)
@[simp] theorem Chip.putSbd_memBad (c : Chip) (h o : Nat) (b : Byte) : (c.putSbd h o b).memBad = c.memBad := (rfl)
@[simp] theorem Chip.putSbd_retire (c : Chip) (h o : Nat) (b : Byte) : (c.putSbd h o b).retire = c.retire := (rfl)
@[simp] theorem Chip.putSbd_sbdBad (c : Chip) (h o : Nat) (b : Byte) : (c.putSbd h o b).sbdBad = c.sbdBad := (rfl)
@[simp] theorem Chip.putSbd_sbdSlip (c : Chip) (h o : Nat) (b : Byte) : (c.putSbd h o b).sbdSlip = c.sbdSlip := (rfl)
@[simp] theorem Chip.putSbd_sbdPoison (c : Chip) (h o : Nat) (b : Byte) : (c.putSbd h o b).sbdPoison = c.sbdPoison := (rfl)
@[simp] theorem Chip.putSbd_landing (c : Chip) (h o : Nat) (b : Byte) : (c.putSbd h o b).landing = c.landing := (rfl)
@[simp] theorem Chip.putSbd_plot (c : Chip) (h o : Nat) (b : Byte) : (c.putSbd h o b).plot = c.plot := (rfl)
@[simp] theorem Chip.putSbd_time (c : Chip) (h o : Nat) (b : Byte) : (c.putSbd h o b).time = c.time := (rfl)
@[simp] theorem Chip.putSbd_freeCtr (c : Chip) (h o : Nat) (b : Byte) : (c.putSbd h o b).freeCtr = c.freeCtr := (rfl)
@[simp] theorem Chip.putSbd_ctxs (c : Chip) (h o : Nat) (b : Byte) : (c.putSbd h o b).ctxs = c.ctxs := (rfl)
@[simp] theorem Chip.putSbd_queues (c : Chip) (h o : Nat) (b : Byte) : (c.putSbd h o b).queues = c.queues := (rfl)
@[simp] theorem Chip.putSbd_cmds (c : Chip) (h o : Nat) (b : Byte) : (c.putSbd h o b).cmds = c.cmds := (rfl)
@[simp] theorem Chip.putSbd_paths (c : Chip) (h o : Nat) (b : Byte) : (c.putSbd h o b).paths = c.paths := (rfl)
@[simp] theorem Chip.putSbd_gord (c : Chip) (h o : Nat) (b : Byte) : (c.putSbd h o b).gord = c.gord := (rfl)
@[simp] theorem Chip.putSbd_prevCfg (c : Chip) (h o : Nat) (b : Byte) : (c.putSbd h o b).prevCfg = c.prevCfg := (rfl)
@[simp] theorem Chip.putSbd_xlt (c : Chip) (h o : Nat) (b : Byte) : (c.putSbd h o b).xlt = c.xlt := (rfl)
@[simp] theorem Chip.putSbd_yoke (c : Chip) (h o : Nat) (b : Byte) : (c.putSbd h o b).yoke = c.yoke := (rfl)
@[simp] theorem Chip.putSbd_drill (c : Chip) (h o : Nat) (b : Byte) : (c.putSbd h o b).drill = c.drill := (rfl)
@[simp] theorem Chip.putSbd_host (c : Chip) (h o : Nat) (b : Byte) : (c.putSbd h o b).host = c.host := (rfl)
@[simp] theorem Chip.putSbd_fab (c : Chip) (h o : Nat) (b : Byte) : (c.putSbd h o b).fab = c.fab := (rfl)
@[simp] theorem Chip.putSbd_outs (c : Chip) (h o : Nat) (b : Byte) : (c.putSbd h o b).outs = c.outs := (rfl)
@[simp] theorem Chip.putSbd_eng (c : Chip) (h o : Nat) (b : Byte) : (c.putSbd h o b).eng = c.eng := (rfl)
@[simp] theorem Chip.putSbd_log (c : Chip) (h o : Nat) (b : Byte) : (c.putSbd h o b).log = c.log := (rfl)
@[simp] theorem Chip.putSbd_irqs (c : Chip) (h o : Nat) (b : Byte) : (c.putSbd h o b).irqs = c.irqs := (rfl)
@[simp] theorem Chip.putSbd_gov (c : Chip) (h o : Nat) (b : Byte) : (c.putSbd h o b).gov = c.gov := (rfl)
@[simp] theorem Chip.putSbd_srv (c : Chip) (h o : Nat) (b : Byte) : (c.putSbd h o b).srv = c.srv := (rfl)
@[simp] theorem Chip.putSbd_bank (c : Chip) (h o : Nat) (b : Byte) : (c.putSbd h o b).bank = c.bank := (rfl)
@[simp] theorem Chip.putSbd_pcx (c : Chip) (h o : Nat) (b : Byte) : (c.putSbd h o b).pcx = c.pcx := (rfl)
@[simp] theorem Chip.putSbd_hedge (c : Chip) (h o : Nat) (b : Byte) : (c.putSbd h o b).hedge = c.hedge := (rfl)
@[simp] theorem Chip.putSbd_rr (c : Chip) (h o : Nat) (b : Byte) : (c.putSbd h o b).rr = c.rr := (rfl)

/-! ### Chip.canon -/

@[simp] theorem Chip.canon_poison (c : Chip) : (c.canon).poison = c.poison := (rfl)
@[simp] theorem Chip.canon_memBad (c : Chip) : (c.canon).memBad = c.memBad := (rfl)
@[simp] theorem Chip.canon_retire (c : Chip) : (c.canon).retire = c.retire := (rfl)
@[simp] theorem Chip.canon_sbdBad (c : Chip) : (c.canon).sbdBad = c.sbdBad := (rfl)
@[simp] theorem Chip.canon_sbdSlip (c : Chip) : (c.canon).sbdSlip = c.sbdSlip := (rfl)
@[simp] theorem Chip.canon_sbdPoison (c : Chip) : (c.canon).sbdPoison = c.sbdPoison := (rfl)
@[simp] theorem Chip.canon_landing (c : Chip) : (c.canon).landing = c.landing := (rfl)
@[simp] theorem Chip.canon_time (c : Chip) : (c.canon).time = c.time := (rfl)
@[simp] theorem Chip.canon_freeCtr (c : Chip) : (c.canon).freeCtr = c.freeCtr := (rfl)
@[simp] theorem Chip.canon_cmds (c : Chip) : (c.canon).cmds = c.cmds := (rfl)
@[simp] theorem Chip.canon_paths (c : Chip) : (c.canon).paths = c.paths := (rfl)
@[simp] theorem Chip.canon_gord (c : Chip) : (c.canon).gord = c.gord := (rfl)
@[simp] theorem Chip.canon_prevCfg (c : Chip) : (c.canon).prevCfg = c.prevCfg := (rfl)
@[simp] theorem Chip.canon_xlt (c : Chip) : (c.canon).xlt = c.xlt := (rfl)
@[simp] theorem Chip.canon_yoke (c : Chip) : (c.canon).yoke = c.yoke := (rfl)
@[simp] theorem Chip.canon_drill (c : Chip) : (c.canon).drill = c.drill := (rfl)
@[simp] theorem Chip.canon_host (c : Chip) : (c.canon).host = c.host := (rfl)
@[simp] theorem Chip.canon_fab (c : Chip) : (c.canon).fab = c.fab := (rfl)
@[simp] theorem Chip.canon_outs (c : Chip) : (c.canon).outs = c.outs := (rfl)
@[simp] theorem Chip.canon_log (c : Chip) : (c.canon).log = c.log := (rfl)
@[simp] theorem Chip.canon_irqs (c : Chip) : (c.canon).irqs = c.irqs := (rfl)
@[simp] theorem Chip.canon_gov (c : Chip) : (c.canon).gov = c.gov := (rfl)
@[simp] theorem Chip.canon_srv (c : Chip) : (c.canon).srv = c.srv := (rfl)
@[simp] theorem Chip.canon_bank (c : Chip) : (c.canon).bank = c.bank := (rfl)
@[simp] theorem Chip.canon_pcx (c : Chip) : (c.canon).pcx = c.pcx := (rfl)
@[simp] theorem Chip.canon_hedge (c : Chip) : (c.canon).hedge = c.hedge := (rfl)
@[simp] theorem Chip.canon_rr (c : Chip) : (c.canon).rr = c.rr := (rfl)

end Sys2Proof.Machine
end

