-- ==== Sys2Proof/Laws/Memory.lean ====
section
/-! SUPPORT. The laws of the module's memories: contexts, queues and engines read back what was set, a stored byte reads back and leaves the
others alone, and the canonical form changes no reading. -/

namespace Sys2Proof.Machine

open Sys2Proof

variable (c : Chip)

/-! ### Maps of the state -/

@[simp] theorem Chip.ctx_setCtx (n m : Nat) (x : Ctx) : (c.setCtx n x).ctx m = if m = n then x else c.ctx m := by
  simp [Chip.setCtx, Chip.ctx, kget_kset]

@[simp] theorem Chip.queue_setQueue (n m : Nat) (x : Queue) : (c.setQueue n x).queue m = if m = n then x else c.queue m := by
  simp [Chip.setQueue, Chip.queue, kget_kset]

@[simp] theorem Chip.engine_setEngine (e f : Engine) (x : EngSt) :
    (c.setEngine e x).engine f = if engKey f = engKey e then x else c.engine f := by
  simp [Chip.setEngine, Chip.engine, kget_kset]

/-! ### The canonical form -/

@[simp] theorem Chip.reg_canon (o : Nat) : c.canon.reg o = c.reg o := kget_kcanon _ _ _
@[simp] theorem Chip.rdByte_canon (a : Nat) : c.canon.rdByte a = c.rdByte a := kget_kcanon _ _ _
@[simp] theorem Chip.rdSbd_canon (h o : Nat) : c.canon.rdSbd h o = c.rdSbd h o := kget_kcanon _ _ _
@[simp] theorem Chip.ctx_canon (n : Nat) : c.canon.ctx n = c.ctx n := kget_kcanon _ _ _
@[simp] theorem Chip.queue_canon (n : Nat) : c.canon.queue n = c.queue n := kget_kcanon _ _ _
@[simp] theorem Chip.place_canon (f : Nat) : c.canon.place f = c.place f := kget_kcanon _ _ _
@[simp] theorem Chip.engine_canon (e : Engine) : c.canon.engine e = c.engine e := kget_kcanon _ _ _
@[simp] theorem Chip.rget_canon (b : Nat) (f : Fld) : c.canon.rget b f = c.rget b f := by simp [Chip.rget]

/-- The canonical form holds after it has been restored. -/
theorem Chip.wf_canon : c.canon.wf = true := by simp [Chip.wf, Chip.canon, kwf_kcanon]

/-- A module in canonical form is not changed by restoring it. -/
theorem Chip.canon_of_wf (h : c.wf = true) : c.canon = c := by
  simp only [Chip.wf, Bool.and_eq_true] at h
  obtain ⟨⟨⟨⟨⟨⟨h1, h2⟩, h3⟩, h4⟩, h5⟩, h6⟩, h7⟩ := h
  simp [Chip.canon, kcanon_of_wf, *]

/-- The canonical form holds after every command. -/
theorem Chip.wf_after : c.after.wf = true := Chip.wf_canon _

/-! ### Bytes -/

/-- Where a host copy is recalled only the bytes of its sector change; with no directory entry nothing does. -/
theorem Chip.recall_of_none (u : Nat) (h : c.host.dir.find? (fun d => d.sec == u) = none) : c.recall u = c := by
  simp [Chip.recall, h]

@[simp] theorem Chip.mem_touch (a : Nat) : (c.touch a).mem = c.mem := by
  simp only [Chip.touch]; split
  · rfl
  · split <;> rfl

/-- What every step of a fold keeps, the fold keeps. -/
theorem foldl_keep {α β γ : Type} (g : γ → β) (f : γ → α → γ) (h : ∀ c x, g (f c x) = g c) (l : List α) : ∀ c, g (l.foldl f c) = g c := by
  induction l with
  | nil => intro c; rfl
  | cons x l ih => intro c; exact (ih _).trans (h c x)

theorem Chip.snoop_mem (sec : Nat) (l : List Nat) : (c.snoop sec l).mem = c.mem :=
  foldl_keep Chip.mem _ (fun c x => by dsimp only; split <;> simp only [Chip.rcount_mem]) l c

theorem Chip.snoop_sbd (sec : Nat) (l : List Nat) : (c.snoop sec l).sbd = c.sbd :=
  foldl_keep Chip.sbd _ (fun c x => by dsimp only; split <;> simp only [Chip.rcount_sbd]) l c

/-- A recall leaves the Seedbeds alone. -/
theorem Chip.recall_sbd (u : Nat) : (c.recall u).sbd = c.sbd := by
  unfold Chip.recall
  split
  · rfl
  · simp only
    split
    · simp only [Chip.rcount_sbd, Chip.snoop_sbd]
    · simp only [Chip.snoop_sbd]

/-- Writes one after another keep the canonical form. -/
theorem kwf_foldl_kset (f : Nat → Nat) (g : Nat → Byte) (l : List Nat) :
    ∀ m, kwf memDef m = true → kwf memDef (l.foldl (fun m i => kset memDef m (f i) (g i)) m) = true := by
  induction l with
  | nil => intro m h; exact h
  | cons x l ih => intro m h; exact ih _ (kwf_kset memDef m _ _ h)

/-- A recall keeps the canonical form of memory. -/
theorem Chip.recall_mem_wf (u : Nat) (h : kwf memDef c.mem = true) : kwf memDef (c.recall u).mem = true := by
  unfold Chip.recall
  split
  · exact h
  · simp only
    split
    · simp only [Chip.rcount_mem]
      apply kwf_foldl_kset
      rw [Chip.snoop_mem]; exact h
    · simp only [Chip.snoop_mem]; exact h

theorem Chip.touch_sbd (a : Nat) : (c.touch a).sbd = c.sbd := by
  simp only [Chip.touch]; split
  · rfl
  · split <;> rfl

/-- A byte written keeps the canonical form of memory. -/
theorem Chip.wrByte_mem_wf (a : Nat) (b : Byte) (h : kwf memDef c.mem = true) : kwf memDef (c.wrByte a b).mem = true := by
  unfold Chip.wrByte
  split
  · exact kwf_kset _ _ _ _ (by rw [Chip.mem_touch]; exact Chip.recall_mem_wf c _ h)
  · exact h

/-- Bytes written keep the canonical form of memory. -/
theorem Chip.wrMem_mem_wf (l : List Byte) : ∀ (c : Chip) (a : Nat), kwf memDef c.mem = true → kwf memDef (c.wrMem a l).mem = true := by
  induction l with
  | nil => intro c a h; exact h
  | cons b l ih => intro c a h; exact ih _ _ (Chip.wrByte_mem_wf c a b h)

/-- A byte stored in a Seedbed keeps the canonical form. -/
theorem Chip.putSbd_sbd_wf (h o : Nat) (b : Byte) (hw : kwf memDef c.sbd = true) : kwf memDef (c.putSbd h o b).sbd = true :=
  kwf_kset _ _ _ _ hw

/-- Reset memory is in canonical form. -/
theorem reset_wf : State.reset.toChip.wf = true := by decide

/-- A byte written to a backed frame reads back. -/
theorem Chip.rdByte_wrByte_self (a : Nat) (b : Byte) (h : backed a 1 = true) : (c.wrByte a b).rdByte a = b := by
  simp [Chip.wrByte, h, Chip.rdByte, kget_kset]

/-- A byte not backed is not written. -/
theorem Chip.wrByte_not_backed (a : Nat) (b : Byte) (h : backed a 1 = false) : c.wrByte a b = c := by
  simp [Chip.wrByte, h]

/-- A byte stored in a Seedbed reads back, and no other byte of the Seedbeds changes. -/
theorem Chip.rdSbd_putSbd (h o h' o' : Nat) (b : Byte) :
    (c.putSbd h o b).rdSbd h' o' = if sbdKey h' o' = sbdKey h o then b else c.rdSbd h' o' := by
  simp [Chip.putSbd, Chip.rdSbd, kget_kset]

/-! ### Running a command -/

/-- A well-formed command answers a next state: its effect, and what that causes at once. -/
theorem State.run_wf (s : State) (i : Instr) (f : Chip → Chip) (h : i.wf = true) :
    s.run i f = .next { s with toChip := (f s.toChip).after } := by simp [State.run, h]

/-- An ill-formed command is none. -/
theorem State.run_ill (s : State) (i : Instr) (f : Chip → Chip) (h : i.wf = false) : s.run i f = .fault .illFormed := by
  simp [State.run, h]

/-- A fault is no next state. -/
theorem fault_ne_next {σ φ ρ : Type} (f : φ) (t : σ) : (Host.Outcome.fault f : Host.Outcome σ φ ρ) ≠ .next t := by
  intro h; cases h

/-- What a next state with a new module holds. -/
theorem next_with {φ ρ : Type} {s t : State} {c : Chip} (h : (Host.Outcome.next { s with toChip := c } : Host.Outcome State φ ρ) = .next t) :
    t.toChip = c ∧ t.pending = s.pending := by
  cases h; exact ⟨rfl, rfl⟩

/-- Whatever a command does, a next state it answers is in canonical form and its queue is the one it was given. -/
theorem State.run_next {s t : State} {i : Instr} {f : Chip → Chip} (h : s.run i f = .next t) :
    t.toChip = (f s.toChip).after ∧ t.pending = s.pending := by
  cases hw : i.wf with
  | false => rw [State.run_ill _ _ _ hw] at h; exact absurd h (fault_ne_next _ _)
  | true => rw [State.run_wf _ _ _ hw] at h; exact next_with h

end Sys2Proof.Machine
end

