-- ==== Sys2Proof/Tests/Slice0.lean ====
section
/-! SUPPORT. Tests: ill-formed commands that the checks refuse, single steps with results taken from the manual, and for every statement
with hypotheses a concrete state and operands that meet them. -/

namespace Sys2Proof.Tests

open Sys2Proof Sys2Proof.Machine

set_option maxRecDepth 60000

/-- What a command's next state shows. -/
def sees (i : Instr) (s : State) (f : Chip → Bool) : Bool := match exec i s with
  | .next t => f t.toChip
  | _ => false

/-- The state after reset, changed. -/
def atS (f : Chip → Chip) : State := { State.reset with toChip := f State.reset.toChip }

/-- A running module, changed. -/
def upS (f : Chip → Chip) : State := atS (fun c => f (c.rput MOD MOD_STATUS_READY 1))

/-- A command of a queue in execution, with parameters. -/
def cmdOf (q seq cls op : Nat) (ps : List (Nat × Nat × Nat)) : Cmd :=
  { car := .queue q, seq := seq, ord := 1, gord := 1, bytes := fields 128 ([(0, 2, op + 4096 * cls), (3, 1, 1), (4, 4, seq)] ++ ps), ctx := 1,
    priv := true, half := 0, phase := .executing, issued := true }

/-- A running module with one command, changed. -/
def withCmd (m : Cmd) (f : Chip → Chip) : State := upS (fun c => f { c with cmds := [m] })

/-- An engine instance awake. -/
def woken (e : Engine) (c : Chip) : Chip := c.setEngine e { c.engine e with awake := true }

/-! ### Ill-formed commands are refused -/

theorem wf_refuses_paths : ∀ p ∈ [Path.host 72, .pcx 2, .mailbox 2, .queue (2 ^ 20)], (Instr.wakeReq p).wf = false := by decide

theorem wf_refuses_carriers : ∀ k ∈ [Carrier.queue (2 ^ 20), .net (2 ^ 32), .mailbox (2 ^ 16)], (Instr.nop k 0).wf = false := by decide

theorem wf_refuses_queue_operands : ∀ i ∈ [Instr.qprDoorbell .smbus (2 ^ 20) 8 0, .qprDoorbell .smbus 0 17 0, .qprDoorbell .smbus 0 8 (2 ^ 64),
    .qprCqConsumed .smbus (2 ^ 20) 4 0, .qprCqConsumed .smbus 0 17 0, .qprCqConsumed .smbus 0 4 (2 ^ 64), .qprEqConsumed .smbus (2 ^ 20) 4 0,
    .qprEqConsumed .smbus 0 17 0, .qprEqConsumed .smbus 0 4 (2 ^ 64), .commandFetch (2 ^ 20), .commandIssue .smbus (2 ^ 32), .commandRetire .smbus (2 ^ 32),
    .priorityRaise (2 ^ 20) 0, .priorityRaise 0 (2 ^ 32)], i.wf = false := by decide

theorem wf_refuses_engine_operands : ∀ q ∈ [2 ^ 20], ∀ f ∈ [Instr.gemm, .gemmSplit, .attn, .chain, .launch, .dmaCopy, .dmaFill, .dmaGather, .dmaScatter, .dmaAtomic,
    .score, .valueAcc, .gleanerGather, .gleanerScatter, .blockReduce, .topk, .update, .gleanerFill, .gleanerCopy, .checksum, .scrub, .add, .sub, .setSem, .cset,
    .wait, .watch, .claim, .release, .barDefine, .barEnter, .barRetire, .allreduce, .reduceScatter, .allgather, .broadcast, .alltoall, .winOpen, .winClose, .hint,
    .pin, .unpin], (f q 0).wf = false ∧ (f 0 (2 ^ 32)).wf = false := by decide

theorem wf_refuses_blocks : ∀ i ∈ [Instr.blockStart (2 ^ 20) 0 0 0, .blockStart 0 (2 ^ 32) 0 0, .blockStart 0 0 (2 ^ 32) 0, .blockStart 0 0 0 66], i.wf = false := by decide

theorem wf_refuses_sequence_numbers : ∀ f ∈ [Instr.nop, .qEnable, .qDisable, .abortSeq, .abortQueue, .ctxPreempt, .ctxResume, .ctxReset, .xltInvalidate, .identify,
    .regRead, .regWrite, .telemetryRead, .limitSet, .selftestSlice, .selftestFull, .fwStage, .fwActivate, .resetFunction, .stileSet, .eventLogRead, .faultTimeout],
    (f .smbus (2 ^ 32)).wf = false := by decide

theorem wf_refuses_groups : ∀ g ∈ [(⟨2 ^ 20, 0, 0, 0⟩ : Grp), ⟨0, 2 ^ 32, 0, 0⟩, ⟨0, 0, 2 ^ 32, 0⟩, ⟨0, 0, 0, 32⟩], (Instr.iadd g).wf = false := by decide

theorem wf_refuses_engines : ∀ e ∈ [(⟨1, 2, 0⟩ : Engine), ⟨1, 0, 1⟩, ⟨3, 0, 66⟩, ⟨9, 0, 0⟩], (Instr.engineAdoptEpoch e).wf = false := by decide

theorem wf_refuses_devices : ∀ d ∈ [(⟨false, 2, 0⟩ : MemDev), ⟨false, 0, 6⟩, ⟨true, 0, 12⟩], (Instr.retrainingEnd d).wf = false := by decide

theorem wf_refuses_yoke_frames : let o : YokeFrame := ⟨0, 0, 0, 0, 0, 0, 0, 0, 0, 0, 0, 0, 0, 0⟩
    ∀ x ∈ [{ o with rank := 2 ^ 20 }, { o with node := 2 ^ 24 }, { o with job := 2 ^ 32 }, { o with txn := 2 ^ 32 }, { o with op := 256 }, { o with sem := 2 ^ 18 },
      { o with value := 2 ^ 48 }, { o with compare := 2 ^ 48 }, { o with tkind := 256 }, { o with target := 2 ^ 32 }, { o with bar := 2 ^ 19 }, { o with ctx := 2 ^ 17 },
      { o with q := 2 ^ 20 }, { o with seq := 2 ^ 32 }], (Instr.remoteYokeOperation x).wf = false := by decide

theorem wf_refuses_accesses : let a : RemoteAccess := ⟨0, 0, 0, 0, 0, 0, [], [], 0, false, 0, 0, 0, 0⟩
    ∀ x ∈ [{ a with rank := 2 ^ 20 }, { a with node := 2 ^ 24 }, { a with job := 2 ^ 16 }, { a with seq := 2 ^ 32 }, { a with kind := 3 }, { a with win := 2 ^ 16 },
      { a with data := List.replicate 4097 0 }, { a with ranges := [(2 ^ 44, 0)] }, { a with ranges := [(0, 65537)] }, { a with lastBits := 9 }, { a with aop := 7 },
      { a with fmt := 16 }, { a with operand := 2 ^ 64 }, { a with compare := 2 ^ 64 }], (Instr.remoteAccessArrival x).wf = false := by decide

theorem wf_refuses_replies : let r : Reply := ⟨0, 0, 0, List.replicate 16 0, [], false, false, false⟩
    ∀ x ∈ [{ r with rank := 2 ^ 20 }, { r with seq := 2 ^ 32 }, { r with status := 17 }, { r with detail := [] }], (Instr.transactionReply x).wf = false := by decide

theorem wf_refuses_long_replies (r : Reply) (h : r.data.length = 65537) : (Instr.transactionReply r).wf = false := by
  simp [Instr.wf, Reply.wf, h]

theorem wf_refuses_collective_messages : let m : CollMsg := ⟨0, 0, 0, 0, 0, 0, 0, 0, 0, 0, 0, [], []⟩
    ∀ x ∈ [{ m with rank := 2 ^ 20 }, { m with node := 2 ^ 24 }, { m with job := 2 ^ 16 }, { m with seq := 2 ^ 32 }, { m with group := 2 ^ 16 }, { m with cseq := 2 ^ 32 },
      { m with op := 2 ^ 12 }, { m with cepoch := 2 ^ 16 }, { m with src := 2 ^ 20 }, { m with kind := 4 }, { m with lost := 2 ^ 20 }],
      (Instr.collectiveMessage x).wf = false := by decide

theorem wf_refuses_frames : let f : LinkFrame := ⟨0, true, true, 0, 0, 0, .unreach 0 0⟩
    let w : YMsg := ⟨0, 0, 0, 0, 0, 0, 0, 0, 0⟩
    ∀ x ∈ [{ f with seq := 2 ^ 16 }, { f with cls := 4 }, { f with src := 2 ^ 24 }, { f with dst := 2 ^ 24 }, { f with pkt := .unreach (2 ^ 24) 0 },
      { f with pkt := .unreach 0 (2 ^ 32) }, { f with pkt := .watchMsg { w with sem := 2 ^ 18 } }, { f with pkt := .watchMsg { w with value := 2 ^ 48 } },
      { f with pkt := .watchMsg { w with wstatus := 3 } }, { f with pkt := .watchMsg { w with tkind := 5 } }, { f with pkt := .mgmt (List.replicate 4097 0) }],
      (Instr.frameReceive 3 x).wf = false := by decide

theorem wf_refuses_links : ∀ f ∈ [Instr.linkLossOfSignal, .linkFecLock, .concordSend, .ackTimer, .replayTimeout, .linkRetrain, .linkFailed, .linkSignalDetect,
    .opticsSwitchLimit, .portResetTimeout true], (f 9).wf = false := by decide

theorem wf_refuses_link_operands : ∀ i ∈ [Instr.concordReceive 9 ⟨List.replicate 64 0⟩, .concordReceive 3 ⟨List.replicate 63 0⟩, .ackReceive 9 0, .ackReceive 3 (2 ^ 16),
    .nakReceive 9 0, .nakReceive 3 (2 ^ 16), .frameReceive 9 ⟨0, true, true, 0, 0, 0, .unreach 0 0⟩, .timeExchange ⟨9, 0, 0⟩, .timeExchange ⟨0, 2 ^ 64, 0⟩,
    .timeExchange ⟨0, 0, 2 ^ 16⟩, .opticsRetry 9 true, .yokeMessageDeliver (2 ^ 16), .unreachableReply (2 ^ 32), .e2eTimeout (2 ^ 32)], i.wf = false := by decide

theorem wf_refuses_host_requests : let r : HostReq := ⟨0, .load, 0, 4, [], 0, 0, 0⟩
    ∀ x ∈ [{ r with hart := 72 }, { r with addr := 2 ^ 48 }, { r with size := 0 }, { r with addr := 62 }, { r with data := List.replicate 65 0 }, { r with aop := 10 },
      { r with operand := 2 ^ 128 }, { r with compare := 2 ^ 128 }], (Instr.hostCoreMemoryRequest x).wf = false := by decide

theorem wf_refuses_memory_operands : let d : MemDev := ⟨true, 0, 0⟩
    ∀ i ∈ [Instr.patrolScrubRead d 2105344 0 ⟨none, false⟩, .patrolScrubRead d 0 1024 ⟨none, false⟩, .patrolScrubRead d 0 0 ⟨some 68, false⟩,
      .memoryTempPoll d 256, .memoryPowerDown d 64, .streamTimeout 2 0 0, .streamTimeout 0 16 0, .streamTimeout 0 0 256, .surveyPeriodEnd [⟨1966080, 0, 0⟩],
      .migrationStart (2 ^ 16), .migrationCopyPass (2 ^ 16) 0 0, .migrationCopyPass 0 1025 0, .migrationCopyPass 0 0 1025, .migrationWindow (2 ^ 16) 0 0,
      .migrationWindow 0 2001 0, .migrationWindow 0 0 (2 ^ 32), .seedbedGroupMoveEnd 2], i.wf = false := by decide

theorem wf_refuses_slice_outcomes : let o : SliceOutcome := ⟨0, 0, 0, 0, 0, 0⟩
    ∀ x ∈ [{ o with result := 4 }, { o with signature := 2 ^ 32 }, { o with expected := 2 ^ 32 }, { o with fails := 2 ^ 16 }, { o with first := 2 ^ 64 },
      { o with micros := 2 ^ 64 }], (Instr.sliceTestEnd x).wf = false := by decide

theorem wf_refuses_measurements : ∀ i ∈ [Instr.governorTick ⟨65536, 0, 0⟩, .governorTick ⟨0, 3, 0⟩, .governorTick ⟨0, 0, 24⟩, .telemetrySample ⟨256, 0⟩,
    .telemetrySample ⟨0, 256⟩, .junctionSenseTick 256 0, .junctionSenseTick 0 256, .thermalTrip 256 0, .thermalTrip 0 (2 ^ 32), .furrowIdleStop 2, .harrowIdleGate 2 0,
    .harrowIdleGate 0 16, .drillIdleGate 2 0, .drillIdleGate 0 66, .gleanerIdleGate 2 0, .gleanerIdleGate 0 6, .hostCoreGateIdle 72, .coherenceTimeout 72], i.wf = false := by decide

theorem wf_refuses_errors : ∀ e ∈ [ErrorIn.engine ⟨1, 0, 0⟩ 3, .engine ⟨9, 0, 0⟩ 0, .sbdWord 2 0, .sbdWord 0 0xC000000, .sbdRead 2 0, .sbdRead 0 0xC000000,
    .memCorrected (62914560 * 65536) 0, .memCorrected 0 68, .memLost (62914560 * 65536), .memRetry ⟨false, 2, 0⟩ 0 true, .memRetry ⟨true, 0, 0⟩ 4 true,
    .memRetry ⟨false, 0, 0⟩ 64 true, .semCorrected (2 ^ 18), .semLost (2 ^ 18), .sycCorrected 2 0 0 0, .sycCorrected 0 16 0 0, .sycCorrected 0 0 (2 ^ 42) 0,
    .sycCorrected 0 0 0 16, .sycLost 2 0 0 0, .sycLost 0 16 0 0, .sycLost 0 0 (62914560 * 65536) 0, .sycLost 0 0 0 16, .dirCorrected 2 0, .dirCorrected 0 16,
    .dirLost 2 0, .dirLost 0 16, .xltCache 2, .xltStore 2, .srvStore 0 2048, .plotCopy 2, .qpSram 2 0, .qpSram 0 16, .hostL1 72, .hostL2 72, .hostSector 72 0,
    .hostSector 0 (62914560 * 1024), .gleaner 2 0, .gleaner 0 6, .part ⟨.yoke, 2, 0, 0⟩, .part ⟨.yoke, 0, 1, 0⟩, .part ⟨.yoke, 0, 0, 1024⟩],
    (Instr.errorReport e).wf = false := by decide

theorem wf_refuses_parts : ∀ k ∈ [PartKind.hostCore, .drillCore, .furrowRow, .furrowCol, .harrow, .mover, .queueProc, .bankGroup, .way, .device, .gleaner, .balkModule,
    .phase, .slice, .yoke, .surveyor, .xlate, .dispatch], (Instr.spareInService ⟨k, 0, k.count, 0⟩).wf = false ∧ (Instr.logicBistDone [⟨k, 0, k.count, 0⟩]).wf = false ∧
      (Instr.sramBistDone [⟨k, 0, k.count, 0⟩]).wf = false := by decide

theorem wf_refuses_path_operands : ∀ i ∈ [Instr.mgtDatagram ⟨false, 2 ^ 32, 0, 0, []⟩, .mgtDatagram ⟨true, 2 ^ 128, 0, 0, []⟩, .mgtDatagram ⟨false, 0, 2 ^ 48, 0, []⟩,
    .mgtDatagram ⟨false, 0, 0, 2 ^ 16, []⟩, .mgtDatagram ⟨false, 0, 0, 0, List.replicate 2049 0⟩, .arpRequest ⟨10, false, 0, 0⟩, .arpRequest ⟨0, false, 2 ^ 32, 0⟩,
    .arpRequest ⟨0, true, 2 ^ 128, 0⟩, .arpRequest ⟨0, false, 0, 2 ^ 48⟩, .mailboxSubmit 2, .smbusRequest true (List.replicate 2049 0)], i.wf = false := by decide

theorem wf_refuses_inbound_requests : let r : InboundReq := ⟨0, 0, 0, 0, 0, 0, 4, [], false, 0, 0, 0⟩
    ∀ x ∈ [{ r with port := 2 }, { r with req := 2 ^ 16 }, { r with tag := 2 ^ 14 }, { r with fn := 2 }, { r with bar := 1 }, { r with addr := 2 ^ 64 }, { r with size := 0 },
      { r with size := 4097 }, { r with data := List.replicate 513 0 }, { r with aop := 3 }, { r with operand := 2 ^ 64 }, { r with compare := 2 ^ 64 }],
      (Instr.pcxInboundRead x).wf = false := by decide

theorem wf_refuses_outbound_requests : ∀ r ∈ [(⟨72, 0, 4, none⟩ : OutReq), ⟨0, 2 ^ 48, 4, none⟩, ⟨0, 0, 0, none⟩, ⟨0, 0, 17, none⟩, ⟨0, 0, 4, some [1]⟩],
    (Instr.pcxOutboundRequest r).wf = false := by decide

theorem wf_refuses_port_operands : ∀ i ∈ [Instr.pcxMsiReceive 2 0 0 0, .pcxMsiReceive 0 (2 ^ 16) 0 0, .pcxMsiReceive 0 0 (2 ^ 64) 0, .pcxMsiReceive 0 0 0 (2 ^ 32),
    .pcxFlrFunction0 2, .pcxFlrFunction1 2, .pcxEndpointReset 2, .pcxLinkDown 2, .pcxCompletionTimeout 2 0, .pcxCompletionTimeout 0 (2 ^ 32), .pcxErrorMessage 2,
    .pcxLinkUp 2 1 1, .pcxLinkUp 0 16 1, .pcxLinkUp 0 1 32, .pcxOutboundCompletion 2 0 0 [], .pcxOutboundCompletion 0 (2 ^ 32) 0 [], .pcxOutboundCompletion 0 0 8 [],
    .pcxOutboundCompletion 0 0 0 (List.replicate 2049 0), .pcxConfigRequest 2 0 0 none, .pcxConfigRequest 0 2 0 none, .pcxConfigRequest 0 0 (2 ^ 32) none,
    .pcxConfigRequest 0 0 0 (some (2 ^ 64)), .pcxFlush .smbus 2, .pcxRetrain .smbus 2], i.wf = false := by decide

theorem wf_refuses_register_operands : ∀ i ∈ [Instr.modCfgCommit .smbus (2 ^ 64), .faultRetry .smbus (2 ^ 32), .faultDecline .smbus (2 ^ 32), .modFrConsumed .smbus (2 ^ 64),
    .faultRingWrite (2 ^ 32), .qctlEnable .smbus (2 ^ 20), .qctlDisableStop .smbus (2 ^ 20), .qctlDisableDrain .smbus (2 ^ 20), .registerWrite .smbus (2 ^ 32) 4 0,
    .registerWrite .smbus 0 17 0, .registerWrite .smbus 0 4 (2 ^ 64), .aihPortRetrain .smbus 9, .aihTimeSet .smbus (2 ^ 64), .imageWindowWrite .smbus (2 ^ 16) 0,
    .imageWindowWrite .smbus 0 (2 ^ 32), .opticsFaultClear .smbus 9, .mgtAlertClear (.pcx 2), .mgtHostRelease (.pcx 2)], i.wf = false := by decide

theorem wf_refuses_start_operands : ∀ i ∈ [Instr.standbyLost (2 ^ 32), .mainInputFault (2 ^ 32), .pwrEnRise (2 ^ 32), .sequenceFault 16 0, .sequenceFault 0 (2 ^ 32),
    .railFault 16 0, .railFault 0 (2 ^ 32), .modResetRelease 256, .standbyGoodFor10Ms (2 ^ 32), .mcWatchdogExpiry 2, .mcRestartDone 2, .mcBootFallback 2,
    .managementControllerBoot 2, .managementControllerReset 2 0, .managementControllerReset 0 5, .balkLinkError 2 .lane, .seedbedWindowAccess 72 0 4 none,
    .seedbedWindowAccess 0 (2 ^ 32) 4 none, .seedbedWindowAccess 0 0 17 none, .seedbedWindowAccess 0 0 4 (some (2 ^ 64))], i.wf = false := by decide

/-- An ill-formed command faults. -/
theorem test_ill_formed_faults : step { State.reset with pending := [.commandFetch (2 ^ 20)] } = .fault .illFormed := by rfl

/-! ### Witnesses: the machine and queues -/

theorem witness_StepRunsTheFrontCommand : (atS (fun c => c)).pending = [] ∧ (Instr.asleep).wf = true := by decide

theorem witness_IdleStepIsAClockPeriod : State.reset.pending = [] ∧ State.reset.fab.rate = 0 ∧ State.reset.fab.left = 0 ∧
    State.reset.fab.frac = 0 ∧ (State.reset.toChip.port 0).posted = [] ∧ (State.reset.toChip.port 1).posted = [] := by decide

theorem witness_WellFormedCommandsAnswer : (Instr.commandFetch 0).wf = true ∧ (Instr.commandFetch 1048576).wf = false := by decide

theorem witness_AtRestNothingFollows : State.reset.toChip.quiet = true := by decide

theorem witness_FieldsAndMemoryReadBack : MOD_STATUS_READY.lo + MOD_STATUS_READY.w ≤ 64 ∧ backed (62914560 * 65536 - 1) 1 = true ∧
    backed (62914560 * 65536) 1 = false ∧ State.reset.toChip.host.dir.find? (fun d => d.sec == 0) = none ∧ kwf memDef State.reset.mem = true ∧
    kwf memDef State.reset.sbd = true := by decide

/-- A queue whose ring has 16 slots, HEAD 14 and TAIL 15. -/
def q16 : Queue := { st := .enabled, head := 14, tail := 15, sqLog2 := 4, lastDbSeq := 7, ctx := 1, lastAccepted := 9 }

/-- A running module with that queue, changed. -/
def withQ (f : Queue → Queue) : State := upS (fun c => c.setQueue 5 (f q16))

theorem witness_QueuePageWritesAct_disabled : (Instr.qprDoorbell (.pcx 0) 5 8 1).wf = true ∧ (upS id).toChip.up = true ∧
    ((upS id).toChip.queue 5).st = .disabled ∧ ((upS id).toChip.queue 5).staleDb ≤ 0xFFF := by decide

theorem witness_QueuePageWritesAct_repeated : let x := (withQ id).toChip.queue 5
    x.st ≠ .disabled ∧ x.st ≠ .draining ∧ 7 = x.lastDbSeq ∧ 15 = x.tail ∧ (Instr.qprDoorbell (.host 0) 5 8 (7 * 2 ^ 32 + 15)).wf = true := by decide

theorem witness_QueuePageWritesAct_stale : let x := (withQ id).toChip.queue 5
    let d := ((6 : Int) - x.lastDbSeq) % 2 ^ 32
    ¬ (1 ≤ d ∧ d ≤ 2 ^ 31 - 1) ∧ x.staleDb ≤ 0xFFF ∧ ¬ (6 = x.lastDbSeq ∧ 15 = x.tail) := by decide

theorem witness_QueuePageWritesAct_overrun : let x := (withQ id).toChip.queue 5
    let d := ((8 : Int) - x.lastDbSeq) % 2 ^ 32
    1 ≤ d ∧ d ≤ 2 ^ 31 - 1 ∧ 16 ≥ 2 ^ x.sqLog2 ∧ ((x.tail : Int) - x.head) % 2 ^ x.sqLog2 + ((14 : Int) - x.tail) % 2 ^ x.sqLog2 > 2 ^ x.sqLog2 - 1 := by decide

theorem witness_QueuePageWritesAct_accepted : let x := (withQ id).toChip.queue 5
    13 < 2 ^ x.sqLog2 ∧ ((x.tail : Int) - x.head) % 2 ^ x.sqLog2 + ((13 : Int) - x.tail) % 2 ^ x.sqLog2 ≤ 2 ^ x.sqLog2 - 1 := by decide

theorem witness_QueuePageWritesAct_consumed : (Instr.qprDoorbell .smbus 5 4 1).wf = true ∧ (Instr.qprCqConsumed (.pcx 1) 5 4 (2 ^ 32 - 1)).wf = true ∧
    (Instr.qprEqConsumed (.pcx 1) 5 4 0).wf = true ∧ queueCtx (withQ id).toChip 5 = some 1 ∧ ((withQ id).toChip.ctx 1).held = none := by decide

/-- A submission ring in frame 0, in which slot 14 holds a NOP of one slot with SEQ seq, changed by f before its header check is put. -/
def ringS (seq : Nat) (g : Queue → Queue) (f : List Byte → List Byte) : State :=
  upS (fun c =>
    let b := f (fields 64 [(0, 2, 0xE000), (3, 1, 1), (4, 4, seq)])
    let c := c.setQueue 5 (g { q16 with sqPages := [{ vp := 0, frame := 0, ok := true }], cqLog2 := 4 })
    c.wrMem (14 * 64) (putLe b 14 1 (crc8 (b.take 14))))

theorem witness_FetchHandlesHeadersAndDuplicates_header : let c := (ringS 10 id (fun b => putLe b 3 1 17)).toChip
    let x := c.queue 5
    let h := slotBytes c x x.head
    (Instr.commandFetch 5).wf = true ∧ c.up = true ∧ x.st = .enabled ∧ x.head ≠ x.tail ∧ (c.cmdsOf (.queue 5)).length < 64 ∧ cqFree c 5 = true ∧
      leAt h 3 1 > 16 ∧ crc8 (h.take 14) = leAt h 14 1 := by decide

theorem witness_FetchHandlesHeadersAndDuplicates_incomplete : let c := (ringS 10 id (fun b => putLe b 3 1 2)).toChip
    let x := c.queue 5
    let h := slotBytes c x x.head
    headerCheck h = 0 ∧ x.head + leAt h 3 1 ≤ 2 ^ x.sqLog2 ∧ leAt h 3 1 > ringDiff x.sqLog2 x.tail x.head := by decide

theorem witness_FetchHandlesHeadersAndDuplicates_duplicate : let c := (ringS 9 id id).toChip
    let x := c.queue 5
    let h := slotBytes c x x.head
    headerCheck h = 0 ∧ x.head + leAt h 3 1 ≤ 2 ^ x.sqLog2 ∧ leAt h 3 1 ≤ ringDiff x.sqLog2 x.tail x.head ∧ seqNewer (leAt h 4 4) x.lastAccepted = false ∧
      x.window.find? (fun y => y.seq == leAt h 4 4) = none := by decide

theorem witness_FetchHandlesHeadersAndDuplicates_known : let c := (ringS 9 (fun x => { x with window := [⟨8, none⟩, ⟨9, some doneRes⟩] }) id).toChip
    let x := c.queue 5
    seqNewer 9 x.lastAccepted = false ∧ x.window.find? (fun y => y.seq == 9) = some ⟨9, some doneRes⟩ ∧ x.window.find? (fun y => y.seq == 8) = some ⟨8, none⟩ ∧
      seqNewer 8 x.lastAccepted = false := by decide

theorem witness_FetchAcceptsNewCommands : let c := (ringS 10 id id).toChip
    let x := c.queue 5
    let h := slotBytes c x x.head
    let len := leAt h 3 1
    let m := newCmd 5 ((List.range len).flatMap (fun i => slotBytes c x (x.head + i))) c
    let r := xlatePages (5 % 2) m.ctx (c.ctxDesc m.ctx).ptRoot (cmdNeeds m) c
    let m := { m with pages := r.1, runs := runCount r.1 }
    let base := r.2.rput (XLT (5 % 2)) XLT_STATUS_STORE_WAIT 0
    let y := { base.queue 5 with head := (x.head + len) % 2 ^ x.sqLog2 }
    let moved := base.setQueue 5 y
    let o := chooseHalf moved y m
    let m := { m with half := o.1, both := o.2.1 }
    headerCheck h = 0 ∧ x.head + len ≤ 2 ^ x.sqLog2 ∧ len ≤ ringDiff x.sqLog2 x.tail x.head ∧ seqNewer (leAt h 4 4) x.lastAccepted = true ∧
      cqFree c 5 = true ∧ paramsOk c (newCmd 5 m.bytes c) = true ∧ paramsOk moved m = true ∧ preWaitOk c x (newCmd 5 m.bytes c) = true ∧ m.preWaitField = 0 ∧
      m.runs ≤ 2097152 ∧ m.runs ≤ storeFree c (5 % 2) ∧ y.chainBroken = false ∧ accessErr moved m = none ∧ (∀ p ∈ m.pages, p.bad = none) ∧
      r.2.findCmd (.queue 5) m.seq = none := by decide

theorem witness_FetchPastTheRingIsMalformed : let c := (ringS 10 id (fun b => putLe b 3 1 3)).toChip
    let x := c.queue 5
    let h := slotBytes c x x.head
    c.up = true ∧ x.st = .enabled ∧ x.head ≠ x.tail ∧ (c.cmdsOf (.queue 5)).length < 64 ∧ cqFree c 5 = true ∧ headerCheck h = 0 ∧
      x.head + leAt h 3 1 > 2 ^ x.sqLog2 ∧ seqNewer (leAt h 4 4) x.lastAccepted = true := by decide

/-- A LAUNCH accepted by queue 5, which has entered the scoreboards. -/
def launchCmd : Cmd := { cmdOf 5 10 3 1 [(3, 1, 3)] with phase := .accepted, issued := false, sbIn := true }

theorem witness_ReadyCommandsIssue : let c := (withCmd launchCmd (fun c => c.setQueue 5 q16)).toChip
    let m := launchCmd
    let e := epochEngines m { half := 0 } c
    (Instr.commandIssue (.queue 5) 10).wf = true ∧ c.findCmd (.queue 5) 10 = some m ∧ c.up = true ∧ ready c m = true ∧ outranked c m = false ∧
      fenceFails c m = none ∧ choose m c = (.go { half := 0 }, c) ∧ epochCheck m e c = .inl false ∧ m.epoch = 0 := by decide

theorem witness_FinishedCommandsRetire : let m := { cmdOf 5 10 6 3 [] with phase := .finished, res := some doneRes }
    let c := (withCmd m (fun c => c.setQueue 5 q16)).toChip
    (Instr.commandRetire (.queue 5) 10).wf = true ∧ c.findCmd (.queue 5) 10 = some m ∧ m.res = some doneRes ∧ m.phase = .finished ∧ m.txns = [] ∧
      m.op ≠ 5 ∧ m.op ≠ 0xA := by decide

theorem witness_FinishedCommandsRetire_raise : (Instr.priorityRaise 5 10).wf = true ∧
    ready (withCmd launchCmd (fun c => c.setQueue 5 q16)).toChip launchCmd = true := by decide

theorem witness_FinishedCommandsRetire_ring :
    let c := (upS (fun c => c.setQueue 5 { q16 with cqLog2 := 4, cqCount := 15, cqPages := [{ vp := 0, frame := 62914559, ok := true }] })).toChip
    let x := c.queue 5
    pageAddr x.cqPages (bits x.cqBase 0 57 + 32 * (x.cqCount % 2 ^ x.cqLog2)) = some (62914559 * 65536 + 480) ∧
      backed (62914559 * 65536 + 480) 32 = true ∧ c.host.dir = [] := by decide

/-! ### Witnesses: queue control and the Yoke -/

/-- A queue descriptor for queue 5, with rings of 16 and 64 slots in context 1, in a table at page 1. -/
def descS : State := upS (fun c =>
  let c := ((c.rput MOD MOD_QUE_TABLE_BASE_BASE 1).rput MOD MOD_CTX_TABLE_BASE_BASE 2)
  c.wrMem (4096 + 64 * 5) (fields 64 [(16, 1, 4), (17, 1, 6), (18, 2, 1), (24, 4, 77)]))

theorem witness_FreshEnableResetsTheQueue : parseQueue 5 descS.toChip =
    some { sqLog2 := 4, cqLog2 := 6, ctx := 1, lastDbSeq := 77, lastAccepted := 77, doneThrough := 77, curHalf := 1 } := by decide

/-- A running module with a queue-control command of queue 2 in execution: opcode op, with parameters. -/
def qcS (op : Nat) (ps : List (Nat × Nat × Nat)) (f : Chip → Chip) : State := withCmd (cmdOf 2 10 0xE op ps) f

theorem witness_QueueControlActs_nop : (Instr.nop (.queue 2) 10).wf = true ∧
    control (.queue 2) 10 0xE 0 (qcS 0 [] id).toChip = some (cmdOf 2 10 0xE 0 []) := by decide

theorem witness_QueueControlActs_enable : (Instr.qEnable (.queue 2) 10).wf = true ∧
    control (.queue 2) 10 0xE 1 (qcS 1 [(16, 4, 5), (26, 1, 1)] (fun c => c.setQueue 5 { st := .error })).toChip = some (cmdOf 2 10 0xE 1 [(16, 4, 5), (26, 1, 1)]) ∧
    (cmdOf 2 10 0xE 1 [(16, 4, 5), (26, 1, 1)]).par 26 1 ≠ 0 ∧ (cmdOf 2 10 0xE 1 [(16, 4, 5)]).par 26 1 = 0 ∧
    ((qcS 1 [] (fun c => c.setQueue 5 { st := .error })).toChip.queue 5).st = .error ∧ ((qcS 1 [] id).toChip.queue 5).st ≠ .error := by decide

theorem witness_QueueControlActs_disable : (Instr.qDisable (.queue 2) 10).wf = true ∧
    control (.queue 2) 10 0xE 2 (qcS 2 [(16, 4, 5)] id).toChip = some (cmdOf 2 10 0xE 2 [(16, 4, 5)]) ∧ ((qcS 2 [] id).toChip.queue 5).st = .disabled := by decide

theorem witness_QueueControlActs_abort : let m := cmdOf 2 10 0xE 3 [(16, 4, 5), (20, 4, 8)]
    let c := (withCmd m (fun c => { c.setQueue 5 q16 with cmds := [m, cmdOf 5 8 6 5 []] })).toChip
    let d := (withCmd m (fun c => c.setQueue 5 { q16 with window := [⟨8, some doneRes⟩] })).toChip
    (Instr.abortSeq (.queue 2) 10).wf = true ∧ control (.queue 2) 10 0xE 3 c = some m ∧ c.findCmd (.queue 5) (m.par 20 4) = some (cmdOf 5 8 6 5 []) ∧
      control (.queue 2) 10 0xE 3 d = some m ∧ d.findCmd (.queue 5) (m.par 20 4) = none ∧ seenStatus 5 (m.par 20 4) d = some 0 ∧
      seenStatus 5 (m.par 20 4) (withCmd m id).toChip = none := by decide

theorem witness_QueueControlActs_abortQueue : let m := cmdOf 2 10 0xE 4 [(16, 4, 5)]
    (Instr.abortQueue (.queue 2) 10).wf = true ∧ control (.queue 2) 10 0xE 4 (withCmd m id).toChip = some m ∧
      ∀ t ∈ (withCmd m id).toChip.cmdsOf (.queue m.qField), cmdIs m.car m.seq t = true := by decide

/-- A context in a state. -/
def ctxIn (n : Nat) (st : CtxState) (c : Chip) : Chip := c.setCtx n { c.ctx n with st := st }

theorem witness_QueueControlActs_preempt : let m := cmdOf 2 10 0xE 5 [(24, 2, 7)]
    (Instr.ctxPreempt (.queue 2) 10).wf = true ∧ control (.queue 2) 10 0xE 5 (withCmd m (ctxIn 7 .active)).toChip = some m ∧
      ((withCmd m (ctxIn 7 .active)).toChip.ctx 7).st = .active ∧ ((withCmd m id).toChip.ctx 7).st ≠ .active := by decide

theorem witness_QueueControlActs_resume : let m := cmdOf 2 10 0xE 6 [(24, 2, 7)]
    (Instr.ctxResume (.queue 2) 10).wf = true ∧ control (.queue 2) 10 0xE 6 (withCmd m (ctxIn 7 .preempted)).toChip = some m ∧
      ((withCmd m (ctxIn 7 .preempted)).toChip.ctx 7).st = .preempted ∧ ((withCmd m id).toChip.ctx 7).st ≠ .preempted := by decide

theorem witness_QueueControlActs_reset : let m := cmdOf 2 10 0xE 7 [(24, 2, 7)]
    (Instr.ctxReset (.queue 2) 10).wf = true ∧ control (.queue 2) 10 0xE 7 (withCmd m id).toChip = some m := by decide

theorem witness_QueueControlActs_invalidate : let m := cmdOf 2 10 0xE 8 [(24, 2, 7)]
    (Instr.xltInvalidate (.queue 2) 10).wf = true ∧ control (.queue 2) 10 0xE 8 (withCmd m id).toChip = some m ∧ m.par 40 8 = 0 ∧
      (cmdOf 2 10 0xE 8 [(24, 2, 7), (40, 8, 65536)]).par 40 8 ≠ 0 := by decide

theorem witness_DisablingAnEmptyQueueEnds : let m := cmdOf 2 10 0xE 2 [(16, 4, 5)]
    let c := (withCmd m (fun c => c.setQueue 5 q16)).toChip
    control (.queue 2) 10 0xE 2 c = some m ∧ (c.queue m.qField).st ≠ .disabled ∧ c.cmdsOf (.queue m.qField) = [] ∧ (c.queue m.qField).dups = [] := by decide

theorem witness_QctlOperationsAct : (upS id).toChip.up = true ∧ (upS id).toChip.rget MOD MOD_QCTL_RESULT_STATE ≠ 1 ∧
    (Instr.qctlEnable (.pcx 0) 5).wf = true ∧ (Instr.qctlDisableStop (.pcx 0) 5).wf = true ∧ (Instr.qctlDisableDrain (.pcx 0) 5).wf = true ∧
    (upS id).toChip.rget MOD MOD_CTX_TABLE_BASE_BASE = 0 ∧ descS.toChip.rget MOD MOD_CTX_TABLE_BASE_BASE ≠ 0 ∧
    descS.toChip.rget MOD MOD_QUE_TABLE_BASE_BASE ≠ 0 ∧ ((withQ id).toChip.queue 5).st ≠ .disabled ∧ ((upS id).toChip.queue 5).st = .disabled ∧
    (upS (fun c => c.rput MOD MOD_QCTL_RESULT_STATE 1)).toChip.rget MOD MOD_QCTL_RESULT_STATE = 1 := by decide

/-- A module in which semaphore 3 of East is x, with a Yoke command of queue 5, on an awake instance. -/
def yokS (op : Nat) (x : Sem) (ps : List (Nat × Nat × Nat)) : State :=
  withCmd (cmdOf 5 10 6 op ([(16, 4, 3)] ++ ps)) (fun c => c.setSem 0 3 x)

/-- An owned semaphore of context 1. -/
def mine (v : Nat) : Sem := { value := v, owner := 1, owned := true }

/-- The command of yokS runs, is local, and meets a good semaphore. -/
def yokRuns (op : Nat) (x : Sem) (ps : List (Nat × Nat × Nat)) : Bool :=
  let m := cmdOf 5 10 6 op ([(16, 4, 3)] ++ ps)
  let c := (yokS op x ps).toChip
  decide (running 5 10 6 op c = some m) && !m.remote && !(c.sem m.semH m.semNo).bad && decide (c.sem m.semH m.semNo = x)

theorem witness_AddAndSubSaturate : yokRuns 1 (mine (2 ^ 48 - 1)) [(24, 6, 1)] = true ∧ yokRuns 2 (mine 0) [(24, 6, 1)] = true ∧
    semPermit .write (mine 0) 1 true = true ∧ (Instr.add 5 10).wf = true ∧ (Instr.sub 5 10).wf = true ∧ 2 ^ 48 - 1 + 0 ≤ 2 ^ 48 - 1 ∧
    (mine (2 ^ 48 - 1)).value + 1 > 2 ^ 48 - 1 ∧ 1 > (mine 0).value := by decide

theorem witness_SemaphoreOperationsAct : yokRuns 3 (mine 7) [(24, 6, 9)] = true ∧ yokRuns 4 (mine 7) [(32, 6, 7)] = true ∧ yokRuns 4 (mine 7) [(32, 6, 8)] = true ∧
    yokRuns 7 {} [] = true ∧ yokRuns 7 (mine 7) [] = true ∧ yokRuns 8 (mine 7) [] = true ∧ yokRuns 8 {} [] = true ∧ yokRuns 3 {} [] = true ∧
    semPermit .write (mine 7) 1 true = true ∧ semPermit .write {} 1 true = false ∧ (Instr.setSem 5 10).wf = true ∧ (Instr.cset 5 10).wf = true ∧
    (Instr.claim 5 10).wf = true ∧ (Instr.release 5 10).wf = true ∧ (cmdOf 5 10 6 4 [(32, 6, 7)]).semCompare = (mine 7).value ∧
    (cmdOf 5 10 6 4 [(32, 6, 8)]).semCompare ≠ (mine 7).value := by decide

theorem witness_WatchesRegisterOrFire : yokRuns 5 (mine 7) [(24, 6, 7)] = true ∧ yokRuns 5 (mine 7) [(24, 6, 8)] = true ∧
    yokRuns 6 (mine 7) [(24, 6, 7), (40, 1, 2)] = true ∧ yokRuns 6 (mine 7) [(24, 6, 8), (40, 1, 2)] = true ∧ semPermit .watch (mine 7) 1 true = true ∧
    (yokS 5 (mine 7) []).toChip.watchFree 0 ≠ 0 ∧ targetOk (cmdOf 5 10 6 6 [(24, 6, 7), (40, 1, 2)]) (yokS 6 (mine 7) []).toChip = true ∧
    (cmdOf 5 10 6 5 [(24, 6, 7)]).semValue ≤ (mine 7).value ∧ (mine 7).value < (cmdOf 5 10 6 5 [(24, 6, 8)]).semValue ∧
    (Instr.wait 5 10).wf = true ∧ (Instr.watch 5 10).wf = true := by decide

/-- A barrier of context 1 with slots 0 and 5. -/
def bar0 : Barrier := { owner := 1, mask := 33, hold := false, fabric := false, parent := none, gen := 1, entries := [], waiting := [] }

/-- A module with barrier object 0 of East, and a barrier command of queue 5. -/
def barS (op : Nat) (b : Option Barrier) (ps : List (Nat × Nat × Nat)) : State := withCmd (cmdOf 5 10 6 op ps) (fun c => c.setBar 0 b)

theorem witness_BarrierCommandsAct : let runs := fun op b ps => decide (running 5 10 6 op (barS op b ps).toChip = some (cmdOf 5 10 6 op ps)) && decide ((barS op b ps).toChip.bar 0 = b)
    runs 9 none [] = true ∧ runs 9 (some bar0) [] = true ∧ runs 0xA none [] = true ∧ runs 0xA (some bar0) [] = true ∧ runs 0xA (some bar0) [(48, 4, 8192)] = true ∧
      runs 0xB none [] = true ∧ runs 0xB (some bar0) [] = true ∧ runs 0xB (some { bar0 with entries := [⟨5, .cmd (.queue 5) 9, some 1⟩] }) [] = true ∧
      (cmdOf 5 10 6 9 []).remote = false ∧ (cmdOf 5 10 6 9 []).barK = 0 ∧ bitAt bar0.mask (cmdOf 5 10 6 0xA []).barSlot = true ∧
      bitAt bar0.mask (cmdOf 5 10 6 0xA [(48, 4, 8192)]).barSlot = false ∧ (Instr.barDefine 5 10).wf = true ∧ (Instr.barEnter 5 10).wf = true ∧
      (Instr.barRetire 5 10).wf = true := by decide

/-- A watch message of East's semaphore 3 on its way. -/
def msgS (tk tg : Nat) (f : Chip → Chip) : State := upS (fun c => f { c with yoke := { c.yoke with msgs := [⟨3, 9, 0, tk, tg, 0, 1, 5, 10⟩] } })

theorem witness_WatchMessagesArrive : (Instr.yokeMessageDeliver 0).wf = true ∧ (msgS 1 5 id).yoke.msgs[0]? = some ⟨3, 9, 0, 1, 5, 0, 1, 5, 10⟩ ∧
    (((msgS 1 5 (fun c => c.setQueue 5 q16)).toChip.queue 5).st ≠ .disabled) ∧ vectorLost (msgS 3 0 id).toChip 0 = false ∧
    (msgS 4 0 id).yoke.msgs[0]? = some ⟨3, 9, 0, 4, 0, 0, 1, 5, 10⟩ := by decide

theorem all_places (n : Nat) (w : Watch) (c : Chip) : ({ c with yoke := { watches := List.replicate n w } } : Chip).watchFree w.half = 65536 - n := by
  show 65536 - ((List.replicate n w).filter (fun x => x.half == w.half)).length = 65536 - n
  rw [List.filter_replicate]
  simp

theorem witness_WatchesRegisterOrFire_full (c : Chip) :
    ({ c with yoke := { watches := List.replicate 65536 ⟨0, 4, 1, 1, .wait (.queue 6) 1⟩ } } : Chip).watchFree 0 = 0 :=
  (all_places 65536 ⟨0, 4, 1, 1, .wait (.queue 6) 1⟩ c).trans rfl

/-! ### Witnesses: engines -/

/-- An operand descriptor at offset o of a command: a Seedbed address, format, DIMS 2, two dimensions and a row stride. -/
def opd (o addr fmt d0 d1 s1 : Nat) : List (Nat × Nat × Nat) :=
  [(o, 8, addr), (o + 8, 1, 1), (o + 9, 1, fmt), (o + 11, 1, 2), (o + 12, 4, d0), (o + 16, 4, d1), (o + 24, 4, s1)]

/-- A context descriptor with a Seedbed segment of 64 KiB on each half. -/
def segDesc : CtxDesc := ⟨0, 0, 0, 4, true, 3, 3072, 0, [0, 0], [1, 1], 0, 0, []⟩

/-- A longer command of queue 5 in execution. -/
def bigCmd (cls op : Nat) (ps : List (Nat × Nat × Nat)) : Cmd :=
  { cmdOf 5 10 cls op [] with bytes := fields 384 ([(0, 2, op + 4096 * cls), (3, 1, 6), (4, 4, 10)] ++ ps) }

/-- A module whose East Seedbed holds bytes from address 0 on, with an engine command of context 1 on awake instances. -/
def engS (m : Cmd) (bs : List Byte) : State :=
  withCmd m (fun c => ((woken ⟨1, 0, 0⟩ (woken ⟨2, 0, 0⟩ (woken ⟨3, 0, 0⟩ c))).setCtx 1 { c.ctx 1 with st := .active, held := some segDesc }).wrSbd 0 0 bs)

/-- A COPY of four bytes from 0 to 64, a FILL of the byte 0x5A at 64, a GATHER and a SCATTER of one row, and an ATOMIC ADD. -/
def copyCmd : Cmd := bigCmd 4 1 (opd 16 0 12 4 1 64 ++ opd 64 64 12 4 1 64)
def fillCmd : Cmd := bigCmd 4 2 (opd 16 64 12 4 1 64 ++ [(48, 8, 0x5A)])
def gatherCmd (op : Nat) : Cmd := bigCmd 4 op (opd 16 0 12 4 1 64 ++ opd 64 128 10 1 1 64 ++ opd 96 64 12 4 1 64)
def atomicCmd : Cmd := bigCmd 4 5 ([(16, 8, 0), (25, 1, 10), (27, 1, 1), (28, 4, 0)])

theorem witness_UnitsRunInOrder : let o := dmaOp copyCmd
    o.tiles = 1 ∧ (unitsDone (o.tiles + 1) o.unit (o.tiles + 1) copyCmd (engS copyCmd [1, 2, 3, 4]).toChip).isSome = true := by decide

/-- A mover command runs, and its units can be done. -/
def moves (m : Cmd) (op : Nat) : Bool :=
  let c := (engS m [1, 2, 3, 4]).toChip
  let c1 := c.cycles [(DMA m.half m.inst, DMA_CYC_STALL_EXT)]
  decide (running 5 10 4 op c = some m) && decide (m.prog = 0) && !m.upset && !(c.engine m.engine).upset &&
    (unitsDone ((dmaOp m).tiles + 1) (dmaOp m).unit ((dmaOp m).tiles + 1) m c1).isSome

theorem witness_MoverCommandsComplete : moves copyCmd 1 = true ∧ moves fillCmd 2 = true ∧ moves (gatherCmd 3) 3 = true ∧ moves (gatherCmd 4) 4 = true ∧
      running 5 10 4 5 (engS atomicCmd []).toChip = some atomicCmd ∧
      (let t := parseDesc atomicCmd.bytes 16 0
       (unitsDone (t.count + 1) atomUnit (t.count + 1) atomicCmd (engS atomicCmd []).toChip).isSome = true) := by decide

/-- A GEMM of a 1 by 1 by 2 INT8 product into INT32 on East's array alone, a GEMM_SPLIT and an ATTN with nothing to compute. -/
def gemmCmd : Cmd := bigCmd 1 1 (opd 16 0 12 2 1 64 ++ opd 64 64 12 2 1 64 ++ opd 96 128 10 1 1 64 ++ [(192, 1, 2)])
def splitCmd : Cmd := bigCmd 1 2 [(192, 1, 2)]
def attnCmd : Cmd := bigCmd 1 3 []

theorem witness_FurrowCommandsComplete_gemm : let c := (engS gemmCmd [3, 5]).toChip
    let f := furOp gemmCmd
    running 5 10 1 1 c = some gemmCmd ∧ gemmCmd.prog = 0 ∧ gemmCmd.upset = false ∧ gemmCmd.both = false ∧ ((furCycles 0 c).draw.2.engine ⟨1, 0, 0⟩).upset = false ∧
      (Instr.gemm 5 10).wf = true ∧ f.units false = 1 ∧
      (unitsDone (f.units false) (furUnit f false) (f.units false) gemmCmd (furCycles 0 c).draw.2).isSome = true := by decide

theorem witness_FurrowCommandsComplete_attn : let c := (engS attnCmd []).toChip
    let a := attnOp attnCmd
    running 5 10 1 3 c = some attnCmd ∧ (Instr.attn 5 10).wf = true ∧ a.decode = false ∧ (unitsDone a.units (attnUnit a) a.units attnCmd c).isSome = true := by decide

/-- A CHAIN of no stage over one lane. -/
def chainCmd : Cmd := bigCmd 2 1 (opd 16 0 10 1 1 64 ++ opd 96 64 10 1 1 64)

theorem witness_ChainsComplete : let c := (engS chainCmd [1]).toChip
    let k := chainOf chainCmd
    running 5 10 2 1 c = some chainCmd ∧ (Instr.chain 5 10).wf = true ∧ (unitsDone k.steps (chainUnit k) k.steps chainCmd c).isSome = true := by decide

/-- A Gleaner command with nothing in its REGION. -/
def glnCmd (op : Nat) : Cmd := bigCmd 5 op []

/-- A Gleaner command runs, and its units can be done. -/
def gleans (op : Nat) : Bool :=
  let m := glnCmd op
  let c := (engS m []).toChip
  let g := glnOp m
  decide (running 5 10 5 op c = some m) && !m.upset && !(c.engine ⟨5, 0, 0⟩).upset && (unitsDone (g.parts.length + 1) (g.unit g.parts) (g.parts.length + 1) m c).isSome

theorem witness_GleanerCommandsComplete : ∀ op ∈ [1, 2, 3, 4, 5, 6, 7, 8, 9, 10, 11], gleans op = true := by decide

theorem witness_OutcomesFollowTheNotes : copyCmd.tandem = false ∧ copyCmd.reruns = 0 ∧ copyCmd.notes = {} := by decide

theorem witness_StoredElementsReadBack : (parseDesc copyCmd.bytes 16 0).space = 1 := by decide

/-! ### Witnesses: the Drill engine -/

theorem witness_FurrowCommandsComplete_split : let c := (engS splitCmd []).toChip
    let f := furOp splitCmd
    running 5 10 1 2 c = some splitCmd ∧ (Instr.gemmSplit 5 10).wf = true ∧
      (unitsDone (f.units true) (furUnit f true) (f.units true) splitCmd (furCycles 0 c).draw.2).isSome = true := by decide

/-- A LAUNCH of one block of 2 threads with 16 registers and 64 bytes of local memory. -/
def lCmd : Cmd := bigCmd 3 1 [(36, 4, 1), (40, 4, 1), (44, 4, 1), (48, 2, 2), (50, 2, 1), (52, 2, 1), (54, 1, 1), (55, 1, 1), (56, 1, 1), (57, 1, 16), (60, 4, 64)]

/-- Its only group: two lanes, at address 0. -/
def lGroup : DGroup := { idx := 0, sched := 0, slot := 0, pcs := List.replicate 32 0, exited := 2 ^ 32 - 4 }

/-- The launch with its block on core 0. -/
def lLaunch (g : DGroup) : DLaunch :=
  { q := 5, seq := 10, half := 0, ctx := 1, args := [], next := 1, cores := 1, blocks := [{ idx := 0, core := 0, groups := [g] }] }

/-- Page tables at 0x10000 that map the first GiB of context 1 to frames from 0 on. -/
def tables (c : Chip) : Chip := ((c.wrMem 0x10000 (leBytes 8 0x11001)).wrMem 0x11000 (leBytes 8 0x12001)).wrMem 0x12000 (leBytes 8 7)

/-- A module whose launch has a group that comes to an instruction word. -/
def drlS (w : Nat) (g : DGroup) : State :=
  withCmd lCmd (fun c =>
    let c := (woken ⟨3, 0, 0⟩ c).setCtx 1 { c.ctx 1 with st := .active, held := some { segDesc with ptRoot := 0x10000 } }
    let c := (tables c).wrMem 0 (leBytes 8 w)
    { c with drill := { launches := [lLaunch g] } })

/-- The group of drlS. -/
def grp0 : Grp := ⟨5, 10, 0, 0⟩

/-- The group comes to a legal instruction of an opcode. -/
def comes (w op : Nat) (f : DCtx → Bool) : Bool :=
  match drillGroup grp0 (drlS w lGroup).toChip with
  | some (m, l, b, y) => (match y.next with
    | some (pc, lanes) => (match drillFetch m l b y pc lanes (drlS w lGroup).toChip with
      | (.inl x, d) => x.i.base == op && x.i.legal (launchRegs m) && !(d.engine ⟨3, 0, 0⟩).upset && f x
      | _ => false)
    | none => false)
  | none => false

/-- An instruction word: opcode, D, A, B, C, guard p7, MOD and immediate. -/
def word (op d a b c mod imm : Nat) : Nat := op + 2 ^ 8 * d + 2 ^ 16 * a + 2 ^ 24 * b + 2 ^ 32 * c + 2 ^ 40 * 7 + 2 ^ 44 * mod + 2 ^ 48 * imm

theorem witness_DrillInstructionsCompute : ∀ op ∈ [1, 2, 3, 4, 5, 6, 7, 8, 9, 10, 11, 12, 13, 14, 15, 0x3C, 0x3D, 0x3E, 0x3F, 0x20, 0x21, 0x22, 0x23, 0x24,
    0x25, 0x26, 0x28, 0x29, 0x2A, 0x2B, 0x2C, 0x2D, 0x2E, 0x30], comes (word op 2 4 6 8 0 0) op (fun x => !x.i.isImm && x.i.imm ≤ 19) = true := by decide

theorem witness_DrillInstructionsCompute_cvt : comes (word 0x38 2 4 0 0 4 0) 0x38 (fun _ => true) = true ∧ (Instr.cvt grp0).wf = true := by decide

/-- The places of an access of the group's lanes are all found. -/
def placed (w : Nat) (wr : Bool) : Bool := comes w (w % 256) (fun x =>
  match drillPlaces x x.i.size wr x.on (drlS w lGroup).toChip with
  | (.inl _, _) => true
  | _ => false)

/-- A load's lanes meet no word of bad parity. -/
def loads (w : Nat) : Bool := comes w 0x40 (fun x =>
  match drillPlaces x x.i.size false x.on (drlS w lGroup).toChip with
  | (.inl l, d) => (l.foldl (fun r a => loadLane1 x a r) (x.g, none, rangeErr x l (d.rcount x.base DRL_REQUESTS (lineCount l)))).2.1.isNone
  | _ => false)

theorem witness_DrillMovesAndBranches : loads (word 0x40 2 4 0 (2 + 8 * 0xA) 0 0) = true ∧ placed (word 0x40 2 4 0 (2 + 8 * 0xA) 0 0) false = true ∧ placed (word 0x41 0 4 6 (2 + 8 * 0xA) 0 0) true = true ∧
    placed (word 0x42 2 4 6 (8 * 0xA) 0 0x4000) true = true ∧
    (∀ op ∈ [0x48, 0x49, 0x4A, 0x50, 0x51, 0x52, 0x53], comes (word op 2 4 6 0 0 0) op (fun x => decide (x.on = [0, 1]) &&
      x.lanes.all (fun i => !x.g.predBad x.i.p i) && x.on.all (fun i => !(x.g.pair x.i.a i).poison) && !x.b.latch) = true) := by decide

theorem witness_DrillWritesOnlyItsDestination : comes (word 1 2 4 6 0 0 0) 1 (fun x => decide (x.lanes.Nodup) && x.lanes.all (fun i => decide (i < 32)) &&
    x.g.pcs.length == 32) = true := by decide

theorem witness_LaunchesBegin_launch : let c := (engS lCmd []).toChip
    running 5 10 3 1 c = some lCmd ∧ c.launch 5 10 = none ∧ (Instr.launch 5 10).wf = true ∧ lCmd.par 32 4 = 0 ∧
      (xlatePages lCmd.half lCmd.ctx (c.ctxDesc lCmd.ctx).ptRoot (needRange (bits (lCmd.par 24 8) 0 57) 0 0xFF false []) c).1 = [] := by decide

theorem witness_LaunchesBegin_block : let l : DLaunch := { lLaunch lGroup with next := 0, cores := 0, blocks := [] }
    let c := (withCmd lCmd (fun c => { c.setEngine ⟨3, 0, 0⟩ { c.engine ⟨3, 0, 0⟩ with awake := true, paid := true } with drill := { launches := [l] } })).toChip
    c.launch 5 10 = some l ∧ planCluster c l lCmd = some [0] ∧ clusterBlock lCmd 0 0 = 0 ∧ placesFirst c l = false ∧ (readyCore 0 0 c).1 = true ∧ (Instr.blockStart 5 10 0 0).wf = true := by decide

theorem witness_LaunchesBegin_illegal : (match drillGroup grp0 (drlS 0 lGroup).toChip with
    | some (m, l, b, y) => (match y.next with
      | some (pc, lanes) => (match drillFetch m l b y pc lanes (drlS 0 lGroup).toChip with
        | (.inl x, d) => !x.i.legal (launchRegs m) && !(d.engine ⟨3, 0, 0⟩).upset
        | _ => false)
      | none => false)
    | none => false) = true ∧ (Instr.illegalInstruction grp0).wf = true := by decide

/-! ### Witnesses: the fabric -/

/-- A collective of one member over four INT8 elements, and the module it runs on, with a group table at page 1. -/
def collCmd (op : Nat) : Cmd := bigCmd 7 op (opd 16 0 12 4 1 64 ++ opd 64 64 12 4 1 64 ++ [(96, 2, 3)])
def collState : Coll := { group := 3, cseq := 1, op := 1, cmd := some (.queue 5, 10) }
def collS (op : Nat) : State := upS (fun c =>
  let c := ((c.rput AIH AIH_GROUP_BASE_CUR_BASE 1).wrMem (4096 + 32 * 3) (fields 32 [(0, 4, 1), (8, 8, 65536), (17, 1, 1)])).setCtx 1 { c.ctx 1 with st := .active, held := some segDesc }
  { c.wrSbd 0 0 [1, 2, 3, 4] with cmds := [collCmd op], fab := { c.fab with colls := [collState] } })

/-- A collective of an opcode can begin. -/
def begins (op : Nat) : Bool :=
  let c := (collS op).toChip
  let m := collCmd op
  let d := collSrc m
  (running 5 10 7 op c == some m) && (c.fab.colls.find? (fun x => decide (x.cmd = some (m.car, m.seq)) && !x.begun) == some collState) &&
    (match groupOf c m (m.par 96 2) with
     | some g => g.n == 1 && (partsBadWord c m [(d, 0, d.rowBytes)] == none) &&
       (let r := takeAll [(d, 0, d.rowBytes)] m c
        match ((r.2.putCmd r.1).putColl { collState with begun := true, got := [(g.me, [], opBytes c m d 0 d.rowBytes)] }).coll 3 1 with
        | some y => (y.lost == none) && (y.fail == none) && !y.mismatch
        | none => false)
     | none => false)

theorem witness_CollectivesBegin : ∀ op ∈ [1, 2, 3, 4, 5], begins op = true := by decide

theorem witness_CollectiveSumsOfIntegersAreExact : (0 : Nat) < 1 ∧ ([5, -7] : List Int) ≠ [] ∧ (∀ i ∈ ([5, -7] : List Int), -2147483648 ≤ i ∧ i < 2147483648) := by decide

/-- An origin of rank 2, which has had an answer to its transaction 8; a window 4 that it may write; a semaphore that it may add to. -/
def origin2 : Origin := ⟨2, 6, 0, [⟨8, some ⟨0, 8, 0, [], [], false, false, false⟩, 3⟩]⟩
def win4 : Win := ⟨1, true, 0, 0, [], 64, 7, 0, 5⟩
def orgS : State := upS (fun c => { c with fab := { c.fab with origins := [origin2], wins := [(4, win4)] }, yoke := { c.yoke with sems := [(0, { fabric := true })] } })

/-- A write of rank 2. -/
def wr2 (seq win : Nat) : RemoteAccess := ⟨2, 6, 0, seq, 0, win, [(0, 2)], [7, 8], 8, false, 0, 0, 0, 0⟩

theorem witness_ArrivingTransactionsAreAnswered_access : let c := orgS.toChip
    c.origin 2 = some origin2 ∧ c.up = true ∧ (Instr.remoteAccessArrival (wr2 8 4)).wf = true ∧ (Instr.remoteAccessArrival (wr2 9 4)).wf = true ∧
      (origin2.seen.find? (fun x => x.seq == 8)).isSome = true ∧ origin2.seen.find? (fun x => x.seq == 9) = none ∧
      accessOk (wr2 9 4) c = some win4 ∧ accessOk (wr2 9 5) c = none ∧ (wr2 9 4).kind = 0 := by decide

/-- A Yoke frame of rank 2: opcode op on semaphore 0. -/
def yk2 (op seq job : Nat) : YokeFrame := ⟨2, 6, job, seq, op, 0, 1, 0, 0, 0, 0, 0, 0, 0⟩

theorem witness_ArrivingTransactionsAreAnswered_yoke : (Instr.remoteYokeOperation (yk2 1 9 0)).wf = true ∧ (Instr.remoteYokeOperation (yk2 5 9 0)).wf = true ∧
    (Instr.remoteYokeOperation (yk2 1 8 0)).wf = true ∧ (remoteYoke (yk2 1 9 1) orgS.toChip).1.isSome = true ∧ (remoteYoke (yk2 5 9 0) orgS.toChip).1 = none := by decide

/-- A collective message of rank 2. -/
def msg2 (seq job : Nat) : CollMsg := ⟨2, 6, job, seq, 3, 1, 1, 0, 1, 0, 0, [], [1]⟩

theorem witness_ArrivingTransactionsAreAnswered_collective : (Instr.collectiveMessage (msg2 9 1)).wf = true ∧ (Instr.collectiveMessage (msg2 8 0)).wf = true ∧
    (msg2 9 1).job ≠ orgS.toChip.rget AIH AIH_JOB_CUR_JOB ∧ (msg2 9 0).job = orgS.toChip.rget AIH AIH_JOB_CUR_JOB := by decide

/-- A module with one transaction outstanding, of tile 0 of a command of queue 5, sent again n times. -/
def txn1 (n : Nat) : Txn := ⟨1, 2, 30, .cmd (.queue 5) 10 0, .access (wr2 30 4), n, false, false⟩
def txnS (cls n : Nat) : State := withCmd (cmdOf 5 10 cls 1 []) (fun c =>
  let c := (c.rput AIH AIH_RANK_BASE_CUR_BASE 1).wrMem (4096 + 8) (leBytes 4 (2 ^ 31 + 6))
  { c with fab := { c.fab with txns := [txn1 n] } })
def rep1 (status : Nat) (busy : Bool) (seq : Nat) : Reply := ⟨2, seq, status, List.replicate 16 0, [], false, false, busy⟩

theorem witness_OriginsSeeEveryTransactionEnd_reply : let f := fun (r : Reply) => (txnS 4 0).toChip.fab.txns.find? (fun t => t.rank == r.rank && t.seq == r.seq)
    (Instr.transactionReply (rep1 0 false 30)).wf = true ∧ (Instr.transactionReply (rep1 5 false 30)).wf = true ∧ (Instr.transactionReply (rep1 0 true 30)).wf = true ∧
      f (rep1 0 false 31) = none ∧ f (rep1 0 false 30) = some (txn1 0) ∧
      (dropTxn 1 (txnS 4 0).toChip).findCmd (.queue 5) 10 = some (cmdOf 5 10 4 1 []) ∧
      (dropTxn 1 (txnS 6 0).toChip).findCmd (.queue 5) 10 = some (cmdOf 5 10 6 1 []) ∧ (cmdOf 5 10 4 1 []).cls ≠ 6 ∧ (cmdOf 5 10 6 1 []).cls = 6 := by decide

theorem witness_OriginsSeeEveryTransactionEnd_timeout : let c := (txnS 4 0).toChip
    c.up = true ∧ c.fab.txns.find? (fun t => t.id == 1) = some (txn1 0) ∧ (Instr.unreachableReply 1).wf = true ∧ (Instr.e2eTimeout 1).wf = true ∧
      (txn1 0).resends < e2eResends c ∧ (rankNode c 2).isSome = true ∧ e2eResends c ≤ (txn1 7).resends := by decide

/-- Window commands for a Seedbed region of an amount of bytes. -/
def winC (op len : Nat) : Cmd := bigCmd 7 op (opd 16 0 12 len 1 64 ++ [(48, 2, 4), (50, 1, 3)])
def winFrame : Cmd := bigCmd 7 0x10 ([(16, 8, 65536), (25, 1, 12), (27, 1, 1), (28, 4, 64)] ++ [(48, 2, 4), (50, 1, 3)])

theorem witness_OriginsSeeEveryTransactionEnd_winOpen : let c := (engS (winC 0x10 64) []).toChip
    let big := (engS (winC 0x10 (2 ^ 28)) []).toChip
    winCmd 5 10 0x10 c = some (winC 0x10 64) ∧ (Instr.winOpen 5 10).wf = true ∧ c.window ((winC 0x10 64).par 48 2) = none ∧
      (parseDesc (winC 0x10 64).bytes 16 0).space = 1 ∧ winCmd 5 10 0x10 big = some (winC 0x10 (2 ^ 28)) ∧
      ceilDiv ((parseDesc (winC 0x10 (2 ^ 28)).bytes 16 0).d0 * (parseDesc (winC 0x10 (2 ^ 28)).bytes 16 0).w) 8 >
        ((big.ctxDesc 1).seg ((parseDesc (winC 0x10 (2 ^ 28)).bytes 16 0).sbdHalf 0)).2 ∧
      winCmd 5 10 0x10 (engS winFrame []).toChip = some winFrame ∧ (parseDesc winFrame.bytes 16 0).space ≠ 1 ∧
      ({ c with fab := { c.fab with wins := [(4, win4)] } }).window 4 ≠ none := by decide

theorem witness_OriginsSeeEveryTransactionEnd_winClose : let m := winC 0x11 64
    let c := (engS m []).toChip
    let u := { m with priv := false }
    let d := { (engS u []).toChip with fab := { (engS u []).toChip.fab with wins := [(4, win4)] } }
    winCmd 5 10 0x11 c = some m ∧ (Instr.winClose 5 10).wf = true ∧ m.priv = true ∧ winCmd 5 10 0x11 d = some u ∧ u.priv = false ∧
      d.window (u.par 48 2) = some win4 ∧ win4.ctx = u.ctx ∧ (engS u []).toChip.window (u.par 48 2) = none := by decide

/-! ### Witnesses: Surveyor -/

/-- A Surveyor command over frame 12, in execution, and its module. -/
def srvCmd (op prog : Nat) (ps : List (Nat × Nat × Nat)) : Cmd :=
  { cmdOf 5 10 8 op ([(16, 8, 0), (24, 8, 65536)] ++ ps) with prog := prog, pages := [{ vp := 0, ok := true, frame := 12 }] }
def srvS (m : Cmd) : State := withCmd m id

theorem witness_SurveyorCommandsAct_flags : surveyCmd 5 10 1 (srvS (srvCmd 1 0 [])).toChip = some (srvCmd 1 0 []) ∧ (Instr.hint 5 10).wf = true ∧
    surveyCmd 5 10 3 (srvS (srvCmd 3 0 [])).toChip = some (srvCmd 3 0 []) ∧ (Instr.unpin 5 10).wf = true ∧ (rangeFrames (srvCmd 1 0 [])).length = 1 := by decide

theorem witness_SurveyorCommandsAct_pin : let m := fun (r : Nat) => srvCmd 2 0 [(33, 1, r)]
    let d := fun (r : Nat) => (pinFrames r [12] 0 (srvS (m r)).toChip).2
    let home := ((srvS (m 0)).toChip.place 12).region
    (Instr.pin 5 10).wf = true ∧ (m home).prog = 0 ∧ surveyCmd 5 10 2 (srvS (m home)).toChip = some (m home) ∧
      (pinFrames home [12] 0 (srvS (m home)).toChip).1 = 1 ∧ ((d home).pflags 12).pin = some home ∧ ((d home).place 12).region = home ∧
      (pinFrames ((home + 1) % 4) [12] 0 (srvS (m ((home + 1) % 4))).toChip).1 = 1 ∧ ((d ((home + 1) % 4)).place 12).region ≠ (home + 1) % 4 := by decide

theorem witness_SurveyorCommandsAct_period : (Instr.surveyPeriodEnd [⟨3, 8, 9⟩]).wf = true ∧ (upS id).toChip.up = true := by decide

/-- An exchange of frames 12 and 5000000, by passes made, started or in its window. -/
def mig1 (st win : Bool) (passes : Nat) : Mig :=
  { id := 1, why := .promote, a := 12, b := some 5000000, dst := (upS id).toChip.place 5000000, half := 0, started := st, window := win, passes := passes }
def migS (m : Mig) : State := upS (fun c => { c with srv := { c.srv with migs := [m] } })

theorem witness_SurveyorCommandsAct_migration : let m := mig1 false false 0
    let c := (migS m).toChip
    c.srv.migs.find? (fun m => m.id == 1) = some m ∧ (Instr.migrationStart 1).wf = true ∧ c.up = true ∧ mayStart c m = true ∧ m.b = some 5000000 ∧
      c.srv.sr = [] ∧ c.srv.waking = [] ∧ (Instr.migrationCopyPass 1 64 64).wf = true ∧ (Instr.migrationCopyPass 1 65 3).wf = true ∧
      (migS (mig1 true false 3)).toChip.srv.migs.find? (fun m => m.id == 1) = some (mig1 true false 3) ∧ (mig1 true false 3).window = false := by decide

theorem witness_MigrationsKeepContents_exchange : let m := mig1 true true 1
    let c := (migS m).toChip
    (Instr.migrationWindow 1 900 0).wf = true ∧ c.wf = true ∧ c.quiet = true ∧ c.srv.migs.find? (fun m => m.id == 1 && m.window) = some m ∧
      m.dst = c.place 5000000 ∧ m.bad = [] ∧ m.why ≠ .retire ∧ c.hedge.slice = none ∧ c.host.dir = [] := by decide

theorem witness_MigrationsKeepContents_group : (Instr.seedbedGroupMoveEnd 1).wf = true ∧
    (upS (fun c => { c with bank := { c.bank with moving := [(1, 5, true)] } })).toChip.bank.moving.find? (fun e => e.1 == 1) = some (1, 5, true) := by decide

/-! ### Witnesses: management -/

/-- A management command of PCX 0's mailbox in execution, with 128 bytes of parameters. -/
def mgCmd (op : Nat) (ps : List (Nat × Nat × Nat)) : Cmd :=
  { bigCmd 0xF op ps with car := .mailbox 0 }
def mgS (m : Cmd) (f : Chip → Chip) : State := withCmd m f

/-- The row of a management command finds it. -/
def finds15 (m : Cmd) (f : Chip → Chip) : Bool := control (.mailbox 0) 10 0xF m.op (mgS m f).toChip == some m

/-- The module before READY, with a command in execution. -/
def earlyS (m : Cmd) : State := atS (fun c => { c with cmds := [m] })

theorem witness_ManagementReadsAnswer_answer : (mgCmd 1 []).queue? = none ∧ (bigCmd 0xF 1 [(16, 8, 4096), (24, 4, 8)]).queue? = some 5 ∧
    (bigCmd 0xF 1 [(16, 8, 4096), (24, 4, 8)]).par 16 8 ≠ 0 ∧ pageAddr (bigCmd 0xF 1 []).pages 4096 = none := by decide

theorem witness_ManagementReadsAnswer_reads : (Instr.identify (.mailbox 0) 10).wf = true ∧ finds15 (mgCmd 1 []) id = true ∧
    (Instr.regRead (.mailbox 0) 10).wf = true ∧ finds15 (mgCmd 2 [(32, 8, 0x10004), (40, 2, 2)]) id = true ∧
    control (.mailbox 0) 10 0xF 2 (earlyS (mgCmd 2 [(32, 8, 8), (40, 2, 1)])).toChip = some (mgCmd 2 [(32, 8, 8), (40, 2, 1)]) ∧
    (earlyS (mgCmd 2 [(32, 8, 8)])).toChip.up = false ∧ (mgCmd 2 [(32, 8, 8)]).par 32 8 < 0x10000 := by decide

theorem witness_ManagementReadsAnswer_rings : let ring := fun (c : Chip) =>
      { c with gov := { c.gov with next := [3, 0, 0], rings := [[(7, List.replicate 16 0)], [], []] } }
    let m := mgCmd 4 [(32, 1, 0), (36, 4, 1)]
    (Instr.telemetryRead (.mailbox 0) 10).wf = true ∧ finds15 m ring = true ∧
      back32 (nth (mgS m ring).toChip.gov.next (m.par 32 1) 0) (m.par 36 4) = some 2 := by decide

theorem witness_ManagementReadsAnswer_log : let rec_ : LogRec := ⟨1, 5, 1, 0, 3, 8, 0, 0, 0, 0⟩
    let put := fun (c : Chip) => { c.rput MGT MGT_EVENTS 2 with log := { c.log with recs := [rec_] } }
    let m := mgCmd 0xC [(36, 4, 1)]
    (Instr.eventLogRead (.mailbox 0) 10).wf = true ∧ finds15 m put = true ∧
      (match back32 ((mgS m put).toChip.rget MGT MGT_EVENTS) (m.par 36 4) with
       | some d => (([rec_].drop ([rec_].length - min d [rec_].length)).take 31).length == 1
       | none => false) = true := by decide

theorem witness_ManagementCommandsAct_sets : (Instr.regWrite (.mailbox 0) 10).wf = true ∧ finds15 (mgCmd 3 [(32, 8, 0x10004), (40, 2, 1)]) id = true ∧
    (mgS (mgCmd 3 []) id).toChip.up = true ∧ (Instr.limitSet (.mailbox 0) 10).wf = true ∧ finds15 (mgCmd 5 [(32, 4, 9000)]) id = true ∧
    (Instr.stileSet (.mailbox 0) 10).wf = true ∧ finds15 (mgCmd 0xB [(32, 1, 1)]) id = true := by decide

/-- A slice test of a Drill core, waiting or begun. -/
def slice1 (begun : Bool) : SliceTest := { car := .mailbox 0, seq := 10, kind := 2, half := 0, index := 3, begun := begun }

theorem witness_ManagementCommandsAct_slice : let m := mgCmd 6 [(32, 1, 2), (33, 1, 0), (34, 2, 3)]
    let c := (mgS m id).toChip
    let none_ := (mgS m (fun c => c.setEngine ⟨3, 0, 3⟩ { c.engine ⟨3, 0, 3⟩ with service := false })).toChip
    (Instr.selftestSlice (.mailbox 0) 10).wf = true ∧ finds15 m id = true ∧ c.hedge.slice = none ∧ stHeld (slice1 false) c = false ∧
      stFree (slice1 false) c = true ∧ stFree (slice1 false) none_ = false := by decide

theorem witness_ManagementCommandsAct_sliceEnd : let o : SliceOutcome := ⟨0, 7, 7, 0, 0, 20⟩
    (Instr.sliceTestEnd o).wf = true ∧ o.result < 2 ∧ (slice1 true).begun = true ∧ (slice1 true).back = none ∧ (slice1 true).kind < 9 ∧
      stVerdict 2 { o with result := 0 } = 0 := by decide

theorem witness_ManagementCommandsAct_full : let m := mgCmd 7 []
    let c := (mgS m id).toChip
    let d := answer m (fields 8 [(0, 4, c.draw.1)]) c.draw.2
    (Instr.selftestFull (.mailbox 0) 10).wf = true ∧ finds15 m id = true ∧ quiescent m c = true ∧ (d.findCmd (.mailbox 0) 10).isSome = true ∧
      quiescent m (c.setQueue 5 { st := .enabled }) = false := by decide

theorem witness_ManagementCommandsAct_firmware : let st := mgCmd 8 []
    let run := { st with prog := 1 }
    let act := mgCmd 9 [(44, 1, 1), (45, 1, 1)]
    let good := fun (c : Chip) => setSlotOk 1 1 1 c
    (Instr.fwStage (.mailbox 0) 10).wf = true ∧ finds15 st id = true ∧ st.prog = 0 ∧ finds15 run id = true ∧ run.prog ≠ 0 ∧ run.par 32 8 = 0 ∧
      (Instr.fwActivate (.mailbox 0) 10).wf = true ∧ finds15 act id = true ∧ slotOk (mgS act id).toChip 1 1 = false ∧ finds15 act good = true ∧
      slotOk (mgS act good).toChip 1 1 = true ∧ (mgS act good).toChip.hedge.act = none ∧ act.par 44 1 ≠ 0 := by decide

theorem witness_ManagementCommandsAct_fail : let a : Activation := { car := .mailbox 0, seq := 10, unit := 1, image := 1 }
    (Instr.fwActivationFail).wf = true ∧ (upS (fun c => { c with hedge := { c.hedge with act := some a } })).toChip.hedge.act = some a ∧ a.back = false := by decide

theorem witness_ManagementCommandsAct_reset : let m := mgCmd 0xA [(32, 1, 0)]
    let on := fun (c : Chip) => c.rput CPLX HST_CPLX_STATUS_STATE 1
    let e := mgCmd 0xA [(32, 1, 1), (33, 1, 3), (34, 1, 0)]
    (Instr.resetFunction (.mailbox 0) 10).wf = true ∧ finds15 m id = true ∧ (mgS m id).toChip.rget CPLX HST_CPLX_STATUS_STATE ≠ 1 ∧
      finds15 m on = true ∧ (mgS m on).toChip.rget CPLX HST_CPLX_STATUS_STATE = 1 ∧ finds15 e id = true ∧ e.par 32 1 = 1 := by decide

/-! ### Witnesses: epochs, faults and registers -/

theorem witness_CommitsFollowTheEpoch : let c := (upS (fun c => woken ⟨2, 0, 0⟩ (c.rput AIH AIH_TOPO_X_SIZE 1))).toChip
    (Instr.modCfgCommit (.pcx 0) 2).wf = true ∧ c.up = true ∧ 2 % 65536 = nextEpoch (c.rget MOD MOD_CFG_EPOCH_CURRENT) ∧
      c.rget MOD MOD_CFG_STATUS_MIXED = 0 ∧ topoOk c = true ∧ nextEpoch (c.rget MOD MOD_CFG_EPOCH_CURRENT) ≠ 7 % 65536 ∧
      ⟨2, 0, 0⟩ ∈ allEngines ∧ (c.engine ⟨2, 0, 0⟩).awake = true ∧ (c.engine ⟨2, 0, 0⟩).service = true ∧
      (Instr.engineAdoptEpoch ⟨2, 0, 0⟩).wf = true ∧ (c.engine ⟨2, 0, 0⟩).adopted = true := by decide

theorem witness_MixedWindowCloses : let f := fun (n : Nat) => (upS (fun c => (c.setEngine ⟨2, 0, 0⟩ { c.engine ⟨2, 0, 0⟩ with adopted := false }).rput MOD MOD_CFG_STATUS_PENDING n)).toChip
    ((f 1).engine ⟨2, 0, 0⟩).adopted = false ∧ (f 1).rget MOD MOD_CFG_STATUS_PENDING = 1 ∧ (Instr.engineAdoptEpoch ⟨2, 0, 0⟩).wf = true ∧
      (f 1).busy ⟨2, 0, 0⟩ = false ∧ (f 3).rget MOD MOD_CFG_STATUS_PENDING = 1 + 2 ∧ ((f 3).engine ⟨2, 0, 0⟩).adopted = false := by decide

/-- A fault that waits, the module that has it with a ring of 2^4 entries at page base, and a command stalled on it in a context with a
fault timeout. -/
def flt : PFault := ⟨9, 1, 3, 1, 3, 0, 5, 10, 4, 0, 0, 0, 0, false⟩
def fltS (base count : Nat) : State := withCmd { cmdOf 5 10 4 1 [] with stall := some 9 } (fun c =>
  let c := (((c.rput MOD MOD_FR_CFG_LOG2 4).rput MOD MOD_FR_BASE_BASE base).rput MOD MOD_FR_COUNT_COUNT count).rput MOD MOD_XLT_CTL_DEF_TIMEOUT 5
  { c with xlt := { c.xlt with pending := [flt] } })

theorem witness_FaultCommandsAct : let c := (fltS 1 0).toChip
    c.up = true ∧ c.pendingFaults.find? (fun x => x.id == 9) = some flt ∧ c.pendingFaults.find? (fun x => x.id == 8) = none ∧
      (Instr.faultRetry (.pcx 0) 9).wf = true ∧ (Instr.faultDecline (.pcx 0) 9).wf = true ∧ (Instr.modFrConsumed (.pcx 0) 1).wf = true ∧
      (Instr.faultRingWrite 9).wf = true ∧ c.xlt.pending.find? (fun x => x.id == 9 && !x.written) = some flt ∧ frHeld c < frEntries c ∧ frUsable c = true ∧
      frUsable (fltS 0 0).toChip = false ∧ frHeld (fltS 1 16).toChip ≥ frEntries (fltS 1 16).toChip ∧
      (Instr.faultTimeout (.queue 5) 10).wf = true ∧ (c.findCmd (.queue 5) 10).isSome = true ∧ (faultTimeoutNs 1 c).isSome = true ∧
      ({ cmdOf 5 10 4 1 [] with stall := some 9 } : Cmd).stall.isSome = true := by decide

theorem witness_StoredWritesFollowTheAccess : let r : RegDef := ⟨0, false, [⟨0, 1, .rw, .val 0⟩, ⟨4, 8, .w1c, .val 0⟩]⟩
    (⟨4, 8, .w1c, .val 0⟩ : RegField) ∈ r.flds ∧ Block.mgt ≠ .out ∧ r.flds.Pairwise (fun a b => a.lo + a.w ≤ b.lo ∨ b.lo + b.w ≤ a.lo) ∧
      (∀ g ∈ r.flds, g.lo + g.w ≤ 64) := by decide

/-- A write finds a register of a kind. -/
def found (path : Path) (o size : Nat) (c : Chip) (t : Place → RegDef → Bool) : Bool :=
  c.hedge.standby && pathLive path c && decide (o < 0x10000000) && accessFits o size && (match targetOf path o c with
    | .reg p r => t p r
    | _ => false)

/-- A running module with standby power, changed. -/
def onS (f : Chip → Chip) : State := upS (fun c => f { c with hedge := { c.hedge with standby := true, mcs := [true, true] } })

theorem witness_RegisterCommandsAct_write : let c := (onS id).toChip
    found .smbus (PWR + PWR_LIMIT_LIMIT.off) 4 c (fun _ r => !r.wide) = true ∧ (Instr.registerWrite .smbus (PWR + PWR_LIMIT_LIMIT.off) 4 1).wf = true ∧
      found .smbus (MOD + MOD_CTX_TABLE_BASE_BASE.off) 8 c (fun _ r => r.wide) = true ∧
      found .smbus (MOD + MOD_CTX_TABLE_BASE_BASE.off) 4 c (fun _ r => r.wide) = true := by decide

theorem witness_RegisterCommandsAct_named : let c := (onS id).toChip
    (Instr.pcxRetrain .smbus 1).wf = true ∧ found .smbus (PCX 1 + 4) 4 c (fun p r => !r.wide && decide (p.blk = .pcx) && r.off == 4 && p.inst == 1) = true ∧
      (Instr.aihPortRetrain .smbus 2).wf = true ∧ found .smbus (AIHP 2 + 4) 4 c (fun p r => !r.wide && decide (p.blk = .aihp) && r.off == 4 && p.inst == 2) = true ∧
      (c.reg (AIHP 2 + 4)).toNat < 8 ∧
      (Instr.mgtAlertClear .smbus).wf = true ∧ found .smbus (MGT + 8) 4 c (fun p r => !r.wide && decide (p.blk = .mgt) && r.off == 8) = true ∧
      (Instr.opticsFaultClear .smbus 2).wf = true ∧ found .smbus (PWR + 0x34) 4 c (fun p r => !r.wide && decide (p.blk = .pwr) && r.off == 0x34) = true ∧
      (Instr.wakeReq .smbus).wf = true ∧ c.hedge.standby = true ∧ (Instr.aihTimeSet .smbus 9).wf = true ∧ c.up = true := by decide

theorem witness_RegisterCommandsAct_root : (onS (fun c => c.rput AIH AIH_TIME_CTL_ROOT 1)).toChip.rget AIH AIH_TIME_CTL_ROOT = 1 ∧
    (onS (fun c => c.rput AIH AIH_TIME_CTL_ROOT 0)).toChip.rget AIH AIH_TIME_CTL_ROOT ≠ 1 := by decide

theorem witness_RegisterCommandsAct_rest : let c := (onS (fun c => c.rput START MGT_STRAP_HOST_HOLD 1)).toChip
    (Instr.mgtHostRelease .smbus).wf = true ∧ c.rget START MGT_STRAP_HOST_HOLD = 1 ∧ c.rget CPLX HST_CPLX_STATUS_STATE = 0 ∧ c.host.resetting = false ∧
      (Instr.imageWindowWrite .smbus 8 77).wf = true ∧ pathLive .smbus c = true ∧
      (let d := (onS (fun c => c.rput START MGT_FW_WIN_CTL_IMAGE 1)).toChip
       let u := d.rget START MGT_FW_WIN_CTL_UNIT
       u ≠ 3 ∧ d.rget START MGT_FW_WIN_CTL_BASE * 256 + 8 + 4 ≤ fwLimit u ∧ d.rget MGT (runFld u) ≠ d.rget START MGT_FW_WIN_CTL_IMAGE) ∧
      (Instr.pcxFlush .smbus 0).wf = true := by decide

/-! ### Witnesses: the management paths -/

/-- An IDENTIFY packet as a path brings it. -/
def idReq (seq : Nat) : List Byte :=
  let h := fields 16 [(0, 2, 0xF001), (3, 1, 1), (4, 4, seq)]
  let h := fields 16 [(0, 2, 0xF001), (3, 1, 1), (4, 4, seq), (14, 1, crc8 (h.take 14))]
  h ++ List.replicate 48 0

theorem witness_PathCommandsAct_smbus : let c := (onS id).toChip
    let busy := (onS (fun c => c.setPath .smbus { c.path .smbus with busy := true })).toChip
    let rep := (onS (fun c => c.setPath .smbus { c.path .smbus with reply := [1, 2, 3], cursor := 1 })).toChip
    (Instr.smbusRequest true (idReq 4)).wf = true ∧ pathsServed c = true ∧ (c.path .smbus).busy = false ∧ leAt (idReq 4) 3 1 = 1 ∧ (idReq 4).length = 64 * 1 ∧
      (Instr.smbusRequest false (idReq 4)).wf = true ∧ (busy.path .smbus).busy = true ∧ pathsServed busy = true ∧ pathsServed rep = true ∧
      (rep.path .smbus).busy = false ∧ ((rep.path .smbus).reply.drop (rep.path .smbus).cursor).take 255 ≠ [] ∧
      ((c.path .smbus).reply.drop (c.path .smbus).cursor).take 255 = [] := by decide

theorem witness_PathCommandsAct_mailbox : let c := (onS (fun c => ((c.rput (PCX 1) PCX_STATUS_ROLE 1).rput (PCX 1) PCX_STATUS_LINK_UP 1))).toChip
    (Instr.mailboxSubmit 1).wf = true ∧ isEp c 1 = true ∧ pcxUp c 1 = true ∧ (c.path (.mailbox 1)).busy = false ∧ pathsServed c = true := by decide

/-- A module whose allow list admits 10.0.0.0/8, and a datagram from an address. -/
def netS : State := onS (fun c => ((((c.rput NET MGT_NET_CTL_ENABLE 1).rput NET ⟨0x100, 0, 32⟩ (10 * 2 ^ 24)).rput NET ⟨0x110, 0, 8⟩ 8).rput NET ⟨0x110, 8, 1⟩ 1))
def dgram (src : Nat) : Datagram := ⟨false, src, 5, 6000, fields 16 [(0, 2, 0x4E4B), (2, 1, 1), (4, 4, 77)] ++ idReq 4⟩

theorem witness_PathCommandsAct_net : let c := netS.toChip
    let d := dgram (10 * 2 ^ 24 + 9)
    (Instr.mgtDatagram d).wf = true ∧ pathsServed c = true ∧ c.rget NET MGT_NET_CTL_ENABLE = 1 ∧ d.v6 = decide (c.rget NET MGT_NET_CTL_IPV6 = 1) ∧
      allows c d.v6 d.src 0 = true ∧ envelopeOk d.bytes = true ∧ (d.bytes.drop 16).length ≥ 16 ∧ (d.bytes.drop 16).length = 64 * leAt (d.bytes.drop 16) 3 1 ∧
      (Instr.mgtDatagram (dgram (11 * 2 ^ 24))).wf = true ∧ (∀ n < 16, allows c false (11 * 2 ^ 24) n = false) := by decide

theorem witness_PathCommandsAct_arp : let c := netS.toChip
    let d := (onS (fun c => (c.rput (AIHP 6) AIH_PORT_STATUS_STATE 4).rput (AIHP 6) AIH_PORT_STATUS_USE 3)).toChip
    let r : ArpReq := ⟨9, false, netAddr c, 5⟩
    let q : ArpReq := ⟨6, false, encapAddr d, 5⟩
    (Instr.arpRequest r).wf = true ∧ r.port = 9 ∧ r.v6 = decide (c.rget NET MGT_NET_CTL_IPV6 = 1) ∧ (Instr.arpRequest q).wf = true ∧ q.port < 9 ∧
      portState d 6 = 4 ∧ d.rget (AIHP 6) AIH_PORT_STATUS_USE = 3 ∧ q.v6 = decide (d.rget AIH AIH_ENCAP_CUR_IPV6 = 1) := by decide

theorem witness_PathCommandsAct_repeats : let c := (onS (fun c => c.setPath .smbus { c.path .smbus with last := some 9 })).toChip
    headerCheck ((idReq 4).take 16) = 0 ∧ (idReq 4).length = 64 * leAt (idReq 4) 3 1 ∧ (c.path .smbus).last = some 9 ∧ seqNewer (leAt (idReq 4) 4 4) 9 = false ∧
      (c.path .smbus).window.find? (fun y => y.seq == leAt (idReq 4) 4 4) = none ∧ (Instr.moduleWithdrawn).wf = true := by decide

/-! ### Witnesses: the PCI Express ports -/

/-- Root port 0 with its link up; window n from bus address base with rights, of 64 KiB, onto a place of frame space. -/
def rootOn (c : Chip) : Chip := c.rput (PCX 0) PCX_STATUS_LINK_UP 1
def winOn (n base place rights : Nat) (c : Chip) : Chip :=
  let put := fun (o lo w v : Nat) (c : Chip) => c.rput (PCX 0) (winFld n o lo w) v
  put 0 16 48 (base / 65536) (put 0x10 0 26 1 (put 8 16 32 (place / 65536) (put 0x14 1 3 rights (put 0x14 0 1 1 c))))
def rootS : State := onS (fun c => ((winOn 1 0x20000 0x1F400000000000 1 (winOn 0 0x10000 0x30000 7 (rootOn c))).rput (PCX 0) PCX_MSI_BASE_ENABLE 1).rput (PCX 0) PCX_MSI_BASE_BASE 0x50)

/-- What a request of n bytes finds: 0 no window, 1 no right, 2 nothing backed, 3 its target. -/
def hitKind (c : Chip) (a n right : Nat) : Nat :=
  match inHit c 0 a n right with
  | .noWin => 0 | .rights _ _ => 1 | .unbacked _ _ => 2 | .ok _ _ => 3

/-- An inbound request of port 0 from requester 7. -/
def inReq (addr size : Nat) (data : List Byte) : InboundReq := ⟨0, 7, 3, 0, 0, addr, size, data, false, 0, 5, 0⟩

theorem witness_InboundRequestsAct_write : let c := rootS.toChip
    let r := inReq 0x10000 4 [1, 2, 3, 4]
    let d := c.rcount (PCX 0) PCX_IN_WR_BYTES 4
    inLive c r = true ∧ isEp c 0 = false ∧ (Instr.pcxInboundWrite r).wf = true ∧ msiPage d 0 0x10000 = false ∧ hitKind d 0x10000 4 1 = 3 ∧
      (Instr.pcxInboundWrite (inReq 0x50000 4 [1, 2, 3, 4])).wf = true ∧ msiPage d 0 0x50000 = true ∧
      (Instr.pcxInboundWrite (inReq 0x90000 4 [1, 2, 3, 4])).wf = true ∧ msiPage d 0 0x90000 = false ∧ hitKind d 0x90000 4 1 = 0 ∧
      (Instr.pcxMsiReceive 0 7 0x50000 3).wf = true := by decide

theorem witness_InboundRequestsAct_read : let d := drainReq 0 7 rootS.toChip
    let far := (winOn 1 0x20000 0xFFFFFFFF0000 1 d)
    (Instr.pcxInboundRead (inReq 0x10000 4 [])).wf = true ∧ hitKind d 0x10000 4 0 = 3 ∧ hitKind d 0x90000 4 0 = 0 ∧
      hitKind (winOn 0 0x10000 0x30000 2 d) 0x10000 4 0 = 1 ∧ hitKind far 0x20000 4 0 = 2 ∧
      (Instr.pcxInboundAtomic (inReq 0x10000 8 [])).wf = true ∧ hitKind d 0x10000 8 2 = 3 ∧ 0x10000 % 8 = 0 ∧
      (atomAt 0x30000 (tlpAop 0) .int32 64 5 0 (d.touch 0x30000)).2.2.2 = none := by decide

theorem witness_PortsComeAndGo : let e := (onS (fun c => (rootOn c).rput (PCX 0) PCX_STATUS_ROLE 1)).toChip
    let c := (onS id).toChip
    isEp e 0 = true ∧ pcxUp e 0 = true ∧ (Instr.pcxFlrFunction0 0).wf = true ∧ (Instr.pcxFlrFunction1 0).wf = true ∧ (Instr.pcxEndpointReset 0).wf = true ∧
      e.hedge.standby = true ∧ (Instr.pcxLinkDown 0).wf = true ∧ e.cmds.all (fun m => decide (m.car ≠ .mailbox 0)) = true ∧
      (Instr.pcxLinkUp 0 6 16).wf = true ∧ pcxUp c 0 = false ∧ (Instr.pcxErrorMessage 0).wf = true ∧ pcxUp rootS.toChip 0 = true ∧
      isEp rootS.toChip 0 = false ∧ (Instr.portResetTimeout false 0).wf = true ∧ (Instr.portResetTimeout true 0).wf = true := by decide

/-- The host complex runs. -/
def hostUp (c : Chip) : Chip := c.rput CPLX HST_CPLX_STATUS_STATE 1
def outReq (a : Nat) (wr : Option (List Byte)) : OutReq := ⟨1, a, 4, wr⟩

theorem witness_OutboundRequestsAct_request : let c := (onS (fun c => hostUp (rootOn c))).toChip
    let d := hartRuns 1 c
    (Instr.pcxOutboundRequest (outReq 0x400000001000 none)).wf = true ∧ (Instr.pcxOutboundRequest (outReq 0x400000001000 (some [1, 2, 3, 4]))).wf = true ∧
      outTarget 0x400000001000 = some (0, false, 0x1000) ∧ hostOn 1 c = true ∧ pcxUp d 0 = true ∧ (freeTag (d.port 0)).isSome = true ∧
      (Instr.pcxOutboundRequest (outReq 0x480000001000 none)).wf = true ∧ (outTarget 0x480000001000).map (fun x => (x.1, x.2.1)) = some (0, true) ∧
      isEp (hartRuns 1 (onS (fun c => hostUp (c.rput (PCX 0) PCX_STATUS_ROLE 1))).toChip) 0 = true ∧ pcxUp (hartRuns 1 (onS hostUp).toChip) 0 = false := by decide

theorem witness_OutboundRequestsAct_completion : let o : OutPend := ⟨3, 1, 0x400000001000, 4⟩
    let c := (onS (fun c => rootOn (c.setPcx 0 { c.port 0 with outs := [o] }))).toChip
    (c.port 0).outs.find? (fun o => o.tag == 3) = some o ∧ (Instr.pcxOutboundCompletion 0 3 0 [1, 2, 3, 4]).wf = true ∧ pcxUp c 0 = true ∧
      (Instr.pcxOutboundCompletion 0 3 1 []).wf = true ∧ (Instr.pcxCompletionTimeout 0 3).wf = true := by decide

theorem witness_OutboundRequestsAct_config : let e := (onS (fun c => (rootOn c).rput (PCX 0) PCX_STATUS_ROLE 1)).toChip
    let f := e.rput (PCX 0) PCX_STATUS_FLR 1
    (Instr.pcxConfigRequest 0 0 0 none).wf = true ∧ (Instr.pcxConfigRequest 0 1 0 none).wf = true ∧ e.hedge.standby = true ∧ pcxUp e 0 = true ∧ isEp e 0 = true ∧
      e.up = true ∧ e.rget (PCX 0) PCX_STATUS_FLR = 0 ∧ f.rget (PCX 0) PCX_STATUS_FLR = 1 ∧ pcxUp f 0 = true ∧ isEp f 0 = true := by decide

/-! ### Witnesses: the links -/

/-- A running module of node 6 whose port 3 is in a state, enabled, used inside the fabric and powered, with its firmware's epoch 5. -/
def portS (st : Nat) (f : Chip → Chip) : State := onS (fun c =>
  let c := ((((c.rput (AIHP 3) AIH_PORT_STATUS_STATE st).rput (AIHP 3) AIH_PORT_CTL_ENABLE 1).rput (AIHP 3) AIH_PORT_CTL_USE 2).rput PWR PWR_OPTICS_STATUS_POWERED 511).rput AIH AIH_NODE_ID_NODE 6
  f { c with hedge := { c.hedge with fw := [(67108880, 5), (67108881, 0), (67108882, 0), (67108883, 0)] } })

theorem witness_LinkCommandsAct_train : let c := (portS 0 id).toChip
    (Instr.linkSignalDetect 3).wf = true ∧ portState c 3 = 0 ∧ portReady (c.rput (AIHP 3) AIH_PORT_STATUS_LOS 0) 3 = true ∧
      (Instr.linkFecLock 3).wf = true ∧ portState (portS 1 id).toChip 3 = 1 ∧ portReady (portS 1 id).toChip 3 = true ∧
      (portS 1 id).toChip.rget (AIHP 3) AIH_PORT_STATUS_USE ≠ 3 ∧
      (portS 1 (fun c => c.rput (AIHP 3) AIH_PORT_STATUS_USE 3)).toChip.rget (AIHP 3) AIH_PORT_STATUS_USE = 3 ∧
      (Instr.linkLossOfSignal 3).wf = true ∧ portState (portS 4 id).toChip 3 ∈ [2, 3, 4] ∧ (Instr.concordSend 3).wf = true ∧
      portState (portS 2 id).toChip 3 = 2 ∧ (Instr.linkFailed 3).wf = true ∧ portState (portS 2 id).toChip 3 ∈ [1, 2, 3] := by decide

/-- The port's own record, and one of another version. -/
def recAs (v : Nat) : List Byte :=
  let b := sliceBytes (putLe (concordRec (portS 2 id).toChip 3) 2 1 v) 0 60
  b ++ leBytes 4 (crc32c b)

/-- The port with a record taken in agrees with it. -/
def agrees (v : Nat) : Bool :=
  let c := (portS 2 id).toChip
  let r := recAs v
  agree (concordRec ((((c.setAport 3 { c.aport 3 with peer := r }).rput (AIHP 3) AIH_PORT_PEER_NODE (leAt r 8 3)).rput (AIHP 3) AIH_PORT_PEER_PORT
    (leAt r 11 1)).rput (AIHP 3) AIH_PORT_PEER_VALID 1) 3) r

theorem witness_LinkCommandsAct_concord : recCrc (recAs 1) = true ∧ recCrc (recAs 2) = true ∧ agrees 1 = true ∧ agrees 2 = false ∧
    (Instr.concordReceive 3 ⟨recAs 1⟩).wf = true ∧ (Instr.concordReceive 3 ⟨recAs 2⟩).wf = true := by decide +kernel

/-- A frame for node 6. -/
def frm (seq : Nat) (crc : Bool) : LinkFrame := ⟨seq, crc, true, 0, 9, 6, .unreach 9 4⟩
def upPort (n : Nat) : State := portS 4 (fun c => c.setAport 3 { c.aport 3 with rxSeq := 100, sinceAck := n, replays := n })

theorem witness_LinkCommandsAct_frames : let c := (upPort 5).toChip
    portState c 3 = 4 ∧ c.rget (AIHP 3) AIH_PORT_STATUS_USE ≠ 3 ∧ (Instr.frameReceive 3 (frm 100 true)).wf = true ∧ (Instr.frameReceive 3 (frm 100 false)).wf = true ∧
      (frm 100 true).dst = c.node ∧ (c.aport 3).rxSeq = 100 ∧ (c.aport 3).sinceAck < 63 ∧ ((upPort 63).toChip.aport 3).sinceAck = 63 ∧
      (Instr.frameReceive 3 (frm 99 true)).wf = true ∧ (frm 99 true).seq + 1 = (c.aport 3).rxSeq ∧ (Instr.ackReceive 3 4).wf = true ∧
      (Instr.nakReceive 3 4).wf = true ∧ (Instr.replayTimeout 3).wf = true ∧ (Instr.ackTimer 3).wf = true ∧ (c.aport 3).sinceAck > 0 ∧
      (Instr.linkRetrain 3).wf = true ∧ ((upPort 16).toChip.aport 3).replays ≥ 16 := by decide

theorem witness_LinkCommandsAct_time : let c := (portS 4 (fun c => ({ c with time := 50000 } : Chip).rput AIH AIH_TIME_CTL_ROOT 0)).toChip
    c.rget AIH AIH_TIME_CTL_ROOT = 0 ∧ timePort c = some 3 ∧ (∀ t ∈ [50300, 49700, 60000, 40000], (Instr.timeExchange ⟨3, t, 2⟩).wf = true) ∧ c.time = 50000 ∧
      (Instr.timeUnsureTimeout).wf = true ∧ (Instr.stileChange).wf = true ∧ (c.rput AIH AIH_STILE_MOVING 1).rget AIH AIH_STILE_MOVING = 1 ∧
      (Instr.bypassReq).wf = true ∧ (Instr.bypassReqRelease).wf = true := by decide

/-! ### Witnesses: power -/

theorem witness_GovernorCommandsAct : let c := (onS (fun c =>
      let c := c.rput PWR PWR_LIMIT_CUR_FIXED_FREQ 1
      { c with gov := { c.gov with waiting := [(.core 0 1, 12800)], accN := 2 } })).toChip
    let m : PowerMeas := ⟨5000, 0, 0⟩
    let d := floorCheck (noteSource m c)
    c.hedge.standby = true ∧ (Instr.governorTick m).wf = true ∧ d.rget MGT MGT_STATUS_OUTPUTS = 0 ∧ govHeld d = false ∧ d.gov.waiting ≠ [] ∧
      d.rget PWR PWR_LIMIT_CUR_FIXED_FREQ = 1 ∧ (Instr.junctionSenseTick 106 60).wf = true ∧ (Instr.thermalTrip 3 118).wf = true ∧ c.hedge.trip = false ∧
      tripAt 3 118 = true ∧ (Instr.memoryTempPoll ⟨false, 0, 3⟩ 60).wf = true ∧ c.hedge.step < 8 ∧ (Instr.telemetrySample ⟨20, 30⟩).wf = true ∧
      0 < c.gov.next.length ∧ 0 < c.gov.accN := by decide

theorem witness_PowerCommandsAct_pins : let c := (onS id).toChip
    (Instr.asleep).wf = true ∧ c.hedge.standby = true ∧ c.cmds.any (fun m => m.holds) = false ∧ c.gov.bal = 0 ∧ c.gov.waiting = [] ∧
      (Instr.wakeNFall).wf = true ∧ (Instr.wakeNRise).wf = true ∧ (Instr.staggerEnd).wf = true ∧ (Instr.gridHintRise).wf = true ∧
      (Instr.gridHintFall).wf = true := by decide

theorem witness_PowerCommandsAct_optics : let on := (onS (fun c => c.rput PWR PWR_OPTICS_STATUS_POWERED 511)).toChip
    let owed := (onS (fun c =>
      let c := ((c.rput PWR PWR_OPTICS_STATUS_FAULT 8).rput PWR PWR_OPTICS_CTL_ON 511).rput PWR PWR_OPTICS_STATUS_POWERED 0
      { c with hedge := { c.hedge with step := 9, optics := [3] } })).toChip
    (Instr.opticsSwitchLimit 3).wf = true ∧ opticsOn on 3 = true ∧ (Instr.opticsRetry 3 true).wf = true ∧ retryOwed 3 owed = true ∧
      owed.hedge.optics.contains 3 = true := by decide

theorem witness_PowerCommandsAct_gates : let all := [(⟨1, 0, 0⟩ : Engine), ⟨2, 1, 3⟩, ⟨3, 0, 2⟩, ⟨0x15, 1, 4⟩]
    let c := (onS (fun c => hostUp (all.foldl (fun c e => woken e c) c))).toChip
    let s := (c.setEngine ⟨2, 0, 1⟩ { c.engine ⟨2, 0, 1⟩ with starting := true })
    (Instr.engineClockStart ⟨2, 0, 1⟩).wf = true ∧ (s.engine ⟨2, 0, 1⟩).starting = true ∧ (∀ e ∈ all, (c.engine e).awake = true ∧ idle e c = true) ∧
      (Instr.furrowIdleStop 0).wf = true ∧ c.rget (FUR 0) FUR_CTL_IDLE_STOP ≠ 0 ∧ (Instr.harrowIdleGate 1 3).wf = true ∧
      c.rget (HAR 1 3) HAR_CTL_IDLE_GATE ≠ 0 ∧ (Instr.drillIdleGate 0 2).wf = true ∧ coreBlocks c 0 2 = [] ∧ (c.engine ⟨3, 0, 2⟩).paid = false ∧
      c.rget (DRL 0 2) DRL_CTL_IDLE_GATE ≠ 0 ∧ (Instr.gleanerIdleGate 1 4).wf = true ∧ c.cmds = [] ∧ c.rget (INF 1 4) INF_GLN_CTL_IDLE_GATE ≠ 0 ∧
      (Instr.hostCoreGateIdle 5).wf = true ∧ hostOn 5 c = true ∧ c.rget (hstBase 5) HST_CTL_GATE_IDLE ≠ 0 := by decide

theorem witness_PowerCommandsAct_memory : let c := (onS (fun c => devPut (devKey ⟨false, 0, 3⟩) INF_STATUS_STATE OUT_STATUS_STATE 2 c)).toChip
    let k := devKey ⟨false, 0, 3⟩
    mayRest c k = true ∧ (Instr.memoryPowerDown ⟨false, 0, 3⟩ 7).wf = true ∧ devGet c k INF_CTL_PD_IDLE OUT_CTL_PD_IDLE ≠ 0 ∧ c.srv.pd.contains (k * 64 + 7) = false ∧
      (Instr.memorySelfRefresh ⟨false, 0, 3⟩).wf = true ∧ devGet c k INF_CTL_SR_IDLE OUT_CTL_SR_IDLE ≠ 0 ∧ c.srv.migs = [] ∧
      (Instr.retrainingEnd ⟨false, 0, 3⟩).wf = true ∧ ({ c with srv := { c.srv with training := some k } } : Chip).srv.training = some k := by decide

/-! ### Witnesses: start-up and the management controllers -/

/-- A module before READY, with some of its hedgerow state changed. -/
def hedS (f : HedgeSt → HedgeSt) : State := atS (fun c => { c with hedge := f { c.hedge with standby := true } })

theorem witness_StartUpCommandsAct_standby : let c := State.reset.toChip
    (Instr.standbyApplied).wf = true ∧ c.hedge.standby = false ∧ c.rget START MGT_STRAP_FW_ALT = 0 ∧ (Instr.standbyLost 9000).wf = true ∧
      (hedS id).toChip.hedge.standby = true ∧ (hedS id).toChip.hedge.step ≤ 1 ∧ (hedS id).toChip.hedge.rising = false ∧
      (hedS (fun h => { h with step := 3 })).toChip.hedge.step > 1 ∧ (Instr.standbyGoodFor10Ms 12000).wf = true ∧ (hedS id).toChip.hedge.good = false ∧
      (hedS id).toChip.hedge.pwrEn = false := by decide

theorem witness_StartUpCommandsAct_pwrEn : let good := (hedS (fun h => { h with good := true })).toChip
    let hot := (hedS (fun h => { h with good := true, lock := true, memT := [(3, 90)] })).toChip
    let fall := (hedS (fun h => { h with good := true, falling := true })).toChip
    (∀ mv ∈ [40000, 59000, 39999, 59001], (Instr.pwrEnRise mv).wf = true) ∧ good.hedge.pwrEn = false ∧ good.log.hold4 = false ∧ good.hedge.good = true ∧
      good.hedge.lock = false ∧ good.hedge.falling = false ∧ (hedS id).toChip.hedge.good = false ∧ hot.hedge.lock = true ∧ hot.hedge.good = true ∧
      cool { hot with hedge := { hot.hedge with pwrEn := true } } = false ∧ fall.hedge.falling = true ∧ fall.hedge.lock = false ∧ cool good = true := by decide

theorem witness_StartUpCommandsAct_rails : let up := (hedS (fun h => { h with step := 5, rising := true })).toChip
    let down := (hedS (fun h => { h with step := 5, falling := true })).toChip
    1 < up.hedge.step ∧ (Instr.pwrEnFall).wf = true ∧ (Instr.mainInputFault 30000).wf = true ∧ up.hedge.falling = false ∧ (Instr.sequenceFault 3 900).wf = true ∧
      up.hedge.rising = true ∧ (Instr.railFault 3 900).wf = true ∧ (Instr.railStepGood).wf = true ∧ up.hedge.step < 8 ∧
      (Instr.railStepDown).wf = true ∧ down.hedge.falling = true ∧ down.hedge.floor < down.hedge.step := by decide

theorem witness_StartUpCommandsAct_reset : let high := (hedS (fun h => { h with step := 5, resetHigh := true })).toChip
    (Instr.modResetAssert).wf = true ∧ high.hedge.resetHigh = true ∧ high.hedge.falling = false ∧ high.hedge.trip = false ∧ 1 < high.hedge.step ∧
      (Instr.modResetRelease 5).wf = true ∧ (hedS id).toChip.hedge.resetHigh = false := by decide

/-- A module in a phase of start-up. -/
def phaseS (n : Nat) (f : Chip → Chip) : Chip := f (setPhase n (hedS id).toChip)

theorem witness_StartUpCommandsAct_phases : let ok := phaseS 2 (fun c => setSlotOk 1 (c.rget MGT (runFld 1)) 1 (setSlotOk 2 (c.rget MGT (runFld 2)) 1 c))
    let bad := phaseS 2 (fun c => setSlotOk 1 (c.rget MGT (runFld 1)) 1 (setSlotOk 2 0 0 (setSlotOk 2 1 0 c)))
    (Instr.fusesDone).wf = true ∧ phase ok = 2 ∧ stopped ok = false ∧ slotOk ok 1 (ok.rget MGT (runFld 1)) = true ∧ slotOk ok 2 (ok.rget MGT (runFld 2)) = true ∧
      phase bad = 2 ∧ slotOk bad 1 (bad.rget MGT (runFld 1)) = true ∧ slotOk bad 2 0 = false ∧ slotOk bad 2 1 = false ∧ bad.rget MGT (runFld 2) < 2 ∧
      (Instr.logicBistDone []).wf = true ∧ phase (phaseS 3 id) = 3 ∧ stopped (phaseS 3 id) = false ∧ (Instr.sramBistDone []).wf = true ∧
      phase (phaseS 4 id) = 4 ∧ balkLost (phaseS 4 id) = 0 := by decide

theorem witness_StartUpCommandsAct_devices : let d : MemDev := ⟨false, 0, 3⟩
    let c := phaseS 5 id
    let t := { c with hedge := { c.hedge with trained := [devKey d] } }
    stopped c = false ∧ c.srv.devOut.contains (devKey d) = false ∧ (Instr.deviceTrained d).wf = true ∧ phase c = 5 ∧ c.hedge.trained.contains (devKey d) = false ∧
      (Instr.deviceFilled d).wf = true ∧ t.hedge.trained.contains (devKey d) = true ∧ t.hedge.filled.contains (devKey d) = false := by decide

theorem witness_StartUpCommandsAct_boot : let c := (hedS (fun h => { h with booting := [true, true] })).toChip
    let other := setSlotOk 0 (1 - c.rget MGT MGT_FW_MC_RUN) 1 c
    nth c.hedge.booting 1 false = true ∧ mcUp c 1 = false ∧ (Instr.managementControllerBoot 1).wf = true ∧ (Instr.mcRestartDone 1).wf = true ∧ c.hedge.act = none ∧
      c.rget PWR PWR_MGR_LEAD ≠ 1 ∧ c.rget PWR PWR_MGR_LEAD = 0 ∧ nth c.hedge.booting 0 false = true ∧ (Instr.mcBootFallback 1).wf = true ∧
      slotOk other 0 (1 - other.rget MGT MGT_FW_MC_RUN) = true := by decide

theorem witness_StartUpCommandsAct_controllers : let c := (hedS (fun h => { h with mcs := [true, true] })).toChip
    let late := { c with time := 500000 }
    mcUp c 1 = true ∧ c.rget PWR PWR_MGR_LEAD ≠ 1 ∧ (Instr.mcWatchdogExpiry 1).wf = true ∧ (Instr.managementControllerReset 1 3).wf = true ∧
      (Instr.heartbeat).wf = true ∧ leadUp c = true ∧ (Instr.takeover).wf = true ∧ mcUp late (1 - late.rget PWR PWR_MGR_LEAD) = true ∧
      late.hedge.beat + 500000 ≤ late.time ∧ (Instr.outputsSafeDefaults).wf = true ∧ (c.rput MGT MGT_STATUS_OUTPUTS 1).rget MGT MGT_STATUS_OUTPUTS = 1 ∧
      c.hedge.step ≠ 9 := by decide

/-! ### Witnesses: errors, the host complex and frames -/

theorem witness_ErrorCommandsAct_scrub : let d : MemDev := ⟨false, 0, 3⟩
    let k := devKey d
    let c := (onS (fun c => devPut k INF_STATUS_STATE OUT_STATUS_STATE 2 c)).toChip
    let l : FrameLoc := ⟨dkRegion k, dkDev k, 40⟩
    devState c k = 2 ∧ devGet c k INF_CTL_SCRUB_HOURS OUT_CTL_SCRUB_HOURS ≠ 0 ∧ c.srv.fallow.contains l = false ∧
      (match frameAt c l with
       | some f => !(c.touch (f * 65536)).memBad.contains (f * 65536 / 64)
       | none => false) = true ∧
      (Instr.patrolScrubRead d 40 0 ⟨none, false⟩).wf = true ∧ (Instr.patrolScrubRead d 40 0 ⟨some 9, false⟩).wf = true ∧
      (Instr.patrolScrubRead d 40 0 ⟨none, true⟩).wf = true ∧ (Instr.streamTimeout 0 3 9).wf = true := by decide

theorem witness_ErrorCommandsAct_reports : let c := (hedS (fun h => { h with step := 8 })).toChip
    8 ≤ c.hedge.step ∧ (Instr.errorReport (.sbdWord 0 64)).wf = true ∧ (Instr.errorReport (.memLost 4096)).wf = true ∧ (Instr.errorReport (.semLost 131073)).wf = true ∧
      (Instr.errorReport (.dirCorrected 0 3)).wf = true ∧ (Instr.errorReport (.dirLost 0 3)).wf = true ∧ (Instr.balkLinkError 0 .lane).wf = true ∧
      (Instr.balkLinkError 0 .poison).wf = true ∧ (Instr.balkLinkError 0 .coherence).wf = true := by decide

theorem witness_ErrorCommandsAct_host : let c := (onS (fun c => hostUp { c with host := { c.host with dir := [⟨9, true, 1⟩] } })).toChip
    let p : Part := ⟨.drillCore, 0, 3, 128⟩
    (Instr.coherenceTimeout 5).wf = true ∧ hartOut c 5 = false ∧ c.rget CPLX HST_CPLX_STATUS_STATE = 1 ∧ (Instr.directorySweepEnd).wf = true ∧
      2 ≤ (c.rput CPLX HST_CPLX_STATUS_STATE 2).rget CPLX HST_CPLX_STATUS_STATE ∧ leadUp c = true ∧
      leadUp ((upS (fun c => c.rput CPLX HST_CPLX_STATUS_STATE 2)).toChip) = false ∧ (Instr.hostComplexResetEnd).wf = true ∧
      ({ c with host := { c.host with resetting := true } } : Chip).host.resetting = true ∧ (Instr.spareInService p).wf = true ∧ p.kind ≠ .hostCore ∧
      ({ c with hedge := { c.hedge with repl := [p] } } : Chip).hedge.repl.contains p = true := by decide

/-- A host core's request of a kind, and a module where core 4 shares the sector. -/
def hreq (k : HostKind) (a : Nat) : HostReq := ⟨5, k, a, 4, [1, 2, 3, 4], 0, 0, 0⟩
def hostS : State := onS (fun c => hostUp { c with host := { c.host with copies := [⟨4, 64, .shared, false, List.replicate 64 7⟩], dir := [⟨64, false, 2⟩] } })

theorem witness_HostMemoryRequestsAct_memory : let c := hostS.toChip
    (∀ k ∈ [HostKind.store, .load, .lr, .sc], (Instr.hostCoreMemoryRequest (hreq k 4096)).wf = true) ∧ hostOn 5 c = true ∧ backed 4096 4 = true ∧
      (∀ x ∈ c.host.copies, x.sec = 64 → x.hart ≠ 5 ∧ ∃ y ∈ c.host.dir, y.sec = 64) ∧ c.host.resv.contains (5, 64) = false ∧
      (Instr.hostCoreMemoryRequest (hreq .load 0xF0000000000)).wf = true ∧ backed 0xF0000000000 4 = false := by decide

theorem witness_HostMemoryRequestsAct_seedbed : let c := hostS.toChip
    let d := hartRuns 5 c
    c.up = true ∧ hostOn 5 c = true ∧ (Instr.seedbedWindowAccess 5 0x10000008 8 (some 7)).wf = true ∧ (Instr.seedbedWindowAccess 5 8 8 none).wf = true ∧
      8 % 0x10000000 < sbdSize ∧ d.firstBadWord 0 8 8 = none ∧ d.sbdPoison.contains (sbdKey 0 8 / 64) = false ∧
      ({ d with sbdPoison := [0] } : Chip).sbdPoison.contains (sbdKey 0 8 / 64) = true ∧ (Instr.seedbedWindowAccess 5 0xC000000 8 none).wf = true ∧
      0xC000000 % 0x10000000 ≥ sbdSize ∧ (Instr.seedbedWindowAccess 5 6 4 none).wf = true ∧ 6 % 4 ≠ 0 := by decide

theorem witness_RegisterCommandsLeaveTheRest : (upS id).toChip.wf = true ∧ (upS id).toChip.quiet = true ∧ (upS id).toChip.up = true ∧
    topoOk (upS id).toChip = false ∧ (upS id).toChip.pendingFaults = [] ∧ (hedS (fun h => { h with step := 8 })).toChip.hedge.step ≥ 8 ∧
    (Instr.pcxErrorMessage 1).wf = true ∧ (Instr.modCfgCommit (.pcx 0) 2).wf = true ∧ (Instr.balkLinkError 1 .poison).wf = true := by decide

theorem witness_EveryStepKeepsTheInvariant : (upS id).toChip.wf = true ∧ (match step { upS id with pending := [.bypassReq] } with
    | .next _ => true
    | _ => false) = true := by decide

theorem witness_ConversionsRoundToNearest : 8 > 0 ∧ 2 * 12 = 2 * (8 * rneDiv 12 8) - 8 ∧ rneDiv 20 8 = 2 ∧ 7 < 2 ^ fmtBits .e2m1 ∧ decodeFmt .e2m1 7 ≠ .nan := by decide

/-! ### Single steps, with results taken from the manual -/

/-- R36, step 1: a doorbell of a disabled queue only counts in STALE_DB. -/
theorem test_doorbell_of_a_disabled_queue : sees (.qprDoorbell (.pcx 0) 5 8 (2 ^ 32 + 1)) (upS id)
    (fun c => (c.queue 5).staleDb == 1 && (c.queue 5).tail == 0 && decide ((c.queue 5).st = .disabled)) = true := by decide

/-- R36, step 4: 15 slots fit in a ring of 16 whose HEAD is 14, and the next one overruns it. -/
theorem test_doorbell_overrun : sees (.qprDoorbell (.pcx 0) 5 8 (8 * 2 ^ 32 + 13)) (withQ id) (fun c => (c.queue 5).tail == 13 && (c.queue 5).lastDbSeq == 8) = true ∧
    sees (.qprDoorbell (.pcx 0) 5 8 (8 * 2 ^ 32 + 14)) (withQ id) (fun c => decide ((c.queue 5).st = .error) && (c.queue 5).tail == 15) = true := by decide

/-- R365: ADD stops at 2⁴⁸ − 1 and sets SAT and YOK_ERR.SATURATED; SUB stops at 0. -/
theorem test_add_saturates : sees (.add 5 10) (yokS 1 (mine (2 ^ 48 - 2)) [(24, 6, 5)])
    (fun c => (c.sem 0 3).value == 2 ^ 48 - 1 && (c.sem 0 3).sat && c.rget (YOK 0) YOK_ERR_SATURATED == 1) = true := by decide
theorem test_sub_saturates : sees (.sub 5 10) (yokS 2 (mine 4) [(24, 6, 5)]) (fun c => (c.sem 0 3).value == 0 && (c.sem 0 3).sat) = true ∧
    sees (.sub 5 10) (yokS 2 (mine 9) [(24, 6, 5)]) (fun c => (c.sem 0 3).value == 4 && !(c.sem 0 3).sat) = true := by decide

/-- R367: CSET sets on equality only. -/
theorem test_cset : sees (.cset 5 10) (yokS 4 (mine 7) [(24, 6, 50), (32, 6, 7)]) (fun c => (c.sem 0 3).value == 50) = true ∧
    sees (.cset 5 10) (yokS 4 (mine 7) [(24, 6, 50), (32, 6, 8)]) (fun c => (c.sem 0 3).value == 7) = true := by decide

/-- R96: the 4-bit codes 7, 0xF and 1 are 6, −6 and 0.5; 8 is −0 in E2M1 and a NaN in S4. -/
theorem test_four_bit_codes : let f := fun (t : Fmt) (n : Nat) => (encodeVal .f32 (decodeFmt t n)).code
    f .e2m1 7 = 0x40C00000 ∧ f .s4 0xF = 0xC0C00000 ∧ f .e2m1 1 = 0x3F000000 ∧ f .e2m1 8 = 0x80000000 ∧ vIsNan (decodeFmt .s4 8) = true := by decide

/-- R103: COPY between equal formats copies the bytes, and FILL writes its pattern. -/
theorem test_copy : sees (.dmaCopy 5 10) (engS copyCmd [1, 2, 3, 4]) (fun c => c.rdSbdBytes 0 64 4 == [1, 2, 3, 4]) = true := by decide
theorem test_fill : sees (.dmaFill 5 10) (engS fillCmd [1, 2, 3, 4]) (fun c => c.rdSbdBytes 0 64 4 == [0x5A, 0x5A, 0x5A, 0x5A] && c.rdSbdBytes 0 68 1 == [0]) = true := by decide

/-- R59: the commit of the epoch after CURRENT opens the mixed window; any other sets REFUSED. -/
theorem test_commit : let s := upS (fun c => woken ⟨2, 0, 0⟩ (c.rput AIH AIH_TOPO_X_SIZE 1))
    sees (.modCfgCommit (.pcx 0) 2) s (fun c => c.rget MOD MOD_CFG_EPOCH_CURRENT == 2 && c.rget MOD MOD_CFG_EPOCH_PREVIOUS == 1 &&
      c.rget MOD MOD_CFG_STATUS_MIXED == 1 && !(c.engine ⟨2, 0, 0⟩).adopted) = true := by decide
theorem test_commit_refused : sees (.modCfgCommit (.pcx 0) 3) (upS (fun c => c.rput AIH AIH_TOPO_X_SIZE 1))
    (fun c => c.rget MOD MOD_CFG_EPOCH_CURRENT == 1 && c.rget MOD MOD_CFG_STATUS_REFUSED == 1) = true := by decide

/-- R270: writing SBD_CTL.LOCK sets it, and a later write of 0 leaves it. -/
theorem test_commit_lock_stays : sees (.registerWrite .smbus (SBD 1 + 4) 4 1) (onS id) (fun c => c.rget (SBD 1) SBD_CTL_LOCK == 1) = true ∧
    sees (.registerWrite .smbus (SBD 1 + 4) 4 0) (onS (fun c => c.rput (SBD 1) SBD_CTL_LOCK 1)) (fun c => c.rget (SBD 1) SBD_CTL_LOCK == 1) = true := by decide

/-- R270: SBD_ERR is written with 1 to clear. -/
theorem test_write_one_to_clear : sees (.registerWrite .smbus (SBD 0 + 0x14) 4 4) (onS (fun c => (c.rput (SBD 0) SBD_ERR_STORED 1).rput (SBD 0) SBD_ERR_POISON_SET 1))
    (fun c => c.rget (SBD 0) SBD_ERR_STORED == 1 && c.rget (SBD 0) SBD_ERR_POISON_SET == 0) = true := by decide

/-- R433: an error message sets AER_MSG. -/
theorem test_error_message : sees (.pcxErrorMessage 0) rootS (fun c => c.rget (PCX 0) PCX_ERR_AER_MSG == 1) = true := by decide

/-- R490: the wake pin shows in PWR_STATUS. -/
theorem test_wake_pin : sees .wakeNFall (onS id) (fun c => c.rget PWR PWR_STATUS_WAKE == 1) = true ∧
    sees .wakeNRise (onS (fun c => c.rput PWR PWR_STATUS_WAKE 1)) (fun c => c.rget PWR PWR_STATUS_WAKE == 0) = true := by decide

/-- R494: a junction at its trip point takes the rails down to step 2 and locks the module. -/
theorem test_thermal_trip : sees (.thermalTrip 3 118) (hedS (fun h => { h with step := 9 }))
    (fun c => c.hedge.trip && c.hedge.lock && c.hedge.falling && c.hedge.floor == 2) = true ∧
    sees (.thermalTrip 3 117) (hedS (fun h => { h with step := 9 })) (fun c => !c.hedge.trip && !c.hedge.falling) = true := by decide

/-- R443: a frame with a bad CRC is counted, answered with a NAK of the next number awaited, and not taken. -/
theorem test_bad_crc : sees (.frameReceive 3 (frm 100 false)) (upPort 5)
    (fun c => c.rget (AIHP 3) AIH_PORT_CRC_ERR == 1 && (c.aport 3).rxSeq == 100 && c.outs.contains (.nak 3 100)) = true := by decide

/-- R455: a write through a window is stored, and answered DONE. -/
theorem test_remote_write : sees (.remoteAccessArrival (wr2 9 4)) orgS (fun c => c.rdSbdBytes 0 0 3 == [7, 8, 0]) = true ∧
    sees (.remoteAccessArrival (wr2 9 5)) orgS (fun c => c.rdSbdBytes 0 0 2 == [0, 0] && c.rget AIH AIH_REFUSED == 1) = true := by decide

/-- R420, R421: an inbound write through a window reaches its place once it has become visible. -/
theorem test_inbound_write : sees (.pcxFlush .smbus 0) { rootS with pcx := [{ posted := [⟨7, 0, 0x30000, [1, 2, 3, 4], false, 0, 0, 0x10000⟩] }, {}] }
    (fun c => c.rdLe 0x30000 4 == 0x04030201 && (c.port 0).posted.isEmpty) = true := by decide

/-- An empty queue lets one period of the 25 MHz crystal pass (log entry 1). -/
theorem test_idle_tick : (match step (upS id) with
    | .next t => t.time == 40 && t.pending.isEmpty
    | _ => false) = true := by decide

/-- The first of the waiting commands runs, and the others wait on. -/
theorem test_commands_run_in_order : (match step { upS id with pending := [.wakeNRise, .bypassReq] } with
    | .next t => t.pending == [.bypassReq]
    | _ => false) = true := by decide

end Sys2Proof.Tests
end

/-! A command in execution whose commit units can all be done runs them to its end: the general lemmas, and the rows of the movers. -/

namespace Sys2Proof.Machine

open Sys2Proof

/-- A well-formed command run as every command runs gives its effect. -/
theorem gives_of_run {i : Instr} {s : State} {f : Chip → Chip} {e : Chip} (hexec : exec i s = s.run i f) (hwf : i.wf = true)
    (hf : f s.toChip = e) : Gives i s e := by
  rw [Gives, hexec, State.run_wf s i f hwf, hf]

/-- Counting cycles leaves the engines alone. -/
@[simp] theorem Chip.cycles_eng (l : List (Nat × Fld)) (c : Chip) : (c.cycles l).eng = c.eng := by
  rw [Chip.cycles]
  exact foldl_keep Chip.eng _ (fun d x => by rw [Chip.rcount_eng, Chip.draw]) l c

/-- Counting cycles leaves the state of every engine alone. -/
@[simp] theorem Chip.engine_cycles (l : List (Nat × Fld)) (c : Chip) (e : Engine) : (c.cycles l).engine e = c.engine e := by
  simp only [Chip.engine, Chip.cycles_eng]

section
variable {total : Nat} {unit : Nat → Cmd → Chip → UOut} {fin : Cmd → Chip → Res} {m : Cmd} {c : Chip} {x : Cmd × Chip}

/-- Units that can all be done are done, in order and once each, and the command ends: one turn for each, and one to end. -/
theorem runUnits_of_unitsDone {n k : Nat} (hdone : unitsDone total unit n m c = some x) (hk : n < k) :
    runUnits total unit fin k m c = ended fin x := by
  induction n generalizing m c k with
  | zero =>
    obtain ⟨k, rfl⟩ := Nat.exists_eq_add_of_lt hk
    rw [unitsDone] at hdone
    split at hdone
    · cases hdone
      rw [runUnits, if_pos ‹_›, ended]
    · cases hdone
  | succ n ih =>
    obtain ⟨k, rfl⟩ : ∃ j, k = j + 1 := ⟨k - 1, by omega⟩
    rw [unitsDone] at hdone
    rw [runUnits]
    split at hdone
    · cases hdone
      rw [if_pos ‹_›, ended]
    · rw [if_neg ‹_›]
      split at hdone
      · rename_i hunit
        rw [hunit]
        exact ih hdone (Nat.lt_of_succ_lt_succ hk)
      · cases hdone

/-- No parity error is met where neither the engine nor the command holds one. -/
theorem meetUpset_of_clean {e : Engine} (addr src : Nat) (hm : m.upset = false) (he : (c.engine e).upset = false) :
    meetUpset e addr src m c = (m, c, false) := by
  rw [meetUpset, hm, he]
  rfl

/-- The turns of all runs of a command are more than its units. -/
theorem lt_runFuel (total : Nat) : total < runFuel total := by
  rw [runFuel]; omega

/-- A command that no parity error meets and whose units can all be done ends with its outcome. -/
theorem runCmd_of_unitsDone {e : Engine} {addr : Nat} (hm : m.upset = false) (he : (c.engine e).upset = false)
    (hdone : unitsDone total unit total m c = some x) : runCmd e addr total unit fin (runFuel total) m c = ended fin x := by
  rw [runCmd, meetUpset_of_clean _ _ hm he]
  exact runUnits_of_unitsDone hdone (lt_runFuel total)

/-- A COPY, FILL, GATHER or SCATTER whose tiles can all be moved ends with its outcome. -/
theorem dmaStep_of_unitsDone {op q seq : Nat} (hrun : running q seq 4 op c = some m) (hm : m.upset = false)
    (he : (c.engine m.engine).upset = false)
    (hdone : unitsDone ((dmaOp m).tiles + 1) (dmaOp m).unit ((dmaOp m).tiles + 1) m (c.cycles [(DMA m.half m.inst, DMA_CYC_STALL_EXT)]) =
      some x) :
    dmaStep op q seq c = ended (fun m c => endRes c m []) x := by
  rw [dmaStep, hrun]
  exact runCmd_of_unitsDone hm (by rw [Chip.engine_cycles]; exact he) hdone

end

/-- Settles O27: the units of a mover's command are done in order (`runUnits_of_unitsDone`), for no parity error is met and the turns suffice. -/
theorem moverCommandsComplete : Obligations.MoverCommandsComplete := by
  intro s q seq m x o c1 ran e t _ hm he
  refine ⟨?copy, ?fill, ?gather, ?scatter, ?atomic⟩
  case copy => exact fun hrun hwf hran => gives_of_run rfl hwf (dmaStep_of_unitsDone hrun hm he hran)
  case fill => exact fun hrun hwf hran => gives_of_run rfl hwf (dmaStep_of_unitsDone hrun hm he hran)
  case gather => exact fun hrun hwf hran => gives_of_run rfl hwf (dmaStep_of_unitsDone hrun hm he hran)
  case scatter => exact fun hrun hwf hran => gives_of_run rfl hwf (dmaStep_of_unitsDone hrun hm he hran)
  case atomic =>
    intro hrun hwf hdone
    refine gives_of_run (f := dmaAtomicStep q seq) rfl hwf ?_
    rw [dmaAtomicStep, hrun]
    exact runCmd_of_unitsDone hm he hdone

end Sys2Proof.Machine

/-! Elements in packed form in the Seedbeds: what a store of bytes of a Seedbed operand changes, and that a stored element reads back. -/

namespace Sys2Proof.Machine

open Sys2Proof

/-! ### Lists, read from their ends -/

/-- Induction on a list that grows at its end, as a store's bytes do. -/
theorem listEndInduction {α : Type} {P : List α → Prop} (nil : P []) (concat : ∀ l a, P l → P (l ++ [a])) (l : List α) : P l := by
  have hrev : ∀ l : List α, P l.reverse := fun l => by
    induction l with
    | nil => exact nil
    | cons a l ih => rw [List.reverse_cons]; exact concat _ a ih
  rw [← List.reverse_reverse l]
  exact hrev _

/-- Steps that agree on a list's elements come to the same end over the list. -/
theorem foldl_congr_mem {α γ : Type} {f g : γ → α → γ} (l : List α) (h : ∀ c, ∀ a ∈ l, f c a = g c a) (c : γ) : l.foldl f c = l.foldl g c := by
  induction l generalizing c with
  | nil => rfl
  | cons a l ih =>
    rw [List.foldl_cons, List.foldl_cons, h c a List.mem_cons_self]
    exact ih (fun c b hb => h c b (List.mem_cons_of_mem _ hb)) _

/-! ### Little-endian bytes -/

@[simp] theorem length_leBytes (n x : Nat) : (leBytes n x).length = n := by
  induction n generalizing x with
  | zero => rfl
  | succ n ih => rw [leBytes, List.length_cons, ih]

/-- The number that n little-endian bytes of x spell. -/
theorem leNat_leBytes (n x : Nat) : leNat (leBytes n x) = x % 2 ^ (8 * n) := by
  induction n generalizing x with
  | zero => simp [leBytes, leNat, Nat.mod_one]
  | succ n ih =>
    calc leNat (leBytes (n + 1) x) = x % 2 ^ 8 + 2 ^ 8 * (x / 2 ^ 8 % 2 ^ (8 * n)) := by
          simp [leBytes, leNat, ih]
      _ = x % 2 ^ (8 * (n + 1)) := by
          rw [← Nat.mod_mul, ← Nat.pow_add, Nat.mul_succ, Nat.add_comm 8]

/-- Little-endian bytes spell a number of their width. -/
theorem leNat_lt (l : List Byte) : leNat l < 2 ^ (8 * l.length) := by
  induction l with
  | nil => simp [leNat]
  | cons b l ih =>
    have hb := b.isLt
    rw [leNat, List.length_cons, Nat.mul_succ, Nat.pow_add]
    omega

/-- The number that n bytes of an operand spell. -/
theorem leNat_opBytes_lt (c : Chip) (m : Cmd) (d : Desc) (off n : Nat) : leNat (opBytes c m d off n) < 2 ^ (8 * n) := by
  simpa [opBytes] using leNat_lt (opBytes c m d off n)

/-! ### Stores of bytes of a Seedbed operand -/

/-- The physical offset of a Seedbed operand's first byte in its half (R70, R248). -/
def Desc.sbdStart (d : Desc) (c : Chip) (m : Cmd) : Nat := ((c.ctxDesc m.ctx).seg (d.sbdHalf m.half)).1 + bits d.addr 0 28

/-- Gathering a store notes it among those to land, and changes nothing else. -/
theorem Chip.gather_eq (c : Chip) (l : Loc) (p : Bool) : c.gather l p = { c with landing := (c.gather l p).landing } := by
  unfold Chip.gather
  split
  · rfl
  · split <;> rfl

@[simp] theorem Chip.gather_mem (c : Chip) (l : Loc) (p : Bool) : (c.gather l p).mem = c.mem := by rw [Chip.gather_eq]
@[simp] theorem Chip.gather_ctxs (c : Chip) (l : Loc) (p : Bool) : (c.gather l p).ctxs = c.ctxs := by rw [Chip.gather_eq]
@[simp] theorem Chip.gather_sbd (c : Chip) (l : Loc) (p : Bool) : (c.gather l p).sbd = c.sbd := by rw [Chip.gather_eq]

@[simp] theorem Chip.rdSbd_gather (c : Chip) (l : Loc) (p : Bool) (h o : Nat) : (c.gather l p).rdSbd h o = c.rdSbd h o := by
  rw [Chip.rdSbd, Chip.gather_sbd, Chip.rdSbd]

section
variable {d : Desc} (hd : d.space = 1) (c : Chip) (m : Cmd) (off : Nat)

/-- An operand's start depends on nothing of the module but its contexts. -/
theorem Desc.sbdStart_congr {x : Chip} (hx : x.ctxs = c.ctxs) : d.sbdStart x m = d.sbdStart c m := by
  simp only [Desc.sbdStart, Chip.ctxDesc, Chip.ctx, hx]

include hd

/-- The bytes of a Seedbed operand lie one after another in its half. -/
theorem opLoc_sbd : opLoc c m d off = .sbd (d.sbdHalf m.half) (d.sbdStart c m + off) := by
  simp [opLoc, hd, Desc.sbdStart]

/-- A store with one byte more stores that byte last. -/
theorem opStore_concat (bs : List Byte) (b : Byte) : opStore c m d off (bs ++ [b]) =
    let x := opStore c m d off bs
    let o := d.sbdStart x m + (off + bs.length)
    (x.putSbd (d.sbdHalf m.half) o b).gather (.sbd (d.sbdHalf m.half) o) false := by
  have hinit : ∀ i ∈ List.range bs.length, nth (bs ++ [b]) i 0 = nth bs i 0 := fun i hi => by
    rw [nth, nth, List.getElem?_append_left (List.mem_range.1 hi)]
  have hlast : nth (bs ++ [b]) bs.length 0 = b := by simp [nth]
  rw [opStore, List.length_append, List.length_singleton, List.range_succ, List.foldl_append, List.foldl_cons, List.foldl_nil]
  simp only [opLoc_sbd hd, hlast]
  rw [opStore]
  simp only [opLoc_sbd hd]
  rw [foldl_congr_mem (List.range bs.length) (fun x i hi => by rw [hinit i hi])]

/-- A store to the Seedbeds leaves frame space alone. -/
theorem opStore_sbd_mem (bs : List Byte) : (opStore c m d off bs).mem = c.mem :=
  foldl_keep Chip.mem _ (fun x i => by simp only [opLoc_sbd hd, Chip.gather_mem, Chip.putSbd_mem]) _ c

/-- A store to the Seedbeds leaves the contexts alone. -/
theorem opStore_sbd_ctxs (bs : List Byte) : (opStore c m d off bs).ctxs = c.ctxs :=
  foldl_keep Chip.ctxs _ (fun x i => by simp only [opLoc_sbd hd, Chip.gather_ctxs, Chip.putSbd_ctxs]) _ c

/-- After a store to a Seedbed operand the bytes stored to read as stored, and all others as before. -/
theorem rdSbd_opStore (bs : List Byte) (h' o' : Nat) :
    let k := sbdKey (d.sbdHalf m.half) (d.sbdStart c m + off)
    (opStore c m d off bs).rdSbd h' o' =
      if k ≤ sbdKey h' o' ∧ sbdKey h' o' < k + bs.length then nth bs (sbdKey h' o' - k) 0 else c.rdSbd h' o' := by
  intro k
  induction bs using listEndInduction with
  | nil => rw [if_neg (by simp), opStore]; rfl
  | concat bs b ih =>
    have hk : sbdKey (d.sbdHalf m.half) (d.sbdStart c m + (off + bs.length)) = k + bs.length := by
      simp only [k, sbdKey]; omega
    rw [opStore_concat hd]
    simp only [Chip.rdSbd_gather, Chip.rdSbd_putSbd, Desc.sbdStart_congr c m (opStore_sbd_ctxs hd c m off bs), hk, ih,
      List.length_append, List.length_singleton]
    by_cases hlast : sbdKey h' o' = k + bs.length
    · simp [hlast, nth]
    · by_cases hin : k ≤ sbdKey h' o' ∧ sbdKey h' o' < k + bs.length
      · have hnth : nth (bs ++ [b]) (sbdKey h' o' - k) 0 = nth bs (sbdKey h' o' - k) 0 := by
          rw [nth, nth, List.getElem?_append_left (by omega)]
        rw [if_neg hlast, if_pos hin, if_pos (by omega), hnth]
      · rw [if_neg hlast, if_neg hin, if_neg (by omega)]

/-- Bytes stored to a Seedbed operand read back. -/
theorem opBytes_opStore (bs : List Byte) : opBytes (opStore c m d off bs) m d off bs.length = bs := by
  refine List.ext_getElem (by simp [opBytes]) fun i _ hi => ?_
  have hk : sbdKey (d.sbdHalf m.half) (d.sbdStart c m + (off + i)) = sbdKey (d.sbdHalf m.half) (d.sbdStart c m + off) + i := by
    simp only [sbdKey]; omega
  simp only [opBytes, List.getElem_map, List.getElem_range, opLoc_sbd hd, Chip.locByte,
    Desc.sbdStart_congr c m (opStore_sbd_ctxs hd c m off bs), rdSbd_opStore hd, hk]
  rw [if_pos (by omega)]
  simp [nth, hi]

/-- A number stored to n bytes of a Seedbed operand reads back as far as they hold it. -/
theorem leNat_opBytes_opStore (n v : Nat) : leNat (opBytes (opStore c m d off (leBytes n v)) m d off n) = v % 2 ^ (8 * n) := by
  have hread := opBytes_opStore hd c m off (leBytes n v)
  rw [length_leBytes] at hread
  rw [hread, leNat_leBytes]

end

/-! ### Elements -/

/-- The bits of an element lie in the bytes it touches (R97). -/
theorem elemSpan_fits (d : Desc) (i0 : Nat) : (elemSpan d i0).2.1 + d.w ≤ 8 * (elemSpan d i0).2.2 := by
  simp only [elemSpan]; omega

/-- An element stored in a Seedbed operand reads back as its code. -/
theorem elemCode_elemStore {d : Desc} (hd : d.space = 1) (c : Chip) (m : Cmd) (i0 i1 i2 code : Nat) :
    elemCode (elemStore c m d i0 i1 i2 code) m d i0 i1 i2 = code % 2 ^ d.w := by
  simp only [elemCode, elemStore]
  have hlt := setBits_lt _ _ _ code _ (leNat_opBytes_lt c m d (d.rowOff i1 i2 + (elemSpan d i0).1) (elemSpan d i0).2.2) (elemSpan_fits d i0)
  rw [leNat_opBytes_opStore hd, Nat.mod_eq_of_lt hlt, bits_setBits_self]

/-- Settles O30: the bytes stored to read back (`opBytes_opStore`), the element's field in them is the one replaced, and `rdSbd_opStore` says
that every other byte reads as before. -/
theorem storedElementsReadBack : Obligations.StoredElementsReadBack := by
  intro c m d i0 i1 i2 code hd x h at_
  refine ⟨elemCode_elemStore hd c m i0 i1 i2 code, opStore_sbd_mem hd c m _ _, fun h' o' hout => ?_⟩
  refine (rdSbd_opStore hd c m _ _ h' o').trans (if_neg ?_)
  rw [length_leBytes]
  change ¬ (at_ ≤ sbdKey h' o' ∧ sbdKey h' o' < at_ + (d.w * i0 % 8 + d.w + 7) / 8)
  omega

end Sys2Proof.Machine

/-! The outcome of a command that ran to its end, case by case of the condition that decides it (R82, R84, R85). -/

namespace Sys2Proof.Machine

open Sys2Proof

/-- With no status noted no condition decides the outcome. -/
theorem Notes.first_of_order_nil {n : Notes} (h : n.order = []) (trap : Bool) : n.first trap = none := by
  simp [Notes.first, h]

/-- The only status noted decides the outcome, a NaN event while the trap is on. -/
theorem Notes.first_of_order_singleton {n : Notes} {st : Nat} {trap : Bool} (h : n.order = [st]) (hon : st ≠ sTrap ∨ trap = true) :
    n.first trap = some st := by
  rw [Notes.first, h]
  exact List.find?_cons_of_pos (by simpa using hon)

/-- A NaN event alone decides nothing while the trap is off. -/
theorem Notes.first_of_untrapped {n : Notes} (h : n.order = [sTrap]) : n.first false = none := by
  simp [Notes.first, h]

section
variable {c : Chip} {m : Cmd} (base : List (Nat × Nat × Nat)) (htandem : m.tandem = false) (hreruns : m.reruns = 0)
include htandem hreruns

/-- A trapped NaN event: NUMERIC_TRAP with the event's place. -/
theorem endRes_of_trap {e : NanEv} (hfirst : m.notes.first (trapOn c m) = some sTrap) (hnan : m.notes.nan = some e) :
    endRes c m base = mkRes sTrap [(0, 2, e.tileRow), (2, 2, e.tileCol), (4, 1, e.stage)] := by
  simp [endRes, mkRes, hfirst, hnan, htandem, hreruns, sTrap]

/-- An uncorrectable unit: DATA_UNCORRECTABLE with its address and source. -/
theorem endRes_of_uncorr {a k : Nat} (hfirst : m.notes.first (trapOn c m) = some sUncorr) (hunit : m.notes.uncorr = some (a, k)) :
    endRes c m base = mkRes sUncorr [(0, 8, a), (8, 1, k)] := by
  simp [endRes, mkRes, hfirst, hunit, htandem, hreruns, sUncorr]

/-- A poisoned unit: POISONED_INPUT with its address and source. -/
theorem endRes_of_poisoned {a k : Nat} (hfirst : m.notes.first (trapOn c m) = some sPoisoned) (hunit : m.notes.poison = some (a, k)) :
    endRes c m base = mkRes sPoisoned [(0, 8, a), (8, 1, k)] := by
  simp [endRes, mkRes, hfirst, hunit, htandem, hreruns, sPoisoned]

section
variable (hfirst : m.notes.first (trapOn c m) = none) (hnote : m.notes.note = none)
include hfirst hnote

/-- Saturated elements, whether or not NaNs were stored as 0 too: DONE_NOTED, the lower NOTE 3 (R82) and their number. -/
theorem endRes_of_sat (hsat : m.notes.sat > 0) : endRes c m base = mkRes sNoted [(0, 4, m.notes.sat), (13, 1, 3)] := by
  simp [endRes, mkRes, hfirst, hnote, hsat, htandem, hreruns]

/-- NaNs stored as 0 and nothing saturated: DONE_NOTED, NOTE 4 and their number. -/
theorem endRes_of_nanZero (hsat : m.notes.sat = 0) (hzero : m.notes.nanZero > 0) :
    endRes c m base = mkRes sNoted [(0, 4, m.notes.nanZero), (13, 1, 4)] := by
  simp [endRes, mkRes, hfirst, hnote, hsat, hzero, htandem, hreruns]

/-- Nothing to note: DONE with the detail of the command's kind. -/
theorem endRes_of_nothing_noted (hsat : m.notes.sat = 0) (hzero : m.notes.nanZero = 0) : endRes c m base = mkRes sDone base := by
  simp [endRes, mkRes, hfirst, hnote, hsat, hzero, htandem, hreruns]

end

end

/-- Settles O29: the status noted alone is the first condition (`Notes.first_of_order_singleton`), but for a NaN event while the trap is off,
and `endRes` answers it by its own case. -/
theorem outcomesFollowTheNotes : Obligations.OutcomesFollowTheNotes := by
  intro c m base htandem hreruns
  refine ⟨?nothing, ?saturated, ?nanStoredAsZero, ?nanEvent, ?poisoned, ?uncorrectable⟩
  case nothing =>
    intro h
    exact endRes_of_nothing_noted base htandem hreruns (Notes.first_of_order_nil (by rw [h]) _) (by rw [h]) (by rw [h]) (by rw [h])
  case saturated =>
    intro n hn h
    have hsat : m.notes.sat = n := by rw [h]
    rw [endRes_of_sat base htandem hreruns (Notes.first_of_order_nil (by rw [h]) _) (by rw [h]) (hsat ▸ hn), hsat]
    rfl
  case nanStoredAsZero =>
    intro n hn h
    have hzero : m.notes.nanZero = n := by rw [h]
    rw [endRes_of_nanZero base htandem hreruns (Notes.first_of_order_nil (by rw [h]) _) (by rw [h]) (by rw [h]) (hzero ▸ hn), hzero]
    rfl
  case nanEvent =>
    intro e h
    have horder : m.notes.order = [sTrap] := by rw [h]; rfl
    constructor
    · intro hon
      exact endRes_of_trap base htandem hreruns (Notes.first_of_order_singleton horder (.inr hon)) (by rw [h])
    · intro hoff
      exact endRes_of_nothing_noted base htandem hreruns (hoff ▸ Notes.first_of_untrapped horder) (by rw [h]) (by rw [h]) (by rw [h])
  case poisoned =>
    intro a k h
    exact endRes_of_poisoned base htandem hreruns (Notes.first_of_order_singleton (by rw [h]; rfl) (.inl (by decide))) (by rw [h])
  case uncorrectable =>
    intro a k h
    exact endRes_of_uncorr base htandem hreruns (Notes.first_of_order_singleton (by rw [h]; rfl) (.inl (by decide))) (by rw [h])

end Sys2Proof.Machine

/-! The number formats (R90 to R105): rounding is to the nearest, and a value on a format's grid converts back to its own code. -/

namespace Sys2Proof.Machine

open Sys2Proof

/-! ### Rounding a quotient (R104) -/

/-- Twice the distance from a to b times the rounded quotient is at most b, and where it is b the quotient is even. -/
theorem rneDiv_nearest (a : Nat) {b : Nat} (hb : 0 < b) :
    2 * a ≤ 2 * (b * rneDiv a b) + b ∧ 2 * (b * rneDiv a b) ≤ 2 * a + b ∧
      (2 * a = 2 * (b * rneDiv a b) + b ∨ 2 * (b * rneDiv a b) = 2 * a + b → rneDiv a b % 2 = 0) := by
  have hdiv : b * (a / b) + a % b = a := Nat.div_add_mod a b
  have hmod : a % b < b := Nat.mod_lt a hb
  unfold rneDiv
  split
  case isTrue hup =>
    have hup : b < a % b * 2 ∨ a % b * 2 = b ∧ a / b % 2 = 1 := by simpa using hup
    rw [Nat.mul_succ]
    omega
  case isFalse hdown =>
    have hdown : a % b * 2 ≤ b ∧ (a % b * 2 = b → a / b % 2 = 0) := by simpa using hdown
    omega

@[simp] theorem rneDiv_one (n : Nat) : rneDiv n 1 = n := by
  simp [rneDiv, Nat.mod_one]

/-! ### The magnitude codes of a floating-point format -/

@[simp] theorem pow2_zero : pow2 0 = 1 := rfl

@[simp] theorem pow2_natCast (n : Nat) : pow2 n = 2 ^ n := rfl

@[simp] theorem pow2_neg_natCast (n : Nat) : pow2 (-n) = 1 := by
  simp [pow2]

theorem log2Rat_one {n : Nat} (hn : n ≠ 0) : log2Rat n 1 = Nat.log2 n := by
  have hone : Nat.log2 1 = 0 := by simp [Nat.log2_def]
  simp [log2Rat, hone, Nat.log2_self_le hn]

@[simp] theorem roundMag_zero (mb bias den : Nat) (e : Int) : roundMag mb bias 0 den e = 0 := rfl

/-- A value whose exponent is that of the grid at its size is rounded to itself. -/
theorem roundMag_of_on_grid {mb bias n : Nat} {e : Int} (hn : n ≠ 0)
    (hgrid : max (1 - (bias : Int)) (Nat.log2 n + e) - mb = e) :
    roundMag mb bias n 1 e = (e - (1 - (bias : Int) - mb)).toNat * 2 ^ mb + n := by
  have hq : (if (Nat.log2 n : Int) + e < 1 - bias then 1 - (bias : Int) else Nat.log2 n + e) - mb = e := by
    split <;> omega
  simp [roundMag, hn, log2Rat_one hn, hq]

theorem roundMag_subnormal {mb n : Nat} (bias : Nat) (hn : n < 2 ^ mb) : roundMag mb bias n 1 (1 - (bias : Int) - mb) = n := by
  by_cases h0 : n = 0
  · simp [h0]
  · have hlog : Nat.log2 n < mb := (Nat.log2_lt h0).2 hn
    rw [roundMag_of_on_grid h0 (by omega)]
    simp

theorem roundMag_normal {mb m ef : Nat} (bias : Nat) (hef : ef ≠ 0) (hm : m < 2 ^ mb) :
    roundMag mb bias (2 ^ mb + m) 1 ((ef : Int) - bias - mb) = ef * 2 ^ mb + m := by
  have hpos : 2 ^ mb + m ≠ 0 := Nat.ne_of_gt (Nat.add_pos_left (Nat.two_pow_pos mb) m)
  have hlog : Nat.log2 (2 ^ mb + m) = mb := by
    rw [Nat.log2_eq_iff hpos, Nat.pow_succ]
    omega
  have hsteps : ((ef : Int) - bias - mb - (1 - (bias : Int) - mb)).toNat + 1 = ef := by omega
  rw [roundMag_of_on_grid hpos (by rw [hlog]; omega), ← Nat.add_assoc, ← Nat.succ_mul, Nat.succ_eq_add_one, hsteps]

/-- A value that rounds to a finite magnitude is coded by its sign and that magnitude; S4 alone has no negative zero. -/
theorem encodeVal_fin_of_roundMag {f : Fmt} {eb mb bias mag n : Nat} {e : Int} {neg : Bool} (hf : fmtFloat f = some (eb, mb, bias))
    (hround : roundMag mb bias n 1 e = mag) (hmax : mag ≤ fmtMaxCode f) (hs4 : f = .s4 → mag = 0 → neg = false) :
    encodeVal f (.fin neg n e) = { code := signCode f neg mag } := by
  simp only [encodeVal, encodeRat, hf, hround, if_neg (Nat.not_lt.2 hmax)]
  split
  case isTrue hzero => simp [hs4 hzero.1 hzero.2, hzero.2, signCode]
  case isFalse => rfl

/-- A sign and a finite magnitude code come back from their value. -/
theorem encodeVal_decodeMag_finite {f : Fmt} {eb mb bias mag : Nat} {neg : Bool} (hf : fmtFloat f = some (eb, mb, bias))
    (hmax : mag ≤ fmtMaxCode f) (hs4 : f = .s4 → mag = 0 → neg = false) :
    encodeVal f (decodeFmt.decodeMag f neg mag) = { code := signCode f neg mag } := by
  have hlow : mag % 2 ^ mb < 2 ^ mb := Nat.mod_lt _ (Nat.two_pow_pos mb)
  have hsplit : mag / 2 ^ mb * 2 ^ mb + mag % 2 ^ mb = mag := Nat.div_add_mod' mag (2 ^ mb)
  simp only [decodeFmt.decodeMag, hf, if_neg (Nat.not_lt.2 hmax)]
  split
  case isTrue hef =>
    have hmag : mag % 2 ^ mb = mag := by simpa [hef] using hsplit
    exact encodeVal_fin_of_roundMag hf ((roundMag_subnormal bias hlow).trans hmag) hmax hs4
  case isFalse hef => exact encodeVal_fin_of_roundMag hf ((roundMag_normal bias hef hlow).trans hsplit) hmax hs4

/-- A sign and a magnitude code, an infinity's included, come back from their value unless that is NaN. -/
theorem encodeVal_decodeMag {f : Fmt} {fl : Nat × Nat × Nat} {mag : Nat} {neg : Bool} (hf : fmtFloat f = some fl)
    (hnan : decodeFmt.decodeMag f neg mag ≠ .nan) (hs4 : f = .s4 → mag = 0 → neg = false) :
    encodeVal f (decodeFmt.decodeMag f neg mag) = { code := signCode f neg mag } := by
  by_cases hmax : mag ≤ fmtMaxCode f
  · exact encodeVal_decodeMag_finite hf hmax hs4
  · have hinf : fmtHasInf f = true ∧ mag = fmtMaxCode f + 1 := by
      refine Decidable.byContradiction fun hno => hnan ?_
      simp [decodeFmt.decodeMag, hf, Nat.not_le.1 hmax, hno]
    simp [decodeFmt.decodeMag, hf, hinf, encodeVal]

/-! ### The codes of a format -/

theorem two_pow_fmtBits (f : Fmt) : 2 ^ fmtBits f = 2 ^ (fmtBits f - 1) * 2 := by
  cases f <;> rfl

/-- A code is its sign bit and its magnitude. -/
theorem signCode_bitAt_mod {f : Fmt} {code : Nat} (hcode : code < 2 ^ fmtBits f) :
    signCode f (bitAt code (fmtBits f - 1)) (code % 2 ^ (fmtBits f - 1)) = code := by
  have hwidth := two_pow_fmtBits f
  have htop : code / 2 ^ (fmtBits f - 1) < 2 := Nat.div_lt_of_lt_mul (hwidth ▸ hcode)
  have hsplit := Nat.div_add_mod code (2 ^ (fmtBits f - 1))
  obtain htop | htop := Nat.le_one_iff_eq_zero_or_eq_one.1 (Nat.le_of_lt_succ htop) <;> rw [htop] at hsplit
  · simpa [signCode, bitAt, bits, htop] using hsplit
  · simpa [signCode, bitAt, bits, htop, Nat.add_comm] using hsplit

/-- A code whose top bit is its sign comes back; S4 is left out for its code 8. -/
theorem encodeVal_decodeMag_signed {f : Fmt} {fl : Nat × Nat × Nat} {code : Nat} (hf : fmtFloat f = some fl) (hs4 : f ≠ .s4)
    (hcode : code < 2 ^ fmtBits f)
    (hnan : decodeFmt.decodeMag f (bitAt code (fmtBits f - 1)) (code % 2 ^ (fmtBits f - 1)) ≠ .nan) :
    encodeVal f (decodeFmt.decodeMag f (bitAt code (fmtBits f - 1)) (code % 2 ^ (fmtBits f - 1))) = { code := code } := by
  rw [encodeVal_decodeMag hf hnan (fun h => absurd h hs4), signCode_bitAt_mod hcode]

theorem encodeVal_decodeFmt_s4 {code : Nat} (hcode : code < 2 ^ fmtBits .s4) (hnan : decodeFmt .s4 code ≠ .nan) :
    encodeVal .s4 (decodeFmt .s4 code) = { code := code } := by
  have h8 : code % 16 ≠ 8 := fun h => hnan (if_pos h)
  have hdecode : decodeFmt .s4 code = decodeFmt.decodeMag .s4 (bitAt code 3) (code % 8) := if_neg h8
  have hpositive : code % 8 = 0 → bitAt code 3 = false := by
    simp only [bitAt, bits, beq_eq_false_iff_ne]
    omega
  have hsign : signCode .s4 (bitAt code 3) (code % 8) = code := signCode_bitAt_mod hcode
  rw [hdecode] at hnan ⊢
  rw [encodeVal_decodeMag rfl hnan (fun _ => hpositive), hsign]

/-- UE4M3 has no sign: its codes are magnitudes. -/
theorem encodeVal_decodeFmt_ue4m3 {code : Nat} (hcode : code < 2 ^ fmtBits .ue4m3) (hnan : decodeFmt .ue4m3 code ≠ .nan) :
    encodeVal .ue4m3 (decodeFmt .ue4m3 code) = { code := code } := by
  have hmag : code % 256 = code := Nat.mod_eq_of_lt hcode
  have hfinite : ¬ code % 256 ≥ 0x7F := fun h => hnan (if_pos h)
  have hdecode : decodeFmt .ue4m3 code = decodeFmt.decodeMag .ue4m3 false code := by simp [decodeFmt, hmag, hmag ▸ hfinite]
  rw [hdecode] at hnan ⊢
  exact encodeVal_decodeMag rfl hnan (fun h => nomatch h)

/-- An E8M0 code is a biased power of 2. -/
theorem encodeVal_decodeFmt_e8m0 {code : Nat} (hcode : code < 2 ^ fmtBits .e8m0) (hnan : decodeFmt .e8m0 code ≠ .nan) :
    encodeVal .e8m0 (decodeFmt .e8m0 code) = { code := code } := by
  have hmod : code % 256 = code := Nat.mod_eq_of_lt hcode
  have hnumber : code ≠ 0xFF := fun h => hnan (by rw [h]; rfl)
  have hdecode : decodeFmt .e8m0 code = .fin false 1 (code - 127) := by simp [decodeFmt, hmod, hnumber]
  have hlog : log2Rat 1 1 = 0 := rfl
  rw [hdecode]
  simp [encodeVal, encodeRat, fmtFloat, hlog, hmod]

/-- An integer within the range of an integer format is not rounded, and its code is its two's complement. -/
theorem encodeVal_int_of_le {f : Fmt} {neg : Bool} {n : Nat} (hf : fmtIsInt f = true)
    (hn : n ≤ if neg then 2 ^ (fmtBits f - 1) else 2 ^ (fmtBits f - 1) - 1) :
    encodeVal f (.fin neg n 0) = { code := if neg then (2 ^ fmtBits f - n) % 2 ^ fmtBits f else n } := by
  have hin := Nat.not_lt.2 hn
  cases f with
  | int32 | int16 | int8 | int4 =>
    simp only [encodeVal, encodeRat, fmtFloat, pow2_zero, Int.neg_zero, Nat.mul_one, rneDiv_one, gt_iff_lt, if_neg hin]
  | _ => cases hf

theorem encodeVal_vInt_sext {f : Fmt} {code : Nat} (hf : fmtIsInt f = true) (hcode : code < 2 ^ fmtBits f) :
    encodeVal f (vInt (sext (fmtBits f) code)) = { code := code } := by
  have hwidth := two_pow_fmtBits f
  rw [sext, Nat.mod_eq_of_lt hcode]
  split
  case isTrue hpos =>
    have hval : vInt (code : Int) = .fin false code 0 := by simp [vInt]
    rw [hval, encodeVal_int_of_le hf (by simp; omega)]
    simp
  case isFalse hneg =>
    have hval : vInt ((code : Int) - (2 ^ fmtBits f : Nat)) = .fin true (2 ^ fmtBits f - code) 0 := by
      have hlt : (code : Int) - (2 ^ fmtBits f : Nat) < 0 := by omega
      have habs : ((code : Int) - (2 ^ fmtBits f : Nat)).natAbs = 2 ^ fmtBits f - code := by omega
      rw [vInt, decide_eq_true hlt, habs]
    rw [hval, encodeVal_int_of_le hf (by simp; omega), if_pos rfl, Nat.sub_sub_self (Nat.le_of_lt hcode), Nat.mod_eq_of_lt hcode]

/-- A code that is no NaN comes back from its value, with no note. -/
theorem encodeVal_decodeFmt {f : Fmt} {code : Nat} (hcode : code < 2 ^ fmtBits f) (hnan : decodeFmt f code ≠ .nan) :
    encodeVal f (decodeFmt f code) = { code := code } := by
  cases f with
  | f64 | f32 | f16 | bf16 | e5m2 | e4m3 | e3m2 | e2m3 | e2m1 => exact encodeVal_decodeMag_signed rfl (by decide) hcode hnan
  | s4 => exact encodeVal_decodeFmt_s4 hcode hnan
  | ue4m3 => exact encodeVal_decodeFmt_ue4m3 hcode hnan
  | e8m0 => exact encodeVal_decodeFmt_e8m0 hcode hnan
  | int32 | int16 | int8 | int4 => exact encodeVal_vInt_sext rfl hcode

/-- Settles O32: the two halves are `rneDiv_nearest` and `encodeVal_decodeFmt`. -/
theorem conversionsRoundToNearest : Obligations.ConversionsRoundToNearest :=
  ⟨fun a _ hb => rneDiv_nearest a hb, fun _ _ => encodeVal_decodeFmt⟩

/-- Settles O31: the table has 8 rows, each evaluated. -/
theorem fourBitCodesHaveTheirValues : Obligations.FourBitCodesHaveTheirValues := by
  unfold Obligations.FourBitCodesHaveTheirValues
  decide

end Sys2Proof.Machine

/-! The commands of the Furrow array (R123, R151, R167) complete. A GEMM and a GEMM_SPLIT go on through `furRun`, which draws the half they
report and asks one instance for a parity error: what it draws and whom it asks have names here, and the units are `runCmd_of_unitsDone`. -/

namespace Sys2Proof.Machine

open Sys2Proof

/-- A command in execution has the opcode by which its row names it. -/
theorem op_of_running {q seq cls op : Nat} {c : Chip} {m : Cmd} (hrun : running q seq cls op c = some m) : m.op = op := by
  rw [running, Option.filter_eq_some_iff] at hrun
  obtain ⟨-, hguard⟩ := hrun
  simp only [Bool.and_eq_true, beq_iff_eq] at hguard
  obtain ⟨⟨⟨-, hop⟩, -⟩, -⟩ := hguard
  exact hop

/-- The halves whose arrays a GEMM or GEMM_SPLIT runs on (R139). -/
def furHalves (m : Cmd) : List Nat := if m.both then (m.claims.filter (fun e => e.cls == 1)).map (fun e => e.half) else [m.half]

/-- The choice drawn as such a command goes on, its cycles counted, and the module after it. -/
def furDraw (m : Cmd) (c : Chip) : Nat × Chip := ((furHalves m).foldl (fun c h => furCycles h c) c).draw

/-- The command as its units run it: of two shares it reports the half that the draw names (R139). -/
def furShare (m : Cmd) (c : Chip) : Cmd :=
  if m.both && !m.tandem then { m with half := nth (furHalves m) ((furDraw m c).1 % (furHalves m).length) m.half } else m

/-- The instance that is asked for a parity error: of its halves the first that holds one, or else that of the half it reports. -/
def furMet (m : Cmd) (c : Chip) : Engine :=
  match (furHalves m).find? (fun h => ((furDraw m c).2.engine ⟨1, h, 0⟩).upset) with
  | some h => ⟨1, h, 0⟩
  | none => ⟨1, (furShare m c).half, 0⟩

/-- furRun is runCmd at that instance, of that share, in the module after the draw. -/
theorem furRun_eq (limit : Nat) (m : Cmd) (c : Chip) :
    furRun limit m c = runCmd (furMet m c) ((furOp m).cAddr 0 0) ((furOp m).units (m.op == 2)) (furUnit (furOp m) (m.op == 2))
      (fun m c => endRes c m []) limit (furShare m c) (furDraw m c).2 := rfl

section
variable {m : Cmd} {c : Chip} {x : Cmd × Chip}

@[simp] theorem furShare_upset : (furShare m c).upset = m.upset := by
  rw [furShare]
  split <;> rfl

/-- It is the instance of one of the command's halves, or of the half it reports: where none of these holds an error, it holds none. -/
theorem furMet_clean (hclean : ∀ h ∈ (furShare m c).half :: furHalves m, ((furDraw m c).2.engine ⟨1, h, 0⟩).upset = false) :
    ((furDraw m c).2.engine (furMet m c)).upset = false := by
  rw [furMet]
  split
  case h_1 h hfound => exact hclean h (List.mem_cons_of_mem _ (List.mem_of_find?_eq_some hfound))
  case h_2 => exact hclean _ List.mem_cons_self

/-- A GEMM or GEMM_SPLIT whose tiles can all be computed, with no parity error held by its arrays, ends with its outcome. -/
theorem furRun_of_unitsDone {isSplit : Bool} (hsplit : (m.op == 2) = isSplit) (hm : m.upset = false)
    (hclean : ∀ h ∈ (furShare m c).half :: furHalves m, ((furDraw m c).2.engine ⟨1, h, 0⟩).upset = false)
    (hdone : unitsDone ((furOp m).units isSplit) (furUnit (furOp m) isSplit) ((furOp m).units isSplit) (furShare m c) (furDraw m c).2 = some x) :
    furRun (runFuel ((furOp m).units isSplit)) m c = ended (fun m c => endRes c m []) x := by
  rw [furRun_eq, hsplit]
  exact runCmd_of_unitsDone (furShare_upset.trans hm) (furMet_clean hclean) hdone

/-- An ATTN whose groups can all be computed ends with its outcome. -/
theorem attnStep_of_unitsDone {q seq : Nat} (hrun : running q seq 1 3 c = some m) (hm : m.upset = false) :
    let a := attnOp m
    let c1 := if a.decode then c else (furCycles m.half c).cycles [(FUR m.half, FUR_TILES)]
    let c1 := m.claims.foldl (fun c e => if e.cls = 2 then c.cycles [(HAR e.half e.idx, HAR_CYC_BUSY)] else c) c1
    (c1.engine ⟨1, m.half, 0⟩).upset = false → unitsDone a.units (attnUnit a) a.units m c1 = some x →
      attnStep q seq c = ended (fun m c => endRes c m []) x := by
  intro a c1 c2 he hdone
  rw [attnStep, hrun]
  exact runCmd_of_unitsDone hm he hdone

end

/-- Settles O25: a GEMM and a GEMM_SPLIT are `furRun` with the opcode that says whether there is a scan (`furRun_of_unitsDone`), an ATTN is
`attnStep_of_unitsDone`. -/
theorem furrowCommandsComplete : Obligations.FurrowCommandsComplete := by
  intro s q seq m x c hs d m1 fin _ hm
  refine ⟨fun hclean => ⟨?gemm, ?gemmSplit⟩, ?attn⟩
  case gemm =>
    intro hrun hwf hdone
    refine gives_of_run (f := gemmStep q seq) rfl hwf ?_
    rw [gemmStep, hrun]
    exact furRun_of_unitsDone (by rw [op_of_running hrun]; rfl) hm hclean hdone
  case gemmSplit =>
    intro hrun hwf hdone
    refine gives_of_run (f := gemmSplitStep q seq) rfl hwf ?_
    rw [gemmSplitStep, hrun]
    exact furRun_of_unitsDone (by rw [op_of_running hrun]; rfl) hm hclean hdone
  case attn =>
    intro a c0 c1 he hrun hwf hdone
    exact gives_of_run rfl hwf (attnStep_of_unitsDone hrun hm he hdone)

end Sys2Proof.Machine

/-! The CHAIN command of a Harrow (R193) completes: its steps are the units of `runCmd_of_unitsDone`. -/

namespace Sys2Proof.Machine

open Sys2Proof

/-- A CHAIN whose steps can all be done, with no parity error held by its Harrow as its cycles are counted, ends with its outcome. -/
theorem chainStep_of_unitsDone {q seq : Nat} {m : Cmd} {c : Chip} {x : Cmd × Chip} (hrun : running q seq 2 1 c = some m)
    (hm : m.upset = false) :
    let k := chainOf m
    let b := HAR m.half m.inst
    let c1 := c.cycles [(b, HAR_CYC_BUSY), (b, HAR_CYC_STALL_IN), (b, HAR_CYC_STALL_OUT), (b, HAR_CYC_STALL_EXT)]
    (c1.engine m.engine).upset = false → unitsDone k.steps (chainUnit k) k.steps m c1 = some x →
      chainStep q seq c = ended (fun m c => endRes c m []) x := by
  intro k b c1 he hdone
  rw [chainStep, hrun]
  exact runCmd_of_unitsDone hm he hdone

/-- Settles O26: a CHAIN is `runCmd` over its steps once its cycles are counted (`chainStep_of_unitsDone`). -/
theorem chainsComplete : Obligations.ChainsComplete := by
  intro s q seq m x hwf k b c1 hrun _ hm he hdone
  exact gives_of_run rfl hwf (chainStep_of_unitsDone hrun hm he hdone)

end Sys2Proof.Machine

/-! What a Drill instruction writes to its thread group (R220): how registers, pairs and program counters read after a write in each lane, and
that a computing instruction writes its destination alone. -/

namespace Sys2Proof.Machine

open Sys2Proof

/-! ### One lane's write -/

section
variable (g : DGroup) (w : Bool) (d i : Nat) (a : LReg)

/-- A write to a destination changes nothing of the group but its registers. -/
theorem DGroup.put_eq : g.put w d i a = { g with regs := (g.put w d i a).regs } := by
  rw [DGroup.put]
  split <;> rfl

@[simp] theorem DGroup.put_preds : (g.put w d i a).preds = g.preds := by rw [DGroup.put_eq]
@[simp] theorem DGroup.put_predPoison : (g.put w d i a).predPoison = g.predPoison := by rw [DGroup.put_eq]
@[simp] theorem DGroup.put_exited : (g.put w d i a).exited = g.exited := by rw [DGroup.put_eq]
@[simp] theorem DGroup.put_pcs : (g.put w d i a).pcs = g.pcs := by rw [DGroup.put_eq]

/-- A write to RZ is discarded. -/
theorem DGroup.put_rz : g.put w 255 i a = g := if_pos rfl

end

section
variable {g : DGroup} {w : Bool} {d r i j : Nat} {a : LReg}

/-- A register whose place is none of those written reads as before. -/
theorem DGroup.reg_put_of_ne (hlow : r * 32 + i ≠ d * 32 + j) (hhigh : w = true → r * 32 + i ≠ (d + 1) * 32 + j) :
    (g.put w d j a).reg r i = g.reg r i := by
  rw [DGroup.put]
  split
  · rfl
  · cases w with
    | false => simp only [DGroup.reg, Bool.false_eq_true, if_false, kget_kset_ne _ _ _ hlow]
    | true => simp only [DGroup.reg, if_true, kget_kset_ne _ _ _ (hhigh rfl), kget_kset_ne _ _ _ hlow]

/-- A lane's write leaves the registers of every other lane alone. -/
theorem DGroup.reg_put_of_lane_ne (hi : i < 32) (hj : j < 32) (h : i ≠ j) : (g.put w d j a).reg r i = g.reg r i :=
  DGroup.reg_put_of_ne (by omega) (fun _ => by omega)

/-- A lane's write leaves every register alone that is not its destination. -/
theorem DGroup.reg_put_of_reg_ne (hi : i < 32) (hj : j < 32) (hd : r ≠ d) (hpair : w = false ∨ r ≠ d + 1) :
    (g.put w d j a).reg r i = g.reg r i :=
  DGroup.reg_put_of_ne (by omega) (fun hw => by have := hpair.resolve_left (by simp [hw]); omega)

/-- The written register reads as the low word. -/
theorem DGroup.reg_put_self (hd : d ≠ 255) : (g.put w d i a).reg d i = ⟨a.v % 2 ^ 32, a.poison, a.nan⟩ := by
  rw [DGroup.put, if_neg hd]
  cases w with
  | false => simp only [DGroup.reg, if_neg hd, Bool.false_eq_true, if_false, kget_kset_self]
  | true =>
    have hkey : d * 32 + i ≠ (d + 1) * 32 + i := by omega
    simp only [DGroup.reg, if_neg hd, if_true, kget_kset_ne _ _ _ hkey, kget_kset_self]

/-- The second register of a written pair reads as the high word. -/
theorem DGroup.reg_put_pair_high (hd : d < 254) : (g.put true d i a).reg (d + 1) i = ⟨a.v / 2 ^ 32 % 2 ^ 32, a.poison, a.nan⟩ := by
  have hlow : d ≠ 255 := by omega
  have hhigh : d + 1 ≠ 255 := by omega
  simp only [DGroup.put, DGroup.reg, if_neg hlow, if_neg hhigh, if_true, kget_kset_self]

/-- A written pair reads back whole. -/
theorem DGroup.pair_put_self (hd : d < 254) (ha : a.v < 2 ^ 64) : (g.put true d i a).pair d i = a := by
  have hlow : d ≠ 255 := by omega
  have hword : a.v % 2 ^ 32 + 2 ^ 32 * (a.v / 2 ^ 32 % 2 ^ 32) = a.v := by omega
  simp only [DGroup.pair, if_neg hlow, DGroup.reg_put_self hlow, DGroup.reg_put_pair_high hd, hword, Bool.or_self]

end

/-! ### The writes of all lanes -/

/-- The group after lanes of a list have each written the value of v to their destination. -/
def DGroup.putLanes (g : DGroup) (w : Bool) (d : Nat) (v : Nat → LReg) (l : List Nat) : DGroup := l.foldl (fun g i => g.put w d i (v i)) g

section
variable (g : DGroup) (w : Bool) (d : Nat) (v : Nat → LReg) (l : List Nat)

@[simp] theorem DGroup.putLanes_preds : (g.putLanes w d v l).preds = g.preds := foldl_keep DGroup.preds _ (fun g i => g.put_preds w d i (v i)) l g
@[simp] theorem DGroup.putLanes_predPoison : (g.putLanes w d v l).predPoison = g.predPoison :=
  foldl_keep DGroup.predPoison _ (fun g i => g.put_predPoison w d i (v i)) l g
@[simp] theorem DGroup.putLanes_exited : (g.putLanes w d v l).exited = g.exited := foldl_keep DGroup.exited _ (fun g i => g.put_exited w d i (v i)) l g
@[simp] theorem DGroup.putLanes_pcs : (g.putLanes w d v l).pcs = g.pcs := foldl_keep DGroup.pcs _ (fun g i => g.put_pcs w d i (v i)) l g

theorem DGroup.putLanes_rz : g.putLanes w 255 v l = g := foldl_keep id _ (fun g i => g.put_rz w i (v i)) l g

end

section
variable {g : DGroup} {w : Bool} {d r i : Nat} {v : Nat → LReg} {l : List Nat}

/-- A register that no lane's write changes is as it was after all of them. -/
theorem DGroup.reg_putLanes_of_put (h : ∀ y : DGroup, ∀ j ∈ l, (y.put w d j (v j)).reg r i = y.reg r i) : (g.putLanes w d v l).reg r i = g.reg r i :=
  List.foldlRecOn (motive := fun y : DGroup => y.reg r i = g.reg r i) l _ rfl (fun y hy j hj => (h y j hj).trans hy)

theorem DGroup.reg_putLanes_of_reg_ne (hl : ∀ j ∈ l, j < 32) (hi : i < 32) (hd : r ≠ d) (hpair : w = false ∨ r ≠ d + 1) :
    (g.putLanes w d v l).reg r i = g.reg r i :=
  DGroup.reg_putLanes_of_put (fun _ j hj => DGroup.reg_put_of_reg_ne hi (hl j hj) hd hpair)

theorem DGroup.reg_putLanes_of_not_mem (hl : ∀ j ∈ l, j < 32) (hi : i < 32) (hmem : i ∉ l) : (g.putLanes w d v l).reg r i = g.reg r i :=
  DGroup.reg_putLanes_of_put (fun _ j hj => DGroup.reg_put_of_lane_ne hi (hl j hj) (fun h => hmem (h ▸ hj)))

/-- A lane that writes once reads all its registers as it left them, for the lanes after it write elsewhere. -/
theorem DGroup.reg_putLanes_of_mem (hl : ∀ j ∈ l, j < 32) (hnodup : l.Nodup) (hmem : i ∈ l) :
    ∃ y : DGroup, ∀ r, (g.putLanes w d v l).reg r i = (y.put w d i (v i)).reg r i := by
  obtain ⟨before, after, rfl⟩ := List.append_of_mem hmem
  have hlater : i ∉ after := (List.nodup_cons.1 (List.nodup_append.1 hnodup).2.1).1
  refine ⟨g.putLanes w d v before, fun r => ?_⟩
  rw [DGroup.putLanes, List.foldl_append, List.foldl_cons]
  exact DGroup.reg_putLanes_of_not_mem (fun j hj => hl j (by simp [hj])) (hl i hmem) hlater

/-- After a write of one register each, a lane's destination reads as what it wrote. -/
theorem DGroup.reg_putLanes_self (hl : ∀ j ∈ l, j < 32) (hnodup : l.Nodup) (hmem : i ∈ l) (hd : d ≠ 255) :
    (g.putLanes w d v l).reg d i = ⟨(v i).v % 2 ^ 32, (v i).poison, (v i).nan⟩ := by
  obtain ⟨y, hy⟩ := DGroup.reg_putLanes_of_mem (g := g) (w := w) (d := d) (v := v) hl hnodup hmem
  rw [hy, DGroup.reg_put_self hd]

/-- After a write of a pair each, a lane's destination pair reads as what it wrote. -/
theorem DGroup.pair_putLanes_self (hl : ∀ j ∈ l, j < 32) (hnodup : l.Nodup) (hmem : i ∈ l) (hd : d < 254) (hv : (v i).v < 2 ^ 64) :
    (g.putLanes true d v l).pair d i = v i := by
  obtain ⟨y, hy⟩ := DGroup.reg_putLanes_of_mem (g := g) (w := true) (d := d) (v := v) hl hnodup hmem
  calc (g.putLanes true d v l).pair d i = (y.put true d i (v i)).pair d i := by rw [DGroup.pair, DGroup.pair, hy, hy]
    _ = v i := DGroup.pair_put_self hd hv

end

/-! ### Program counters -/

theorem setNth_eq_set {α : Type} (l : List α) (i : Nat) (x : α) : setNth l i x = l.set i x := by
  induction l generalizing i with
  | nil => rfl
  | cons y l ih =>
    cases i with
    | zero => rfl
    | succ i => rw [setNth, ih, List.set_cons_succ]

/-- After one value has been put at each place of a list, those places read it and the others read as before. -/
theorem nth_foldl_setNth {α : Type} (x d : α) (places : List Nat) {l : List α} {i : Nat} (hi : i < l.length) :
    nth (places.foldl (fun l j => setNth l j x) l) i d = if i ∈ places then x else nth l i d := by
  induction places generalizing l with
  | nil => simp
  | cons j places ih =>
    rw [List.foldl_cons, ih (by rwa [setNth_eq_set, List.length_set]), setNth_eq_set]
    by_cases hj : j = i
    · simp [nth, hj, hi]
    · simp [nth, hj, Ne.symm hj]

/-- The lanes that run move to the next instruction (R218); the others stay where they are. -/
theorem DCtx.nth_step_pcs (x : DCtx) {g : DGroup} {i : Nat} (hi : i < g.pcs.length) :
    nth (x.step g).pcs i 0 = if i ∈ x.lanes then (x.pc + 8) % 2 ^ 64 else nth g.pcs i 0 :=
  nth_foldl_setNth _ _ _ hi

/-! ### The instructions that compute -/

/-- What a lane of a computing instruction writes: its result, poisoned by a poisoned guard (R244). -/
def DCtx.result (x : DCtx) (v : DCtx → Nat → LReg) (i : Nat) : LReg := { v x i with poison := (v x i).poison || x.g.predBad x.i.p i }

/-- A computing instruction writes its destination in the lanes whose guard holds, and moves on. -/
theorem compute_eq (w : Bool) (v : DCtx → Nat → LReg) (x : DCtx) (c : Chip) :
    compute w v x c = x.save (x.step (x.g.putLanes w x.i.d (x.result v) x.on)) c := rfl

/-- Settles O36: the group is the old one with the writes of `DGroup.putLanes` and the program counters of `DCtx.nth_step_pcs`. -/
theorem drillWritesOnlyItsDestination : Obligations.DrillWritesOnlyItsDestination := by
  intro w v x c hnodup hlanes hpcs
  have hon : ∀ i ∈ x.on, i < 32 := fun i hi => hlanes i (List.mem_filter.1 hi).1
  have honNodup : x.on.Nodup := hnodup.filter _
  refine ⟨x.step (x.g.putLanes w x.i.d (x.result v) x.on), compute_eq w v x c, DGroup.putLanes_preds .., DGroup.putLanes_predPoison ..,
    DGroup.putLanes_exited .., ?pcs, ?rz, ?otherReg, ?otherLane, ?single, ?pair⟩
  case pcs =>
    intro i hi
    rw [DCtx.nth_step_pcs x (by rwa [DGroup.putLanes_pcs, hpcs]), DGroup.putLanes_pcs]
  case rz =>
    intro hd
    rw [hd, DGroup.putLanes_rz]
    rfl
  case otherReg => exact fun r i hi hd hpair => DGroup.reg_putLanes_of_reg_ne hon hi hd hpair
  case otherLane => exact fun r i hi hmem => DGroup.reg_putLanes_of_not_mem hon hi hmem
  case single => exact fun i hi hd _ => DGroup.reg_putLanes_self hon honNodup hi (by omega)
  case pair =>
    intro i hi hd hw hv
    subst hw
    exact DGroup.pair_putLanes_self (v := x.result v) hon honNodup hi hd hv

end Sys2Proof.Machine

/-! A thread group comes to an instruction (R219, R220): the row of its opcode carries it out. The rows of the instructions that compute. -/

namespace Sys2Proof.Machine

open Sys2Proof

/-! ### The row of an instruction -/

/-- A row that wants the instruction its group comes to carries it out, once the instruction and its cycles are counted. -/
theorem drillRow_of_fetched {want : DIns → Nat → Bool} {f : DCtx → Chip → Chip} {g : Grp} {c d : Chip} {m : Cmd} {l : DLaunch} {b : DBlock}
    {y : DGroup} {pc : Nat} {lanes : List Nat} {x : DCtx} (hgroup : drillGroup g c = some (m, l, b, y)) (hnext : y.next = some (pc, lanes))
    (hfetch : drillFetch m l b y pc lanes c = (.inl x, d)) (hwant : want x.i (launchRegs m) = true)
    (hclean : (d.engine ⟨3, l.half, b.core⟩).upset = false) :
    drillRow want f g c = f x ((d.rcount x.base DRL_INSTR 1).cycles
      [(x.base, DRL_CYC_ACTIVE), (x.base, DRL_CYC_STALL_BANK), (x.base, DRL_CYC_STALL_MEM), (x.base, DRL_CYC_STALL_EXT)]) := by
  simp only [drillRow, hgroup, hnext, hfetch, hwant, hclean, Bool.not_true, Bool.false_eq_true, if_false]

section
variable {i : Instr} {s : State} {g : Grp} {x : DCtx} {e : Chip} {op : Nat}

/-- The row of the opcode that a group comes to carries the instruction out. -/
theorem opRow_of_comesTo {c : Chip} (f : DCtx → Chip → Chip) (h : comesTo op g c x e) : opRow op f g c = f x e := by
  obtain ⟨m, l, b, y, pc, lanes, d, hgroup, hnext, hfetch, hop, hlegal, hclean, rfl⟩ := h
  exact drillRow_of_fetched hgroup hnext hfetch (by simp [hop, hlegal]) hclean

/-- A well-formed instruction of a row gives what the row does with the instruction the group comes to. -/
theorem gives_of_opRow {f : DCtx → Chip → Chip} {r : Chip} (hexec : exec i s = s.run i (opRow op f g)) (hf : f x e = r) (hwf : i.wf = true)
    (h : comesTo op g s.toChip x e) : Gives i s r :=
  gives_of_run hexec hwf ((opRow_of_comesTo f h).trans hf)

/-- Results that agree in every lane of the instruction's context are one computation. -/
theorem compute_congr {w : Bool} {v v' : DCtx → Nat → LReg} (h : ∀ i, v x i = v' x i) : compute w v x e = compute w v' x e := by
  have hresult : x.result v = x.result v' := funext fun i => by rw [DCtx.result, DCtx.result, h]
  rw [compute_eq, compute_eq, hresult]

/-! ### Operands and results -/

theorem divInt_quotient (uns : Bool) (n a b : Nat) :
    divInt uns false n a b = if b = 0 then 0 else if uns then a / b else wrapInt n ((sext n a).tdiv (sext n b)) := by
  simp only [divInt, Bool.false_eq_true, if_false]

theorem divInt_remainder (uns : Bool) (n a b : Nat) :
    divInt uns true n a b = if b = 0 then a else if uns then a % b else wrapInt n ((sext n a).tmod (sext n b)) := by
  simp only [divInt, if_true]

/-- The second operand of an F32 opcode that is not in its immediate form is a register. -/
theorem DIns.f32B_of_register {i : DIns} (himm : i.isImm = false) (g : DGroup) (lane : Nat) : i.f32B g lane = g.reg i.b lane := by
  rw [DIns.f32B, himm]
  rfl

/-- S2R of a register that a row names draws no open value. -/
theorem drillS2r_of_le (himm : x.i.imm ≤ 19) : drillS2r x e = compute false (fun x i => { v := special x x.i.imm i 0 }) x e := by
  rw [drillS2r, if_neg (by omega)]

end

/-- Settles O34: each row carries out the instruction its group comes to (`gives_of_opRow`). The rows that share `intOp` or `fltOp` compute
lane by lane what that means at their opcode (`compute_congr`); a quotient and a remainder are the two cases of `divInt`. -/
theorem drillInstructionsCompute : Obligations.DrillInstructionsCompute := by
  intro s g x e lanes uns at_ f32 f64 fma
  refine ⟨?iadd, ?isub, ?imul, ?imulhi, ?idiv, ?irem, ?iand, ?ior, ?ixor, ?shl, ?shr, ?imin, ?imax, ?icmp, ?sel, ?mov, ?movi, ?movhi, ?s2r,
    ?fadd, ?fsub, ?fmul, ?ffma, ?fmin, ?fmax, ?fcmp, ?dadd, ?dsub, ?dmul, ?dfma, ?dmin, ?dmax, ?dcmp, ?sfu, ?cvt⟩
  case iadd | isub | imul | imulhi | iand | ior | ixor | shl | shr | imin | imax => exact gives_of_opRow rfl (compute_congr fun _ => rfl)
  case idiv => exact gives_of_opRow rfl (compute_congr fun _ => congrArg (LReg.mk · _ _) (divInt_quotient ..))
  case irem => exact gives_of_opRow rfl (compute_congr fun _ => congrArg (LReg.mk · _ _) (divInt_remainder ..))
  case fadd | fsub | fmul | fmin | fmax => exact gives_of_opRow rfl (compute_congr fun _ => rfl)
  case dadd | dsub | dmul | dfma | dmin | dmax => exact gives_of_opRow rfl (compute_congr fun _ => rfl)
  case icmp | sel | mov | movi | movhi | fcmp | dcmp | sfu | cvt => exact gives_of_opRow rfl rfl
  case s2r => exact fun hwf h himm => gives_of_opRow rfl (drillS2r_of_le himm) hwf h
  case ffma =>
    intro hwf h himm
    refine gives_of_opRow rfl (compute_congr fun i => ?_) hwf h
    rw [DIns.f32B_of_register himm]
    rfl

end Sys2Proof.Machine

/-! The Drill instructions that access memory, wait or branch: each does what its row says where nothing stops it. -/

namespace Sys2Proof.Machine

open Sys2Proof

section
variable {x : DCtx} {e : Chip}

/-! ### Loads, stores and atomics -/

/-- A load whose places are found and whose lanes meet no word of bad parity ends with the group and the module its lanes leave. -/
theorem drillLd_of_placed {l : List (Nat × Nat × DPlace)} {d d' : Chip} {y : DGroup} (hplaces : drillPlaces x x.i.size false x.on e = (.inl l, d)) :
    let n := lineCount l
    let c := rangeErr x l (d.rcount x.base DRL_REQUESTS n)
    let c := if x.i.space = 0 then c.draw.2.rcount x.base DRL_L1_MISS (c.draw.1 % (n + 1)) else c
    l.foldl (fun r a => loadLane1 x a r) (x.g, none, c) = (y, none, d') → drillLd x e = x.save (x.step y) d' := by
  intro n c c1 hload
  simp only [drillLd, hplaces]
  rw [hload]

theorem drillSt_of_placed {l : List (Nat × Nat × DPlace)} {d : Chip} (hplaces : drillPlaces x x.i.size true x.on e = (.inl l, d)) :
    let o := laneOrder x l (rangeErr x l (d.rcount x.base DRL_REQUESTS (lineCount l)))
    drillSt x e = x.save (x.step x.g) (storePoison x l (o.1.foldl (fun c a => storeLane1 x a c) o.2)) := by
  simp only [drillSt, hplaces]

theorem drillAtom_of_placed {l : List (Nat × Nat × DPlace)} {d : Chip} (hplaces : drillPlaces x x.i.size true x.on e = (.inl l, d)) :
    let o := laneOrder x l (d.rcount x.base DRL_REQUESTS (lineCount l))
    let t := o.1.foldl (fun r a => atomLane x a r) (x.g, o.2)
    drillAtom x e = x.save (x.step t.1) t.2 := by
  simp only [drillAtom, hplaces]

/-! ### Barriers and messages -/

theorem drillFence_eq :
    drillFence x e = if x.i.mod = 0 ∨ x.on = [] then x.save (x.step x.g) e else l1Clear x.l.half x.b.core (x.save (x.step x.g) e) := by
  simp only [drillFence, Bool.or_eq_true, decide_eq_true_eq, List.isEmpty_iff]

theorem drillWaitMsg_of_no_lane (hon : x.on = []) : drillWaitMsg x e = x.save (x.step x.g) e := by
  rw [drillWaitMsg, hon]
  rfl

theorem drillWaitMsg_of_latch (hon : x.on ≠ []) (hlatch : x.b.latch = true) :
    drillWaitMsg x e = (x.save (x.step x.g) e).onBlock x.l.q x.l.seq x.b.idx (fun b => { b with latch := false }) := by
  rw [drillWaitMsg, if_neg (by simpa using hon), if_pos hlatch]

theorem drillWaitMsg_of_no_latch (hon : x.on ≠ []) (hlatch : x.b.latch = false) :
    drillWaitMsg x e = x.save { x.step x.g with waitMsg := true } e := by
  rw [drillWaitMsg, if_neg (by simpa using hon), if_neg (by simp [hlatch])]

/-! ### Branches -/

/-- A branch, CALL or EXIT under a guard with no poison meets none. -/
theorem poisonedJump_of_clear (hclear : x.lanes.all (fun i => !x.g.predBad x.i.p i) = true) : poisonedJump x false = false := by
  simpa [poisonedJump] using hclear

/-- Neither does a RET whose return addresses have none. -/
theorem poisonedJump_of_clear_of_targets (hclear : x.lanes.all (fun i => !x.g.predBad x.i.p i) = true)
    (htargets : x.on.all (fun i => !(x.g.pair x.i.a i).poison) = true) : poisonedJump x true = false := by
  simp only [poisonedJump, Bool.true_and, Bool.or_eq_false_iff, List.any_eq_false]
  simp only [List.all_eq_true, Bool.not_eq_true'] at hclear htargets
  exact ⟨fun i hi => by simp [hclear i hi], fun i hi => by simp [htargets i hi]⟩

/-- A jump that meets no poison sets the program counters of the lanes whose guard holds; with a link, their pair D keeps the next address. -/
theorem drillJump_of_clear {target : DCtx → Nat → Nat} {ret link : Bool} (h : poisonedJump x ret = false) :
    drillJump target ret link x e = x.save (x.on.foldl (fun y i =>
      let y := if link then y.put true x.i.d i { v := (x.pc + 8) % 2 ^ 64 } else y
      { y with pcs := setNth y.pcs i (target x i) }) (x.step x.g)) e := by
  rw [drillJump, h]
  rfl

theorem drillExit_of_clear (h : poisonedJump x false = false) :
    drillExit x e = drillOpen x (x.save { x.step x.g with exited := x.on.foldl (fun m i => setLane m i true) x.g.exited } e) := by
  rw [drillExit, h]
  rfl

end

/-- Settles O35: each row carries out the instruction its group comes to (`gives_of_opRow`), and where nothing stops it that is what the lemma
of its instruction says. -/
theorem drillMovesAndBranches : Obligations.DrillMovesAndBranches := by
  intro s g x e at_ clear jumped there
  refine ⟨?ld, ?st, ?atom, ?barSync, ?fence, ?waitMsg, ?bra, ?call, ?ret, ?exit⟩
  case ld => exact fun hwf h l d y d' hplaces hload => gives_of_opRow rfl (drillLd_of_placed hplaces hload) hwf h
  case st => exact fun hwf h l d hplaces => gives_of_opRow rfl (drillSt_of_placed hplaces) hwf h
  case atom => exact fun hwf h l d hplaces => gives_of_opRow rfl (drillAtom_of_placed hplaces) hwf h
  case barSync => exact gives_of_opRow rfl rfl
  case fence => exact gives_of_opRow rfl drillFence_eq
  case waitMsg =>
    intro hwf h
    exact ⟨fun hon => gives_of_opRow rfl (drillWaitMsg_of_no_lane hon) hwf h,
      fun hon hlatch => gives_of_opRow rfl (drillWaitMsg_of_latch hon hlatch) hwf h,
      fun hon hlatch => gives_of_opRow rfl (drillWaitMsg_of_no_latch hon hlatch) hwf h⟩
  case bra | call => exact fun hwf h hclear => gives_of_opRow rfl (drillJump_of_clear (poisonedJump_of_clear hclear)) hwf h
  case ret =>
    exact fun hwf h hclear htargets => gives_of_opRow rfl (drillJump_of_clear (poisonedJump_of_clear_of_targets hclear htargets)) hwf h
  case exit => exact fun hwf h hclear => gives_of_opRow rfl (drillExit_of_clear (poisonedJump_of_clear hclear)) hwf h

end Sys2Proof.Machine

/-! Launches begin (R224, R225), and an instruction that is not legal ends its launch (R222). -/

namespace Sys2Proof.Machine

open Sys2Proof

section
variable {q seq : Nat} {m : Cmd} {c : Chip}

/-- A LAUNCH whose argument block is readable, with no uncorrectable and no poisoned unit, copies it and begins. -/
theorem launchStep_of_clean {ps : List XPage} {d : Chip} (hrun : running q seq 3 1 c = some m) (hnew : c.launch q seq = none) :
    let va := bits (m.par 24 8) 0 57
    let n := m.par 32 4
    let place := fun i => (pageAddr ps (va + i)).getD 0
    xlatePages m.half m.ctx (c.ctxDesc m.ctx).ptRoot (needRange va n 0xFF false []) c = (ps, d) → (∀ p ∈ ps, p.ok = true) →
      (∀ i < n, d.memBad.contains (place i / 64) = false ∧ d.poisoned (place i) = false) →
      launchStep q seq c = { d.putCmd m with drill := { d.drill with launches := d.drill.launches ++
        [{ q := q, seq := seq, half := m.half, ctx := m.ctx, args := (List.range n).map (fun i => d.rdByte (place i)) }] } } := by
  intro va n place hpages hok hclean
  have hmapped : ps.find? (fun p => !p.ok) = none := List.find?_eq_none.2 (fun p hp => by simp [hok p hp])
  have hgood : ((List.range n).map place).filter (fun a => d.memBad.contains (a / 64)) = [] := by
    refine List.filter_eq_nil_iff.2 (List.forall_mem_map.2 fun i hi => ?_)
    rw [(hclean i (List.mem_range.1 hi)).1]
    exact Bool.false_ne_true
  have hunpoisoned : (List.range n).filter (fun i => d.poisoned (nth ((List.range n).map place) i 0)) = [] := by
    refine List.filter_eq_nil_iff.2 fun i hi => ?_
    have hi := List.mem_range.1 hi
    simp [nth, hi, (hclean i hi).2]
  simp only [va, n, place] at hpages hgood hunpoisoned ⊢
  simp only [launchStep, hrun, hnew, hpages, hmapped, hgood, hunpoisoned, List.head?_nil, List.foldl_nil, List.map_map]
  rfl

/-- BLOCK_START of the block and the core that the plan names places the cluster as soon as its cores are ready. -/
theorem blockStartStep_of_ready {l : DLaunch} {core : Nat} {cores : List Nat} {d : Chip} {x : DLaunch}
    (hrun : running q seq 3 1 c = some m) (hlaunch : c.launch q seq = some l) (hplan : planCluster c l m = some (core :: cores))
    (hfirst : placesFirst c l = false)
    (hready : (unionNat [] (core :: cores)).foldl
      (fun (r : Bool × Chip) n => ((r.1 && (readyCore l.half n r.2).1), (readyCore l.half n r.2).2)) (true, c) = (true, d)) :
    let placed := ((List.range (core :: cores).length).zip (core :: cores)).foldl
      (fun c x => placeBlock m l (clusterBlock m l.next x.1) x.2 c) d
    placed.launch q seq = some x →
      blockStartStep q seq (clusterBlock m l.next 0) core c = placed.putLaunch { x with next := x.next + 1 } := by
  intro placed hplaced
  have hnamed : (placesFirst c l || clusterBlock m l.next 0 != clusterBlock m l.next 0 || (core :: cores).head? != some core) = false := by
    simp [hfirst]
  rw [blockStartStep, hrun, hlaunch]
  simp only [hplan, hnamed, hready, Bool.false_eq_true, if_false, Bool.not_true]
  rw [hplaced]

/-- A group that comes to an instruction that is not legal ends its launch with that instruction's address. -/
theorem illegalInstructionStep_of_fetched {g : Grp} {d : Chip} {l : DLaunch} {b : DBlock} {y : DGroup} {pc : Nat} {lanes : List Nat} {x : DCtx}
    (hgroup : drillGroup g c = some (m, l, b, y)) (hnext : y.next = some (pc, lanes)) (hfetch : drillFetch m l b y pc lanes c = (.inl x, d))
    (hlegal : x.i.legal (launchRegs m) = false) (hclean : (d.engine ⟨3, l.half, b.core⟩).upset = false) :
    illegalInstructionStep g c = endLaunch x.l.q x.l.seq (mkRes sMalformed [(0, 8, x.pc)])
      ((d.rcount x.base DRL_INSTR 1).cycles
        [(x.base, DRL_CYC_ACTIVE), (x.base, DRL_CYC_STALL_BANK), (x.base, DRL_CYC_STALL_MEM), (x.base, DRL_CYC_STALL_EXT)]) :=
  drillRow_of_fetched hgroup hnext hfetch (by rw [hlegal]; rfl) hclean

end

/-- Settles O33: the three are `launchStep_of_clean`, `blockStartStep_of_ready` and `illegalInstructionStep_of_fetched`. -/
theorem launchesBegin : Obligations.LaunchesBegin := by
  intro s q seq m
  refine ⟨?launch, ?blockStart, ?illegal⟩
  case launch =>
    intro ps d va n place hwf hrun hnew hpages hok hclean
    exact gives_of_run rfl hwf (launchStep_of_clean hrun hnew hpages hok hclean)
  case blockStart =>
    intro l ns core cores d x block placed hwf hrun hlaunch hplan hns hfirst hready hplaced
    subst hns
    exact gives_of_run rfl hwf (blockStartStep_of_ready hrun hlaunch hplan hfirst hready hplaced)
  case illegal =>
    intro g l b y pc lanes x d hwf hgroup hnext hfetch hlegal hclean
    exact gives_of_run rfl hwf (illegalInstructionStep_of_fetched hgroup hnext hfetch hlegal hclean)

end Sys2Proof.Machine

/-! Fields of registers and bytes of both memories read back (R268, R273, R391, R537): what writing a field or a byte leaves alone. -/

namespace Sys2Proof.Machine

open Sys2Proof

/-- Putting a field changes no register but the one that holds it, and nothing that is not a register. -/
theorem onlyRegs_rput (c : Chip) (b : Nat) (f : Fld) (v : Nat) : OnlyRegs [b + f.off] c (c.rput b f v) :=
  ⟨rfl, fun o ho => Chip.reg_rput_ne c b f v o (List.ne_of_not_mem_cons ho)⟩

/-- Where no host core holds a copy of its sector (R391), a byte written changes no other byte of frame space. -/
theorem Chip.rdByte_wrByte_ne (c : Chip) {a x : Nat} (b : Byte) (hdir : c.host.dir.find? (fun d => d.sec == a / 64) = none) (hne : x ≠ a) :
    (c.wrByte a b).rdByte x = c.rdByte x := by
  unfold Chip.wrByte
  split
  · rw [Chip.rdByte, kget_kset_ne _ _ _ hne, Chip.mem_touch, Chip.recall_of_none c _ hdir, Chip.rdByte]
  · rfl

/-- A byte written to frame space leaves the Seedbeds alone, whatever copies it recalls. -/
@[simp] theorem Chip.wrByte_sbd (c : Chip) (a : Nat) (b : Byte) : (c.wrByte a b).sbd = c.sbd := by
  unfold Chip.wrByte
  split
  · exact (Chip.touch_sbd _ a).trans (Chip.recall_sbd c (a / 64))
  · rfl

/-- Settles O7: a field's bits are those of its register alone; a byte written is one entry of its memory, and the recall before it ends
at once where the directory names no copy. -/
theorem fieldsAndMemoryReadBack : Obligations.FieldsAndMemoryReadBack := by
  refine ⟨fun c b f v hf => ⟨?put, ?count, ?otherField, onlyRegs_rput c b f v⟩,
    fun c a b => ⟨?backed, ?notBacked, ?otherByte, ?seedbeds, ?stored, ?memForm, ?sbdForm⟩⟩
  case put => exact Chip.rget_rput_self c b f v hf
  case count => exact Chip.rget_rcount_self c b f v hf
  case otherField => exact fun b' g hdisjoint => Chip.rget_rput_ne c b f v b' g hf hdisjoint
  case backed => exact Chip.rdByte_wrByte_self c a b
  case notBacked => exact Chip.wrByte_not_backed c a b
  case otherByte => exact fun hdir x hne => Chip.rdByte_wrByte_ne c b hdir hne
  case seedbeds => exact fun h o => by rw [Chip.rdSbd, Chip.wrByte_sbd, Chip.rdSbd]
  case stored => exact fun h o h' o' => Chip.rdSbd_putSbd c h o h' o' b
  case memForm => exact Chip.wrByte_mem_wf c a b
  case sbdForm => exact fun hform h o => Chip.putSbd_sbd_wf c h o b hform

end Sys2Proof.Machine

/-! The Gleaner commands (R294 to R300, R308) complete: the frame parts of REGION and the last unit are the units of `runCmd_of_unitsDone`. -/

namespace Sys2Proof.Machine

open Sys2Proof

/-- A Gleaner command whose units can all be done, with no parity error held by the Gleaners of its half as its units and cycles are
counted, ends with its outcome. -/
theorem glnStep_of_unitsDone {op q seq : Nat} {m : Cmd} {c : Chip} {x : Cmd × Chip} (hrun : running q seq 5 op c = some m)
    (hm : m.upset = false) :
    let g := glnOp m
    let b := g.blk c m (0, 0, 0)
    let c1 := c.cycles [(b, INF_GLN_RD_UNITS), (b, INF_GLN_WR_UNITS), (b, INF_GLN_CARRIED), (b, INF_GLN_CYC_BUSY), (b, INF_GLN_CYC_YIELD),
      (INF m.half 0, INF_GDS_FALLBACK_UNITS)]
    let n := g.parts.length + 1
    (c1.engine ⟨5, m.half, 0⟩).upset = false → unitsDone n (g.unit g.parts) n m c1 = some x →
      glnStep op q seq c = ended (fun m c => endRes c m []) x := by
  intro g b c1 n he hdone
  rw [glnStep, hrun]
  exact runCmd_of_unitsDone hm he hdone

/-- Settles O28: each of the eleven is `glnStep` at its opcode, which `glnStep_of_unitsDone` takes to its end. -/
theorem gleanerCommandsComplete : Obligations.GleanerCommandsComplete := by
  intro s q seq m x g b c1 n e _ hm he hdone
  refine ⟨?score, ?valueAcc, ?gather, ?scatter, ?blockReduce, ?topk, ?update, ?fill, ?copy, ?checksum, ?scrub⟩
  case score | valueAcc | gather | scatter | blockReduce | topk | update | fill | copy | checksum | scrub =>
    exact fun hrun hwf => gives_of_run rfl hwf (glnStep_of_unitsDone hrun hm he hdone)

end Sys2Proof.Machine

/-! The Surveyor (R321 to R331): what planning leaves alone, when a PIN command has ended, how an awake migration starts, and what a copy pass
of an exchange comes to. -/

namespace Sys2Proof.Machine

open Sys2Proof

/-! ### Planning draws open values and plans migrations: no register changes -/

/-- Fields are read from the registers alone. -/
theorem Chip.rget_congr {c d : Chip} (h : d.regs = c.regs) (b : Nat) (f : Fld) : d.rget b f = c.rget b f := by
  rw [Chip.rget, Chip.rget, Chip.reg, Chip.reg, h]

@[simp] theorem pickSpare_regs (k : Nat) (c : Chip) : (pickSpare k c).2.regs = c.regs := by
  unfold pickSpare
  split <;> rfl

@[simp] theorem retireDst_regs (f : Nat) (c : Chip) : (retireDst f c).2.regs = c.regs :=
  foldl_keep (fun r : Option FrameLoc × Chip => r.2.regs) _ (fun r k => by split <;> simp only [pickSpare_regs]) _ _

@[simp] theorem coldest_regs (inf : Bool) (P : Nat → Bool) (c : Chip) : (coldest inf P c).2.regs = c.regs := rfl

@[simp] theorem SrvPlan.add_regs (p : SrvPlan) (w : MigWhy) (a : Nat) (b : Option Nat) (dst : FrameLoc) : (p.add w a b dst).c.regs = p.c.regs := by
  simp only [SrvPlan.add, SrvPlan.use, apply_ite SrvPlan.c, apply_ite Chip.regs, ite_self]

@[simp] theorem SrvPlan.exchange_regs (p : SrvPlan) (w : MigWhy) (f g : Nat) : (p.exchange w f g).c.regs = p.c.regs := by
  rw [SrvPlan.exchange, apply_ite SrvPlan.c, apply_ite Chip.regs, SrvPlan.add_regs, SrvPlan.add_regs]
  exact ite_self _

@[simp] theorem SrvPlan.bring_regs (p : SrvPlan) (w : MigWhy) (f : Nat) (inf : Bool) (at_ : FrameLoc → Bool) :
    (p.bring w f inf at_).c.regs = p.c.regs := by
  unfold SrvPlan.bring
  dsimp only
  split <;> simp only [SrvPlan.exchange_regs, coldest_regs]

@[simp] theorem SrvPlan.retireOf_regs (p : SrvPlan) (f : Nat) : (p.retireOf f).c.regs = p.c.regs := by
  unfold SrvPlan.retireOf
  split
  · rfl
  · dsimp only
    split <;> simp only [SrvPlan.add_regs, retireDst_regs]

/-- Moves planned one after another leave the registers alone. -/
theorem foldl_retireOf_regs (l : List Nat) (p : SrvPlan) : (l.foldl (fun p f => p.retireOf f) p).c.regs = p.c.regs :=
  foldl_keep (fun p : SrvPlan => p.c.regs) _ SrvPlan.retireOf_regs l p

@[simp] theorem planRetire_regs (p : SrvPlan) : (planRetire p).c.regs = p.c.regs :=
  (foldl_keep (fun p : SrvPlan => p.c.regs) _ (fun _ _ => foldl_retireOf_regs _ _) _ _).trans (foldl_retireOf_regs _ p)

@[simp] theorem planPins_regs (p : SrvPlan) : (planPins p).c.regs = p.c.regs := by
  refine foldl_keep (fun p : SrvPlan => p.c.regs) _ (fun p e => ?_) _ p
  split
  · split
    · rfl
    · exact SrvPlan.bring_regs ..
  · rfl

/-! ### PIN (R325) -/

section
variable {m : Cmd} {c : Chip}

/-- A PIN command that has pinned every frame of its range has them all in its set. -/
theorem pinSet_of_all (hprog : m.prog = (rangeFrames m).length + 1) : pinSet m = (rangeFrames m).map (fun f => f.2) := by
  rw [pinSet, hprog, Nat.add_sub_cancel, List.take_of_length_le (Nat.le_of_eq (List.length_map _))]

/-- A PIN command whose frames are all pinned ends once each that still carries its pin lies in the region, and posts no event. -/
theorem pinEnd_of_arrived (hprog : m.prog = (rangeFrames m).length + 1)
    (hthere : ∀ f ∈ rangeFrames m, (c.pflags f.2).pin = some (m.par 33 1 % 4) → (c.place f.2).region = m.par 33 1 % 4) :
    pinEnd m c = finish m doneRes c := by
  have hnone : (pinSet m).any (fun f => (c.pflags f).pin == some (m.par 33 1 % 4) && (c.place f).region != m.par 33 1 % 4) = false := by
    simpa [pinSet_of_all hprog] using fun n f hf => hthere (n, f) hf
  simp [pinEnd, hnone, hprog]

/-- A PIN command does not end while a frame it pinned carries its pin and lies in another region. -/
theorem pinEnd_of_away {f : Nat × Nat} (hprog : m.prog = (rangeFrames m).length + 1) (hf : f ∈ rangeFrames m)
    (hpin : (c.pflags f.2).pin = some (m.par 33 1 % 4)) (haway : (c.place f.2).region ≠ m.par 33 1 % 4) : pinEnd m c = c := by
  have hany : (pinSet m).any (fun f => (c.pflags f).pin == some (m.par 33 1 % 4) && (c.place f).region != m.par 33 1 % 4) = true := by
    rw [pinSet_of_all hprog, List.any_eq_true]
    exact ⟨f.2, List.mem_map_of_mem hf, by simp [hpin, haway]⟩
  simp [pinEnd, hany]

/-- A PIN command that begins, and whose frames all find room under the region's limit, has pinned them and ends if it can. -/
theorem pinStep_of_pinned {q seq : Nat} {d : Chip} (hcmd : surveyCmd q seq 2 c = some m) (hprog : m.prog = 0)
    (hall : pinFrames (m.par 33 1 % 4) ((rangeFrames m).map (fun f => f.2)) 0 c = ((rangeFrames m).length, d)) :
    pinStep q seq c = pinEnd { m with prog := (rangeFrames m).length + 1 } (d.putCmd { m with prog := (rangeFrames m).length + 1 }) := by
  simp [pinStep, hcmd, hprog, hall]

end

/-! ### Migrations (R328) -/

section
variable {c : Chip} {i : Nat} {m : Mig} {b : Nat}

/-- Where no device is in self-refresh, a request wakes none. -/
theorem Chip.touch_of_no_refresh (hsr : c.srv.sr = []) (a : Nat) : (c.touch a).srv.sr = [] ∧ (c.touch a).srv.waking = c.srv.waking := by
  unfold Chip.touch
  split
  · exact ⟨hsr, rfl⟩
  · simp [hsr]

/-- With no device on its way out of self-refresh, there is none to wake. -/
theorem wakeMem_of_none_waking (h : c.srv.waking = []) : wakeMem c = c := by
  rw [wakeMem, h]
  rfl

/-- An exchange that may start, with no device in self-refresh or on its way out, starts with a mover of the module's choice. -/
theorem migrationStartStep_of_awake (hfind : c.srv.migs.find? (fun m => m.id == i) = some m) (hup : c.up = true) (hmay : mayStart c m = true)
    (hb : m.b = some b) (hsr : c.srv.sr = []) (hwaking : c.srv.waking = []) :
    let d := (c.touch (m.a * 65536)).touch (b * 65536)
    migrationStartStep i c = putMig { m with started := true, mover := d.draw.1 % 16 } d.draw.2 := by
  intro d
  obtain ⟨hsrA, hwakingA⟩ := Chip.touch_of_no_refresh hsr (m.a * 65536)
  obtain ⟨hsrB, hwakingB⟩ := Chip.touch_of_no_refresh hsrA (b * 65536)
  have hawake : d.srv.waking = [] := hwakingB.trans (hwakingA.trans hwaking)
  simp [migrationStartStep, hfind, hup, hmay, hb, hsrB, wakeMem_of_none_waking hawake, hawake, d]

/-- What a search finds, a search for more finds where that holds too. -/
theorem find?_and_of_find? {α : Type} {p q : α → Bool} {l : List α} {x : α} (h : l.find? p = some x) (hq : q x = true) :
    l.find? (fun y => p y && q y) = some x := by
  obtain ⟨hp, as, bs, rfl, has⟩ := List.find?_eq_some_iff_append.mp h
  refine List.find?_eq_some_iff_append.mpr ⟨by rw [hp, hq]; rfl, as, bs, rfl, fun y hy => ?_⟩
  have hpy : p y = false := by simpa using has y hy
  simp [hpy]

/-- An exchange after a copy pass that left so many units of each frame dirty. -/
def Mig.passed (m : Mig) (dirtyA dirtyB : Nat) : Mig := { m with passes := m.passes + 1, dirtyA := dirtyA, dirtyB := dirtyB }

/-- The units that a copy pass copies of a frame: all of them in the first pass, those left dirty after it (R328). -/
def Mig.passUnits (m : Mig) (dirty : Nat) : Nat := if m.passes = 0 then 1024 else dirty

/-- The module after a copy pass of an exchange: its units counted, and the credit of both devices taken (R331). -/
def Mig.copied (m : Mig) (c : Chip) : Chip :=
  takeCredit m.dst.dk (m.passUnits m.dirtyB) (takeCredit (c.place m.a).dk (m.passUnits m.dirtyA)
    (migUnits m (m.passUnits m.dirtyA + m.passUnits m.dirtyB) c))

/-- A copy pass of an exchange in preparation opens the window, gives the migration up, or leaves it for another pass. -/
theorem migrationCopyPassStep_of_exchange (hfind : c.srv.migs.find? (fun m => m.id == i) = some m) (hstarted : m.started = true)
    (hwindow : m.window = false) (hb : m.b = some b) (dirtyA dirtyB : Nat) :
    migrationCopyPassStep i dirtyA dirtyB c =
      if dirtyA ≤ 64 ∧ dirtyB ≤ 64 then putMig { m.passed dirtyA dirtyB with window := true } (m.copied c)
      else if m.passes ≥ 3 then endMig (m.passed dirtyA dirtyB) true (m.copied c)
      else putMig (m.passed dirtyA dirtyB) (m.copied c) := by
  have hprep : c.srv.migs.find? (fun m => m.id == i && m.started && !m.window) = some m := by
    simpa only [Bool.and_assoc] using find?_and_of_find? (q := fun m => m.started && !m.window) hfind (by rw [hstarted, hwindow]; rfl)
  simp [migrationCopyPassStep, hprep, hb, Mig.passed, Mig.copied, Mig.passUnits]

end

/-- Settles O41: planning changes no register (`planRetire_regs`, `planPins_regs`), so the policy's enable reads the same before and after the
pins are planned; a PIN command that has pinned all its frames ends by `pinEnd_of_arrived` or stays by `pinEnd_of_away`; a start and a copy
pass are `migrationStartStep_of_awake` and `migrationCopyPassStep_of_exchange`. -/
theorem surveyorCommandsAct : Obligations.SurveyorCommandsAct := by
  intro s c
  refine ⟨fun q seq m => ⟨?hint, ?unpin, ?pin⟩, ?period, fun i m hfind => ⟨?start, ?copyPass⟩⟩
  case hint =>
    intro hcmd hwf
    refine gives_of_run (f := hintStep q seq) rfl hwf ?_
    rw [hintStep, hcmd]
    rfl
  case unpin =>
    intro hcmd hwf
    refine gives_of_run (f := unpinStep q seq) rfl hwf ?_
    rw [unpinStep, hcmd]
  case pin =>
    intro hcmd hwf r hprog d hall e
    have hstep := pinStep_of_pinned hcmd hprog hall
    refine ⟨fun hthere => ?_, fun f hf hpin haway => ?_⟩
    · exact gives_of_run rfl hwf (hstep.trans (pinEnd_of_arrived rfl hthere))
    · exact gives_of_run rfl hwf (hstep.trans (pinEnd_of_away rfl hf hpin haway))
  case period =>
    intro fills hwf hup d₀ d p e
    refine gives_of_run (f := surveyPeriodEndStep fills) rfl hwf ?_
    have henable : p.c.rget MOD MOD_SRV_POLICY_CUR_ENABLE = d.rget MOD MOD_SRV_POLICY_CUR_ENABLE :=
      Chip.rget_congr ((planPins_regs _).trans (planRetire_regs _)) _ _
    have hrun : (!s.toChip.up) = false := by rw [hup]; rfl
    simp only [e, henable]
    rw [surveyPeriodEndStep, hrun]
    rfl
  case start =>
    exact fun b hwf hup hmay hb hsr hwaking => gives_of_run rfl hwf (migrationStartStep_of_awake hfind hup hmay hb hsr hwaking)
  case copyPass =>
    intro dirtyA dirtyB b hwf hstarted hwindow hb na nb d x
    have hstep := migrationCopyPassStep_of_exchange hfind hstarted hwindow hb dirtyA dirtyB
    refine ⟨fun hclean => ?_, fun hdirty hearly => ?_, fun hdirty hlast => ?_⟩
    · exact gives_of_run rfl hwf (hstep.trans (if_pos hclean))
    · exact gives_of_run rfl hwf (hstep.trans ((if_neg (by omega)).trans (if_neg (by omega))))
    · exact gives_of_run rfl hwf (hstep.trans ((if_neg (by omega)).trans (if_pos hlast)))

end Sys2Proof.Machine

/-! The fault unit: what a response, a write of the fault ring and a timeout come to, case by case (R351, R352, R354, R361). -/

namespace Sys2Proof.Machine

open Sys2Proof

section
variable {c : Chip} {id : Nat} {x : PFault}

/-! ### Responses (R352) -/

/-- A response to a fault that is pending resolves it, and what waited takes note. -/
theorem faultResp_of_pending (p : Path) (f : PFault → Chip → Chip) (hup : c.up = true)
    (hpending : c.pendingFaults.find? (fun x => x.id == id) = some x) : faultResp p id f c = settleWaits (f x c) := by
  have hrun : (!c.up) = false := by rw [hup]; rfl
  rw [faultResp, hrun, hpending]
  rfl

/-- A response that names no pending fault resolves nothing: it sets RESP_UNKNOWN, or is logged before READY (R519). -/
theorem faultResp_of_unknown (p : Path) (f : PFault → Chip → Chip) (hunknown : c.pendingFaults.find? (fun x => x.id == id) = none) :
    faultResp p id f c = if c.up then c.rput MOD MOD_XLT_ERR_RESP_UNKNOWN 1 else accLog 0 0x3018 .other p c := by
  rw [faultResp, hunknown]
  cases c.up <;> rfl

/-! ### The fault ring (R351, R361) -/

/-- The module after the entry of a fault is written to the next slot of the ring, counted and marked. -/
def Chip.withEntry (c : Chip) (x : PFault) : Chip :=
  let n := c.rget MOD MOD_FR_COUNT_COUNT
  let d := (c.wrMem (frBase c + 64 * (n % frEntries c)) (faultEntry x c)).rput MOD MOD_FR_COUNT_COUNT (n + 1)
  { d with xlt := { d.xlt with pending := markWritten x d.xlt.pending } }

/-- An entry not in the ring yet, with a slot free, is not kept waiting. -/
theorem not_waits_of_free (hnew : x.written = false) (hfree : frHeld c < frEntries c) :
    ¬ (x.written || decide (frHeld c ≥ frEntries c)) = true := by
  rw [hnew, decide_eq_false (Nat.not_le.2 hfree)]
  exact Bool.false_ne_true

/-- With no slot free, nothing is written. -/
theorem faultWrite_of_full (x : PFault) (hfull : frHeld c ≥ frEntries c) : faultWrite x c = c := by
  rw [faultWrite, if_pos]
  rw [decide_eq_true hfull, Bool.or_true]

/-- With a slot free in a ring that cannot be written, RING_FAULT is set. -/
theorem faultWrite_of_unusable (hnew : x.written = false) (hfree : frHeld c < frEntries c) (hring : frUsable c = false) :
    faultWrite x c = c.rput MOD MOD_XLT_ERR_RING_FAULT 1 := by
  rw [faultWrite, if_neg (not_waits_of_free hnew hfree), hring, Bool.not_false, if_pos rfl]

/-- With a slot free in a usable ring the entry is written, and interrupts if the ring was empty and interrupts are on. -/
theorem faultWrite_of_free (hnew : x.written = false) (hfree : frHeld c < frEntries c) (hring : frUsable c = true) :
    faultWrite x c =
      if (c.withEntry x).rget MOD MOD_FR_CFG_IRQ_EN = 1 ∧ frHeld c = 0 then
        (c.withEntry x).raiseVector ((c.withEntry x).rget MOD MOD_FR_CFG_VECTOR)
      else c.withEntry x := by
  rw [faultWrite, if_neg (not_waits_of_free hnew hfree), hring, Bool.not_true, if_neg Bool.false_ne_true]
  exact ite_congr (by rw [Bool.and_eq_true, beq_iff_eq, beq_iff_eq]; rfl) (fun _ => rfl) (fun _ => rfl)

/-- FAULT_RING_WRITE of a fault whose entry is not in the ring yet writes that fault's. -/
theorem faultRingWriteStep_of_pending (hpending : c.xlt.pending.find? (fun x => x.id == id && !x.written) = some x) :
    faultRingWriteStep id c = faultWrite x c := by
  rw [faultRingWriteStep, hpending]

/-- A fault found among those whose entries are not in the ring yet has none there. -/
theorem not_written_of_find? {l : List PFault} (hfind : l.find? (fun x => x.id == id && !x.written) = some x) : x.written = false := by
  have hx : (x.id == id && !x.written) = true := List.find?_some (p := fun x : PFault => x.id == id && !x.written) hfind
  rw [Bool.and_eq_true, Bool.not_eq_true'] at hx
  exact hx.2

/-! ### Timeouts (R354) -/

/-- FAULT_TIMEOUT of a command held or stalled on a fault ends it, where its context has a fault timeout. -/
theorem faultTimeoutStep_of_waiting {k : Carrier} {seq : Nat} {m : Cmd} (hcmd : c.findCmd k seq = some m)
    (htimeout : (faultTimeoutNs m.ctx c).isSome = true) (hwaits : m.stall.isSome = true ∨ (m.phase = .accepted ∧ heldByFault m = true)) :
    faultTimeoutStep k seq c = settleWaits (endOnFault m (mkRes sTimeout []) c) := by
  have hends : faultTimeout m c = endOnFault m (mkRes sTimeout []) c := by rw [faultTimeout, if_pos hwaits]
  rw [faultTimeoutStep, hcmd]
  exact (if_pos htimeout).trans (congrArg settleWaits hends)

end

/-- Settles O47: a response is `faultResp` at its resolution, the ring's three cases are those of `faultWrite`, and a command that waits ends by
`faultTimeoutStep_of_waiting`. -/
theorem faultCommandsAct : Obligations.FaultCommandsAct := by
  intro s c
  refine ⟨?pending, ?unknown, ?consumed, ?ring, ?timeout⟩
  case pending =>
    exact fun p id x hup hpending => ⟨fun hwf => gives_of_run rfl hwf (faultResp_of_pending p faultRetry hup hpending),
      fun hwf => gives_of_run rfl hwf (faultResp_of_pending p faultDecline hup hpending)⟩
  case unknown =>
    exact fun p id hunknown => ⟨fun hwf => gives_of_run rfl hwf (faultResp_of_unknown p faultRetry hunknown),
      fun hwf => gives_of_run rfl hwf (faultResp_of_unknown p faultDecline hunknown)⟩
  case consumed =>
    intro p v hwf hup
    refine gives_of_run (f := modFrConsumedStep p v) rfl hwf ?_
    have hrun : (!s.toChip.up) = false := by rw [hup]; rfl
    rw [modFrConsumedStep, hrun]
    rfl
  case ring =>
    intro id x hwf hpending
    have hstep := faultRingWriteStep_of_pending hpending
    have hnew := not_written_of_find? hpending
    refine ⟨fun hfull => ?_, fun hfree hring => ?_, fun hfree hring => ?_⟩
    · exact gives_of_run rfl hwf (hstep.trans (faultWrite_of_full x hfull))
    · exact gives_of_run rfl hwf (hstep.trans (faultWrite_of_unusable hnew hfree hring))
    · exact gives_of_run rfl hwf (hstep.trans (faultWrite_of_free hnew hfree hring))
  case timeout =>
    exact fun k seq m hwf hcmd htimeout hwaits => gives_of_run rfl hwf (faultTimeoutStep_of_waiting hcmd htimeout hwaits)

end Sys2Proof.Machine

/-! The Yoke units: what firing and storing a semaphore leave of the Yoke's state (R365, R369), the operations that saturate, the barrier
commands (R378 to R380) and the messages of watches (R370, R371). -/

namespace Sys2Proof.Machine

open Sys2Proof

/-! ### Semaphores and their watches -/

@[simp] theorem Chip.sem_rcount (c : Chip) (b : Nat) (f : Fld) (v h n : Nat) : (c.rcount b f v).sem h n = c.sem h n := (rfl)

@[simp] theorem Chip.sem_rput (c : Chip) (b : Nat) (f : Fld) (v h n : Nat) : (c.rput b f v).sem h n = c.sem h n := (rfl)

theorem Chip.sem_setSem (c : Chip) (h n h' n' : Nat) (x : Sem) :
    (c.setSem h n x).sem h' n' = if semKey h' n' = semKey h n then x else c.sem h' n' := by
  simp only [Chip.sem, Chip.setSem, kget_kset]

/-- The message that a fired watch of a WATCH sends (R370); the other watches send none. -/
def firedMsg (v : Nat) (w : Watch) : Option YMsg :=
  match w.who with
  | .watch q seq tk tg cmp => some ⟨w.sem + 131072 * w.half, v, 0, tk, tg, cmp, w.ctx, q, seq⟩
  | _ => none

section
variable (w : Watch) (v : Nat) (c : Chip)

/-- A watch that fires leaves the semaphores and the watches alone, and its message joins those on their way (R369). -/
theorem fireWatch_fired : (fireWatch w v 0 c).yoke.sems = c.yoke.sems ∧ (fireWatch w v 0 c).yoke.watches = c.yoke.watches ∧
    (fireWatch w v 0 c).yoke.msgs = c.yoke.msgs ++ (firedMsg v w).toList := by
  unfold fireWatch firedMsg
  cases w.who with
  | preWait k seq => dsimp only; split <;> simp
  | wait k seq => dsimp only; split <;> simp [finish]
  | watch q seq tk tg cmp => exact ⟨rfl, rfl, rfl⟩
  | remoteWait rank txn => simp [sendOut]
  | remoteWatch rank txn tk tg cmp q seq => simp [sendOut]

/-- Watches that fire one after another send their messages in that order, and leave the semaphores and the watches alone (R369). -/
theorem foldl_fireWatch_fired (l : List Watch) : let d := l.foldl (fun c w => fireWatch w v 0 c) c
    d.yoke.sems = c.yoke.sems ∧ d.yoke.watches = c.yoke.watches ∧ d.yoke.msgs = c.yoke.msgs ++ l.filterMap (firedMsg v) := by
  induction l generalizing c with
  | nil => simp
  | cons w l ih =>
    obtain ⟨hsems, hwatches, hmsgs⟩ := fireWatch_fired w v c
    obtain ⟨ihsems, ihwatches, ihmsgs⟩ := ih (fireWatch w v 0 c)
    refine ⟨ihsems.trans hsems, ihwatches.trans hwatches, ihmsgs.trans ?_⟩
    rw [hmsgs, List.append_assoc, List.filterMap_cons]
    cases firedMsg v w <;> rfl

end

/-- A semaphore's watch that a value satisfies (R368). -/
def watchHit (h n v : Nat) (w : Watch) : Bool := w.half == h && w.sem == n && v ≥ w.n

section
variable (h n : Nat) (x : Sem) (c : Chip)

/-- What storing a semaphore's new value leaves of the Yoke's state (R365, R369). -/
theorem putSem_yoke : (putSem h n x c).yoke.sems = (c.setSem h n x).yoke.sems ∧
    (putSem h n x c).yoke.watches = c.yoke.watches.filter (fun w => !watchHit h n x.value w) ∧
    (putSem h n x c).yoke.msgs = c.yoke.msgs ++ (c.yoke.watches.filter (watchHit h n x.value)).filterMap (firedMsg x.value) := by
  have hval : ((c.setSem h n x).rcount (YOK h) YOK_OPS 1).sem h n = x := by rw [Chip.sem_rcount, Chip.sem_setSem, if_pos rfl]
  simp only [putSem, fireAll, hval, Chip.rcount_yoke]
  exact foldl_fireWatch_fired x.value _ _

/-- A semaphore stored reads back, and no other semaphore changes (R365). -/
theorem sem_putSem (h' n' : Nat) : (putSem h n x c).sem h' n' = if semKey h' n' = semKey h n then x else c.sem h' n' := by
  rw [Chip.sem, (putSem_yoke h n x c).1]
  exact Chip.sem_setSem c h n h' n' x

end

/-- Settles O21: a store of a semaphore fires the watches that its value satisfies, in the order in which they stand (`putSem_yoke`). -/
theorem watchesFireOnceInOrder : Obligations.WatchesFireOnceInOrder := by
  intro c h n x hit msg
  obtain ⟨-, hwatches, hmsgs⟩ := putSem_yoke h n x c
  refine ⟨hwatches, hmsgs.trans ?_⟩
  congr 1
  refine List.filterMap_congr fun w hw => ?_
  have hhit : watchHit h n x.value w = true := (List.mem_filter.1 hw).2
  simp only [watchHit, Bool.and_eq_true, beq_iff_eq] at hhit
  obtain ⟨⟨rfl, rfl⟩, -⟩ := hhit
  rfl

/-! ### ADD and SUB (R365) -/

section
variable {c : Chip} {h n v : Nat}

theorem semAdd_of_le (hle : (c.sem h n).value + v ≤ semMax) :
    semAdd h n v c = putSem h n { c.sem h n with value := (c.sem h n).value + v } c := if_neg (Nat.not_lt.2 hle)

theorem semAdd_of_gt (hgt : (c.sem h n).value + v > semMax) :
    semAdd h n v c = (putSem h n { c.sem h n with value := semMax, sat := true } c).rput (YOK h) YOK_ERR_SATURATED 1 := if_pos hgt

theorem semSub_of_le (hle : v ≤ (c.sem h n).value) :
    semSub h n v c = putSem h n { c.sem h n with value := (c.sem h n).value - v } c := if_neg (Nat.not_lt.2 hle)

theorem semSub_of_gt (hgt : v > (c.sem h n).value) :
    semSub h n v c = (putSem h n { c.sem h n with value := 0, sat := true } c).rput (YOK h) YOK_ERR_SATURATED 1 := if_pos hgt

variable (h n v) in
/-- An ADD changes no other semaphore. -/
theorem sem_semAdd_ne (c : Chip) {h' n' : Nat} (hne : semKey h' n' ≠ semKey h n) : (semAdd h n v c).sem h' n' = c.sem h' n' := by
  simp only [semAdd]
  split <;> simp only [Chip.sem_rput, sem_putSem, if_neg hne]

variable (h n v) in
/-- A SUB changes no other semaphore. -/
theorem sem_semSub_ne (c : Chip) {h' n' : Nat} (hne : semKey h' n' ≠ semKey h n) : (semSub h n v c).sem h' n' = c.sem h' n' := by
  simp only [semSub]
  split <;> simp only [Chip.sem_rput, sem_putSem, if_neg hne]

end

/-- YOK_ERR.SATURATED reads 1 after it has been set. -/
theorem rget_saturated (c : Chip) (h : Nat) : (c.rput (YOK h) YOK_ERR_SATURATED 1).rget (YOK h) YOK_ERR_SATURATED = 1 :=
  Chip.rget_rput_self c (YOK h) YOK_ERR_SATURATED 1 (by decide)

section
variable {q seq op : Nat} {m : Cmd} {c : Chip}

/-- A local command in execution acts as its Yoke row says. -/
theorem yokeRow_of_local {f : Cmd → Chip → Chip} (hrun : running q seq 6 op c = some m) (hlocal : m.remote = false) :
    yokeRow op q seq f c = f m c := by
  rw [yokeRow, hrun]
  exact if_neg (by rw [hlocal]; exact Bool.false_ne_true)

/-- A permitted local operation on a semaphore whose word is good completes with DONE at its effect (R367). -/
theorem semRow_of_permitted (hrun : running q seq 6 op c = some m) (hlocal : m.remote = false) (hgood : (c.sem m.semH m.semNo).bad = false)
    (hpermit : semPermit (semKind op) (c.sem m.semH m.semNo) m.ctx m.priv = true) :
    semRow op q seq c = finish m (mkRes sDone (semOp op m.semH m.semNo m.semValue m.semCompare m.ctx c).1)
      (semOp op m.semH m.semNo m.semValue m.semCompare m.ctx c).2 := by
  have hcheck : checkSem m.semH m.semNo c = c := by rw [checkSem, hgood]; rfl
  rw [semRow, yokeRow_of_local hrun hlocal]
  simp only [hcheck, hpermit, if_true]

end

/-- Settles O18: an ADD and a SUB store the exact value or the bound (`semAdd_of_le`, `semAdd_of_gt`, `semSub_of_le`, `semSub_of_gt`), and a
permitted one completes at its effect (`semRow_of_permitted`). -/
theorem addAndSubSaturate : Obligations.AddAndSubSaturate := by
  refine ⟨fun c h n v => ⟨?addExact, ?addBound, ?subExact, ?subBound, ?others⟩, fun s q seq m hlocal hgood hpermit => ⟨?add, ?sub⟩⟩
  case addExact => exact fun hle => by rw [semAdd_of_le hle, sem_putSem, if_pos rfl]
  case addBound =>
    intro hgt
    rw [semAdd_of_gt hgt]
    exact ⟨by rw [Chip.sem_rput, sem_putSem, if_pos rfl]; rfl, rget_saturated _ h⟩
  case subExact => exact fun hle => by rw [semSub_of_le hle, sem_putSem, if_pos rfl]
  case subBound =>
    intro hgt
    rw [semSub_of_gt hgt]
    exact ⟨by rw [Chip.sem_rput, sem_putSem, if_pos rfl], rget_saturated _ h⟩
  case others => exact fun h' n' hne => ⟨sem_semAdd_ne h n v c hne, sem_semSub_ne h n v c hne⟩
  case add => exact fun hrun hwf => gives_of_run rfl hwf (semRow_of_permitted hrun hlocal hgood hpermit)
  case sub => exact fun hrun hwf => gives_of_run rfl hwf (semRow_of_permitted hrun hlocal hgood hpermit)

/-! ### Barriers (R378 to R380) -/

section
variable {q seq : Nat} {m : Cmd} {c : Chip} {b : Barrier}

/-- The barrier that a BAR_DEFINE of a free object makes (R378). -/
def Cmd.newBar (m : Cmd) : Barrier :=
  { owner := m.ctx, mask := m.par 52 8, hold := bitAt m.semValue 0, fabric := bitAt m.semValue 1, gen := 1, entries := [], waiting := [],
    parent := if m.par 40 1 = 4 then some (m.par 44 4, m.semCompare % 2 ^ 19) else none }

/-- BAR_DEFINE of a free object defines it. -/
theorem barDefineStep_of_free (hrun : running q seq 6 9 c = some m) (hlocal : m.remote = false) (hbar : c.bar m.barK = none) :
    barDefineStep q seq c = finish m doneRes ((c.setBar m.barK (some m.newBar)).rcount (YOK (m.barK / 4096)) YOK_OPS 1) := by
  rw [barDefineStep, yokeRow_of_local hrun hlocal]
  simp only [hbar, Cmd.newBar]

/-- BAR_DEFINE of an idle barrier of its context redefines it in its generation. -/
theorem barDefineStep_of_idle (hrun : running q seq 6 9 c = some m) (hlocal : m.remote = false) (hbar : c.bar m.barK = some b)
    (hidle : b.entries = []) (howner : b.owner = m.ctx) :
    barDefineStep q seq c =
      finish m doneRes ((c.setBar m.barK (some { m.newBar with gen := b.gen })).rcount (YOK (m.barK / 4096)) YOK_OPS 1) := by
  rw [barDefineStep, yokeRow_of_local hrun hlocal]
  simp only [hbar, hidle, howner, Cmd.newBar, List.isEmpty_nil, Bool.not_true, Bool.false_eq_true, ne_eq, not_true_eq_false, if_false]

/-- BAR_ENTER of an undefined barrier is malformed. -/
theorem barEnterStep_of_free (hrun : running q seq 6 0xA c = some m) (hlocal : m.remote = false) (hbar : c.bar m.barK = none) :
    barEnterStep q seq c = finish m malformedRes c := by
  rw [barEnterStep, yokeRow_of_local hrun hlocal]
  simp only [hbar]

/-- BAR_ENTER of a slot outside MASK is malformed. -/
theorem barEnterStep_of_outside (hrun : running q seq 6 0xA c = some m) (hlocal : m.remote = false) (hbar : c.bar m.barK = some b)
    (hslot : bitAt b.mask m.barSlot = false) : barEnterStep q seq c = finish m malformedRes c := by
  rw [barEnterStep, yokeRow_of_local hrun hlocal]
  simp only [hbar, hslot, Bool.not_false, if_true]

/-- BAR_ENTER of a barrier of its context, at a slot of MASK, enters it and is registered. -/
theorem barEnterStep_of_slot (hrun : running q seq 6 0xA c = some m) (hlocal : m.remote = false) (hbar : c.bar m.barK = some b)
    (hslot : bitAt b.mask m.barSlot = true) (howner : b.owner = m.ctx) :
    barEnterStep q seq c = barEnterAt m.barK m.barSlot (.cmd m.car m.seq) (c.putCmd { m with phase := .registered }) := by
  rw [barEnterStep, yokeRow_of_local hrun hlocal]
  simp only [hbar, hslot, howner, Bool.not_true, Bool.false_eq_true, ne_eq, not_true_eq_false, if_false]

/-- BAR_RETIRE of a free object has no effect. -/
theorem barRetireStep_of_free (hrun : running q seq 6 0xB c = some m) (hlocal : m.remote = false) (hbar : c.bar m.barK = none) :
    barRetireStep q seq c = finish m doneRes c := by
  rw [barRetireStep, yokeRow_of_local hrun hlocal]
  simp only [hbar]

/-- BAR_RETIRE of a barrier with entries is malformed. -/
theorem barRetireStep_of_entries (hrun : running q seq 6 0xB c = some m) (hlocal : m.remote = false) (hbar : c.bar m.barK = some b)
    (hentries : b.entries ≠ []) : barRetireStep q seq c = finish m malformedRes c := by
  rw [barRetireStep, yokeRow_of_local hrun hlocal]
  simp only [hbar, Bool.not_eq_true', List.isEmpty_eq_false_iff, hentries, ne_eq, not_false_eq_true, if_true]

/-- BAR_RETIRE of an idle barrier of its context frees it. -/
theorem barRetireStep_of_idle (hrun : running q seq 6 0xB c = some m) (hlocal : m.remote = false) (hbar : c.bar m.barK = some b)
    (hidle : b.entries = []) (howner : b.owner = m.ctx) :
    barRetireStep q seq c = finish m doneRes ((c.setBar m.barK none).rcount (YOK (m.barK / 4096)) YOK_OPS 1) := by
  rw [barRetireStep, yokeRow_of_local hrun hlocal]
  simp [hbar, hidle, howner]

end

/-- Settles O22: each command comes to what its object is, free, with entries or idle, and to whose it is. -/
theorem barrierCommandsAct : Obligations.BarrierCommandsAct := by
  intro s q seq m c k v new hlocal
  refine ⟨fun hrun hwf => ⟨fun hfree => ?defineFree, fun b hbar hidle howner => ?redefine⟩,
    fun hrun hwf => ⟨fun hfree => ?enterFree, fun b hbar => ⟨fun hslot => ?enterOutside, fun hslot howner => ?enter⟩⟩,
    fun hrun hwf => ⟨fun hfree => ?retireFree, fun b hbar => ⟨fun hentries => ?retireEntered, fun hidle howner => ?retire⟩⟩⟩
  case defineFree => exact gives_of_run rfl hwf (barDefineStep_of_free hrun hlocal hfree)
  case redefine => exact gives_of_run rfl hwf (barDefineStep_of_idle hrun hlocal hbar hidle howner)
  case enterFree => exact gives_of_run rfl hwf (barEnterStep_of_free hrun hlocal hfree)
  case enterOutside => exact gives_of_run rfl hwf (barEnterStep_of_outside hrun hlocal hbar hslot)
  case enter => exact gives_of_run rfl hwf (barEnterStep_of_slot hrun hlocal hbar hslot howner)
  case retireFree => exact gives_of_run rfl hwf (barRetireStep_of_free hrun hlocal hfree)
  case retireEntered => exact gives_of_run rfl hwf (barRetireStep_of_entries hrun hlocal hbar hentries)
  case retire => exact gives_of_run rfl hwf (barRetireStep_of_idle hrun hlocal hbar hidle howner)

/-! ### Messages of watches (R370, R371) -/

section
variable {m : YMsg} {c : Chip}

/-- A fired message of TKIND 1 is an event of the target queue's context. -/
theorem deliverMsg_of_event (hfired : m.wstatus = 0) (hkind : m.tkind = 1) (hqueue : (c.queue (m.target % 2 ^ 20)).st ≠ .disabled) :
    deliverMsg m c = watchEvent (c.queue (m.target % 2 ^ 20)).ctx (m.target % 2 ^ 20) m 0 c := by
  simp only [deliverMsg, hfired, hkind, hqueue, OfNat.zero_ne_ofNat, zero_ne_one, if_true, if_false]

/-- A fired message of TKIND 3 raises its vector, where the module can. -/
theorem deliverMsg_of_vector (hfired : m.wstatus = 0) (hkind : m.tkind = 3) (hvector : vectorLost c (m.target % 32768) = false) :
    deliverMsg m c = c.raiseVector (m.target % 32768) := by
  simp [deliverMsg, hfired, hkind, hvector]

/-- A fired message of TKIND 4 leaves as an ADD. -/
theorem deliverMsg_of_add (hfired : m.wstatus = 0) (hkind : m.tkind = 4) :
    deliverMsg m c = sendOut (.remoteAdd (m.target % 2 ^ 20) (m.compare % 2 ^ 18) m) c := by
  simp [deliverMsg, hfired, hkind]

end

/-- Settles O23: the message that arrives leaves those on their way, and does what its TKIND says (`deliverMsg_of_event`,
`deliverMsg_of_vector`, `deliverMsg_of_add`). -/
theorem watchMessagesArrive : Obligations.WatchMessagesArrive := by
  intro s i m hwf hmsg hfired d q
  have hstep : yokeMessageDeliverStep i s.toChip = deliverMsg m d := by rw [yokeMessageDeliverStep, hmsg]
  refine ⟨fun hkind hqueue => ?event, fun hkind hvector => ?vector, fun hkind => ?add⟩
  case event => exact gives_of_run rfl hwf (hstep.trans (deliverMsg_of_event hfired hkind hqueue))
  case vector => exact gives_of_run rfl hwf (hstep.trans (deliverMsg_of_vector hfired hkind hvector))
  case add => exact gives_of_run rfl hwf (hstep.trans (deliverMsg_of_add hfired hkind))

end Sys2Proof.Machine

/-! Writes of registers (R502, R534, R537 to R542): an access that finds a register stores it or does what a write of it does, and the
commands that are such an access. -/

namespace Sys2Proof.Machine

open Sys2Proof

section
variable {path : Path} {o size v : Nat} {c : Chip} {p : Place} {r : RegDef}

/-- A write that finds a register comes to what its width asks (R539). -/
theorem regWriteNow_of_finds (hfinds : finds path o size c p r) : regWriteNow path o size v c =
    if size = 4 then wordWrite path o (bits v 0 32) c else if size = 8 then dwordWrite path o v c else narrowWrite path o c := by
  obtain ⟨hstandby, hlive, hoff, hfits, -⟩ := hfinds
  simp only [regWriteNow, hstandby, hlive, hfits, Bool.not_true, Bool.or_self, Bool.false_eq_true, if_false, ge_iff_le, Nat.not_le.2 hoff]

/-- A 32-bit write of a 32-bit register does what a write of it does. -/
theorem regWriteNow_of_word (hfinds : finds path o 4 c p r) (hwide : r.wide = false) :
    regWriteNow path o 4 v c = regAct path o p r (bits v 0 32) c := by
  obtain ⟨-, -, -, -, htarget⟩ := id hfinds
  rw [regWriteNow_of_finds hfinds, if_pos rfl]
  simp only [wordWrite, htarget, hwide, Bool.false_eq_true, if_false]

/-- A 32-bit write of a 64-bit register is logged. -/
theorem regWriteNow_of_narrow (hfinds : finds path o 4 c p r) (hwide : r.wide = true) :
    regWriteNow path o 4 v c = accLog 0 o .narrow path c := by
  obtain ⟨-, -, -, -, htarget⟩ := id hfinds
  rw [regWriteNow_of_finds hfinds, if_pos rfl]
  simp only [wordWrite, htarget, hwide, if_true]

/-- A 64-bit write of a 64-bit register does what a write of it does. -/
theorem regWriteNow_of_dword (hfinds : finds path o 8 c p r) (hwide : r.wide = true) : regWriteNow path o 8 v c = regAct path o p r v c := by
  obtain ⟨-, -, -, -, htarget⟩ := id hfinds
  rw [regWriteNow_of_finds hfinds, if_neg (by decide), if_pos rfl]
  simp only [dwordWrite, htarget, hwide, if_true]

/-- A number that fits in 32 bits is written whole by a 32-bit access. -/
theorem bits_word {v : Nat} (h : v < 2 ^ 32) : bits v 0 32 = v := by
  rw [bits, Nat.pow_zero, Nat.div_one, Nat.mod_eq_of_lt h]

/-- PCX_CTL written with RETRAIN trains the link again (R433). -/
theorem regAct_pcxRetrain (hblk : p.blk = .pcx) (hoff : r.off = 4) :
    regAct path o p r 2 c = linkRetrainNow p.inst (regStore path o p r 2 c) := by
  simp only [regAct, hblk, hoff]
  exact if_pos (by decide)

/-- AIH_PORT_CTL written with RETRAIN trains the port again (R471). -/
theorem regAct_aihRetrain (hblk : p.blk = .aihp) (hoff : r.off = 4) (hv : bitAt v 3 = true) :
    regAct path o p r v c = portRetrain p.inst (regStore path o p r v c) := by
  simp only [regAct, hblk, hoff]
  exact if_pos hv

/-- A write of 1 to MGT_ALERT.PENDING clears the alert, except under an event of severity 4 (R502). -/
theorem regAct_alert (hblk : p.blk = .mgt) (hoff : r.off = 8) : regAct path o p r 1 c = alertClear c := by
  simp only [regAct, hblk, hoff]
  exact if_pos (by decide)

/-- The FAULT bit of one port of the optics, written as 1, clears that port's fault and no other (R496). -/
theorem faultBits_of_port {q : Nat} (hq : q < 9) : faultBits (2 ^ (9 + q)) c = opticsFaultClear q c := by
  interval_cases q <;> rfl

/-- PWR_OPTICS_STATUS written with a port's FAULT bit clears its fault (R496). -/
theorem regAct_opticsFault {q : Nat} (hblk : p.blk = .pwr) (hoff : r.off = 0x34) (hq : q < 9) :
    regAct path o p r (2 ^ (9 + q)) c = opticsFaultClear q c := by
  simp only [regAct, hblk, hoff]
  exact faultBits_of_port hq

/-- RETRAIN set in AIH_PORT_CTL where none of its bits above USE and ENABLE is set. -/
theorem setBits_retrain {x : Nat} (hx : x < 8) : setBits x 3 1 1 = x + 8 := by
  rw [setBits]; omega

end

section
variable {path : Path} {w v : Nat} {c : Chip}

/-- A 32-bit write of the image window stores its bytes in the slot that the window names, where the slot is not running (R534). -/
theorem imageWindowWriteStep_of_stored (hstandby : c.hedge.standby = true) (hlive : pathLive path c = true) (halign : w % 4 = 0)
    (hw : w < 2 ^ 16) (hv : v < 2 ^ 32) :
    imageWindowWriteStep path w v c = imageWrite path w v c := by
  have hfits : accessFits (0x110000 + w) 4 = true := by
    simp only [accessFits, Bool.and_eq_true, beq_iff_eq]
    exact ⟨by decide, by omega⟩
  have hwindow : (decide (0x110000 ≤ 0x110000 + w) && decide (0x110000 + w < 0x120000)) = true := by
    simp only [Bool.and_eq_true, decide_eq_true_eq]; omega
  have hreached : reached (0x110000 + w) c = true := by
    simp only [reached, Bool.or_eq_true, Bool.and_eq_true, decide_eq_true_eq]; omega
  have htarget : targetOf path (0x110000 + w) c = .window := by
    simp only [targetOf, hreached, hwindow, Bool.not_true, Bool.false_eq_true, if_false, if_true]
  have hoff : ¬ 0x110000 + w ≥ 0x10000000 := by omega
  simp only [imageWindowWriteStep, regWriteNow, hstandby, hlive, hfits, hoff, wordWrite, htarget, bits_word hv, Bool.not_true, Bool.or_self,
    Bool.false_eq_true, if_false, if_true, Nat.add_sub_cancel_left]

/-- The image window stores into a slot that is not running, within its unit's size (R534). -/
theorem imageWrite_of_idle (hunit : c.rget START MGT_FW_WIN_CTL_UNIT ≠ 3)
    (hfits : c.rget START MGT_FW_WIN_CTL_BASE * 256 + w + 4 ≤ fwLimit (c.rget START MGT_FW_WIN_CTL_UNIT))
    (hidle : c.rget MGT (runFld (c.rget START MGT_FW_WIN_CTL_UNIT)) ≠ c.rget START MGT_FW_WIN_CTL_IMAGE) :
    imageWrite path w v c = fwStore (2 * c.rget START MGT_FW_WIN_CTL_UNIT + c.rget START MGT_FW_WIN_CTL_IMAGE)
      (c.rget START MGT_FW_WIN_CTL_BASE * 256 + w) (leBytes 4 v) c := by
  simp only [imageWrite, gt_iff_lt, Nat.not_lt.2 hfits, hunit, decide_false, beq_eq_false_iff_ne.2 hidle, Bool.or_self,
    Bool.false_eq_true, if_false]

end

section
variable {path : Path} {c : Chip}

/-- A root's time is set (R466). -/
theorem aihTimeSetStep_of_root (v : Nat) (hup : c.up = true) (hroot : c.rget AIH AIH_TIME_CTL_ROOT = 1) : aihTimeSetStep path v c =
    timeCheck { c with time := v, fab := { c.fab with synced := true, rate := 0, left := 0, frac := 0 } } :=
  if_neg (by simp [hup, hroot])

/-- A time written where there is no root is logged (R470). -/
theorem aihTimeSetStep_of_follower (v : Nat) (hroot : c.rget AIH AIH_TIME_CTL_ROOT ≠ 1) :
    aihTimeSetStep path v c = accLog 0 (AIH + AIH_TIME_SET_TIME.off) .other path c :=
  if_pos (by simp [hroot])

/-- A host complex that is held starts as it is released (R516). -/
theorem mgtHostReleaseStep_of_held (hup : c.up = true) (hhold : c.rget START MGT_STRAP_HOST_HOLD = 1)
    (hstate : c.rget CPLX HST_CPLX_STATUS_STATE = 0) (hresetting : c.host.resetting = false) : mgtHostReleaseStep path c = hostsStart c :=
  if_pos (by simp [hup, hhold, hstate, hresetting])

/-- PCX_FLUSH of a running module drains its port, and reads 0 (R426). -/
theorem pcxFlushStep_of_up (q : Nat) (hstandby : c.hedge.standby = true) (hlive : pathLive path c = true) (hup : c.up = true) :
    pcxFlushStep path q c = (drainAll q c).emit (.read path (PCX q + PCX_FLUSH.off) 0) := by
  rw [pcxFlushStep, if_neg (by simp [hstandby, hlive]), if_pos hup, pcxFlushNow]

end

/-- Settles O49: an access that finds its register does what a write of it does (`regWriteNow_of_word`, `regWriteNow_of_dword`), and each of
the commands that are writes of one register is such an access. -/
theorem registerCommandsAct : Obligations.RegisterCommandsAct := by
  intro s path c
  refine ⟨fun off size v p r hwf hfinds => ⟨?word, ?dword, ?narrow⟩, ?pcx, ?aih, ?alert, ?optics, ?wake, ?time, ?host, ?image, ?flush⟩
  case word =>
    rintro rfl hwide
    exact gives_of_run rfl hwf (regWriteNow_of_word hfinds hwide)
  case dword =>
    rintro rfl hwide
    exact gives_of_run rfl hwf (regWriteNow_of_dword hfinds hwide)
  case narrow =>
    rintro rfl hwide
    exact gives_of_run rfl hwf (regWriteNow_of_narrow hfinds hwide)
  case pcx =>
    rintro q p r hwf hfinds hwide hblk hoff rfl
    exact gives_of_run rfl hwf ((regWriteNow_of_word hfinds hwide).trans (regAct_pcxRetrain hblk hoff))
  case aih =>
    rintro q p r hwf hfinds hwide hblk hoff rfl hsmall v
    have hbit : bitAt v 3 = true := by
      rw [bitAt, bits, beq_iff_eq]; omega
    refine gives_of_run (f := aihPortRetrainStep path p.inst) rfl hwf ?_
    rw [aihPortRetrainStep, regWriteNow_of_word hfinds hwide, setBits_retrain hsmall, bits_word (by omega)]
    exact regAct_aihRetrain hblk hoff hbit
  case alert =>
    intro p r hwf hfinds hwide hblk hoff
    exact gives_of_run rfl hwf ((regWriteNow_of_word hfinds hwide).trans (regAct_alert hblk hoff))
  case optics =>
    intro q p r hwf hfinds hwide hblk hoff
    have hq : q < 9 := by
      simp only [Instr.wf, Bool.and_eq_true, decide_eq_true_eq] at hwf
      exact hwf.2
    refine gives_of_run (f := opticsFaultClearStep path q) rfl hwf ?_
    rw [opticsFaultClearStep, regWriteNow_of_word hfinds hwide, bits_word (Nat.pow_lt_pow_right (by decide) (by omega))]
    exact regAct_opticsFault hblk hoff hq
  case wake => exact fun hwf hstandby => gives_of_run (f := wakeReqStep path) rfl hwf (if_pos hstandby)
  case time =>
    exact fun v hwf hup => ⟨fun hroot => gives_of_run rfl hwf (aihTimeSetStep_of_root v hup hroot),
      fun hroot => gives_of_run rfl hwf (aihTimeSetStep_of_follower v hroot)⟩
  case host =>
    exact fun hwf hup hhold hstate hresetting => gives_of_run rfl hwf (mgtHostReleaseStep_of_held hup hhold hstate hresetting)
  case image =>
    intro w v hwf hstandby hlive halign hv u i o hunit hfits hidle
    have hw : w < 2 ^ 16 := by
      simp only [Instr.wf, Bool.and_eq_true, decide_eq_true_eq] at hwf
      exact hwf.1.2
    exact gives_of_run rfl hwf ((imageWindowWriteStep_of_stored hstandby hlive halign hw hv).trans (imageWrite_of_idle hunit hfits hidle))
  case flush => exact fun q hwf hstandby hlive hup => gives_of_run rfl hwf (pcxFlushStep_of_up q hstandby hlive hup)

end Sys2Proof.Machine

/-! The PCI Express ports: resets and links (R429 to R433), and outbound and configuration requests (R416 to R419, R519). -/

namespace Sys2Proof.Machine

open Sys2Proof

/-! ### Fields of one register -/

/-- The first of two fields of a block lies within 64 bits and shares none with the second. -/
def Fld.apart (f g : Fld) : Bool := f.lo + f.w ≤ 64 && (g.off != f.off || f.lo + f.w ≤ g.lo || g.lo + g.w ≤ f.lo)

/-- A field that shares no bit with the one put into its block reads as before. -/
theorem Chip.rget_rput_apart (c : Chip) (b : Nat) {f g : Fld} (v : Nat) (h : f.apart g = true) : (c.rput b f v).rget b g = c.rget b g := by
  simp only [Fld.apart, Bool.and_eq_true, Bool.or_eq_true, decide_eq_true_eq, bne_iff_ne] at h
  exact Chip.rget_rput_ne c b f v b g h.1 (by omega)

@[simp] theorem endWaits_regs (w : WaitFor) (c : Chip) : (endWaits w c).regs = c.regs := by
  rw [endWaits]
  exact foldl_keep Chip.regs _ (fun d m => Chip.putCmd_regs d _) _ c

/-! ### Links -/

/-- A port's link is up, with a speed and a width, in FLIT mode or not (R415, R433). -/
def linkedUp (p speed width flit : Nat) (c : Chip) : Chip :=
  (((c.rput (PCX p) PCX_STATUS_LINK_UP 1).rput (PCX p) PCX_STATUS_SPEED speed).rput (PCX p) PCX_STATUS_WIDTH width).rput (PCX p)
    PCX_STATUS_FLIT flit

section
variable (p speed width flit : Nat) (c : Chip)

/-- A link that has come up shows its speed, its width and its mode, and keeps the mark of a reset in progress. -/
theorem linkedUp_status : (linkedUp p speed width flit c).rget (PCX p) PCX_STATUS_LINK_UP = 1 ∧
    (linkedUp p speed width flit c).rget (PCX p) PCX_STATUS_SPEED = speed % 8 ∧
    (linkedUp p speed width flit c).rget (PCX p) PCX_STATUS_WIDTH = width % 32 ∧
    (linkedUp p speed width flit c).rget (PCX p) PCX_STATUS_FLIT = flit % 2 ∧
    (linkedUp p speed width flit c).rget (PCX p) PCX_STATUS_FLR = c.rget (PCX p) PCX_STATUS_FLR := by
  refine ⟨?up, ?speed, ?width, ?flit, ?reset⟩
  case up =>
    rw [linkedUp, Chip.rget_rput_apart _ _ _ (by decide), Chip.rget_rput_apart _ _ _ (by decide), Chip.rget_rput_apart _ _ _ (by decide),
      Chip.rget_rput_self _ _ _ _ (by decide)]
    rfl
  case speed =>
    rw [linkedUp, Chip.rget_rput_apart _ _ _ (by decide), Chip.rget_rput_apart _ _ _ (by decide), Chip.rget_rput_self _ _ _ _ (by decide)]
    rfl
  case width =>
    rw [linkedUp, Chip.rget_rput_apart _ _ _ (by decide), Chip.rget_rput_self _ _ _ _ (by decide)]
    rfl
  case flit =>
    rw [linkedUp, Chip.rget_rput_self _ _ _ _ (by decide)]
    rfl
  case reset =>
    rw [linkedUp, Chip.rget_rput_apart _ _ _ (by decide), Chip.rget_rput_apart _ _ _ (by decide), Chip.rget_rput_apart _ _ _ (by decide),
      Chip.rget_rput_apart _ _ _ (by decide)]

/-- The end of a port reset clears its mark, and no other field of the status (R431). -/
theorem pcxResetOver_rget {g : Fld} (h : PCX_STATUS_FLR.apart g = true) :
    (pcxResetOver p c).rget (PCX p) g = c.rget (PCX p) g := by
  rw [pcxResetOver, Chip.rget_congr (endWaits_regs _ _), Chip.rget_rput_apart _ _ _ h]

theorem pcxResetOver_flr : (pcxResetOver p c).rget (PCX p) PCX_STATUS_FLR = 0 := by
  rw [pcxResetOver, Chip.rget_congr (endWaits_regs _ _), Chip.rget_rput_self _ _ _ _ (by decide)]
  rfl

end

section
variable {p speed width : Nat} {c : Chip}

/-- A link that trains at a speed and a width that there are comes up, and ends a port reset that waits for it (R415, R431, R433). -/
theorem pcxLinkUpStep_of_down (hstandby : c.hedge.standby = true) (hdown : pcxUp c p = false) (hlow : 1 ≤ speed) (hhigh : speed ≤ 6)
    (hwidth : width ∈ [1, 2, 4, 8, 16]) :
    let e := linkedUp p speed width (if speed = 6 then 1 else c.draw.1 % 2) c.draw.2
    pcxLinkUpStep p speed width c = if c.rget (PCX p) PCX_STATUS_FLR = 1 then pcxResetOver p e else e := by
  intro e
  have hok : widthOk width = true := by
    simpa [widthOk, or_assoc] using hwidth
  have hflr : e.rget (PCX p) PCX_STATUS_FLR = c.rget (PCX p) PCX_STATUS_FLR := (linkedUp_status p speed width _ c.draw.2).2.2.2.2
  have hgo : ¬ (!c.hedge.standby || pcxUp c p || decide (speed < 1) || decide (speed > 6) || !widthOk width) = true := by
    simp [hstandby, hdown, hok, Nat.not_lt.2 hlow, Nat.not_lt.2 hhigh]
  rw [← hflr, pcxLinkUpStep, if_neg hgo]
  rfl

/-- What the status of a port reads after its link has come up. -/
theorem pcxLinkUpStep_status (hstandby : c.hedge.standby = true) (hdown : pcxUp c p = false) (hlow : 1 ≤ speed) (hhigh : speed ≤ 6)
    (hwidth : width ∈ [1, 2, 4, 8, 16]) : let e := pcxLinkUpStep p speed width c
    pcxUp e p = true ∧ e.rget (PCX p) PCX_STATUS_SPEED = speed ∧ e.rget (PCX p) PCX_STATUS_WIDTH = width ∧
      (speed = 6 → e.rget (PCX p) PCX_STATUS_FLIT = 1) ∧ (c.rget (PCX p) PCX_STATUS_FLR = 1 → e.rget (PCX p) PCX_STATUS_FLR = 0) := by
  intro e
  have he : e = _ := pcxLinkUpStep_of_down hstandby hdown hlow hhigh hwidth
  obtain ⟨hup, hspeed, hwide, hflit, -⟩ := linkedUp_status p speed width (if speed = 6 then 1 else c.draw.1 % 2) c.draw.2
  have hspeed' : speed % 8 = speed := Nat.mod_eq_of_lt (by omega)
  have hwidth' : width % 32 = width := by
    simp only [List.mem_cons, List.not_mem_nil, or_false] at hwidth
    exact Nat.mod_eq_of_lt (by omega)
  rw [hspeed'] at hspeed
  rw [hwidth'] at hwide
  have hmode : speed = 6 → (if speed = 6 then 1 else c.draw.1 % 2) % 2 = 1 := fun h => by rw [if_pos h]
  rw [he]
  split
  · simp only [pcxUp, beq_iff_eq, pcxResetOver_flr, pcxResetOver_rget p _ (g := PCX_STATUS_LINK_UP) (by decide),
      pcxResetOver_rget p _ (g := PCX_STATUS_SPEED) (by decide), pcxResetOver_rget p _ (g := PCX_STATUS_WIDTH) (by decide),
      pcxResetOver_rget p _ (g := PCX_STATUS_FLIT) (by decide)]
    exact ⟨hup, hspeed, hwide, fun h => hflit.trans (hmode h), fun _ => trivial⟩
  · exact ⟨beq_iff_eq.2 hup, hspeed, hwide, fun h => hflit.trans (hmode h), fun h => absurd h ‹_›⟩

/-- A reset of function 1 finds no command of its mailbox: the mailbox and its duplicate window are cleared (R430). -/
theorem flr1_of_no_command (hnone : c.cmds.all (fun m => decide (m.car ≠ .mailbox p)) = true) : flr1 p c = c.setPath (.mailbox p) {} := by
  have hany : c.cmds.any (fun m => decide (m.car = .mailbox p)) = false := by
    rw [List.any_eq_false]
    exact fun m hm => by simpa using List.all_eq_true.1 hnone m hm
  simp only [flr1, hany, Bool.false_eq_true, if_false]

/-- The link of a port that is up is lost (R430, R433). -/
theorem pcxLinkDownStep_of_up (hup : pcxUp c p = true) : let d := (linkClear p c).rput (PCX p) PCX_ERR_LINK_DOWN 1
    pcxLinkDownStep p c = if isEp d p then flr1 p (flr0 p d) else d :=
  if_neg (by simp [hup])

end

/-- Settles O52: each command comes to what its port's role and link ask; the status after a link has come up is `pcxLinkUpStep_status`. -/
theorem portsComeAndGo : Obligations.PortsComeAndGo := by
  intro s p c
  refine ⟨fun hep hup => ⟨fun hwf => ?flr0, fun hwf => ?flr1⟩, fun hwf hep hstandby => ?endpoint, fun hwf hup => ?down,
    flr1_of_no_command, fun speed width hwf hstandby hdown hlow hhigh hwidth => ?up, fun hwf hup hroot => ?message,
    fun hwf => gives_of_run rfl hwf rfl, fun hwf => gives_of_run rfl hwf rfl⟩
  case flr0 => exact gives_of_run (f := pcxFlrFunction0Step p) rfl hwf (if_pos (Bool.and_eq_true_iff.2 ⟨hep, hup⟩))
  case flr1 => exact gives_of_run (f := pcxFlrFunction1Step p) rfl hwf (if_pos (Bool.and_eq_true_iff.2 ⟨hep, hup⟩))
  case endpoint => exact gives_of_run (f := pcxEndpointResetStep p) rfl hwf (if_pos (Bool.and_eq_true_iff.2 ⟨hep, hstandby⟩))
  case down => exact gives_of_run rfl hwf (pcxLinkDownStep_of_up hup)
  case up => exact ⟨_, gives_of_run rfl hwf rfl, pcxLinkUpStep_status hstandby hdown hlow hhigh hwidth⟩
  case message =>
    exact gives_of_run (f := pcxErrorMessageStep p) rfl hwf (if_pos (Bool.and_eq_true_iff.2 ⟨hup, congrArg Bool.not hroot⟩))

/-! ### Outbound requests (R416, R417) -/

section
variable {r : OutReq} {p o : Nat} {ecam : Bool} {c : Chip}

/-- What a request of a running core comes to, by its target and the link. -/
theorem pcxOutboundRequestStep_eq (htarget : outTarget r.addr = some (p, ecam, o)) (hon : hostOn r.hart c = true) :
    let d := hartRuns r.hart c
    pcxOutboundRequestStep r c =
      if ecam && isEp d p then outFault p r.hart r.addr d
      else if ecam && o < 4096 then ownCfg r d
      else if !pcxUp d p then outFault p r.hart r.addr d
      else if ecam then outNonPosted p (if r.wr.isSome then 3 else 2) o r d
      else match r.wr with
      | none => outNonPosted p 0 o r d
      | some b => ((d.emit (.pcxReq p 0 1 o r.size b)).emit (.hostReply r.hart r.addr 0 [])).rcount (PCX p) PCX_OUT_BYTES b.length := by
  simp only [pcxOutboundRequestStep, htarget, hon, Bool.not_true, Bool.false_eq_true, if_false] <;> rfl

/-- ECAM of an endpoint is an access fault. -/
theorem pcxOutboundRequestStep_of_ecam (htarget : outTarget r.addr = some (p, ecam, o)) (hon : hostOn r.hart c = true) (hecam : ecam = true)
    (hep : isEp (hartRuns r.hart c) p = true) : pcxOutboundRequestStep r c = outFault p r.hart r.addr (hartRuns r.hart c) := by
  rw [pcxOutboundRequestStep_eq htarget hon, if_pos (by rw [hecam, hep]; rfl)]

/-- A port whose link is down is an access fault. -/
theorem pcxOutboundRequestStep_of_down (htarget : outTarget r.addr = some (p, ecam, o)) (hon : hostOn r.hart c = true) (hecam : ecam = false)
    (hdown : pcxUp (hartRuns r.hart c) p = false) : pcxOutboundRequestStep r c = outFault p r.hart r.addr (hartRuns r.hart c) := by
  rw [pcxOutboundRequestStep_eq htarget hon, hecam, hdown]
  rfl

/-- A read takes a free tag, goes out and waits. -/
theorem pcxOutboundRequestStep_of_read (htarget : outTarget r.addr = some (p, ecam, o)) (hon : hostOn r.hart c = true) (hecam : ecam = false)
    (hup : pcxUp (hartRuns r.hart c) p = true) (hread : r.wr = none) {t : Nat} (htag : freeTag ((hartRuns r.hart c).port p) = some t) :
    let d := hartRuns r.hart c
    let x := d.port p
    let e := d.setPcx p { x with outs := x.outs ++ [⟨t, r.hart, r.addr, r.size⟩], nextTag := (t + 1) % 16384 }
    pcxOutboundRequestStep r c = (e.emit (.pcxReq p t 0 o r.size [])).rcount (PCX p) PCX_OUT_BYTES 0 := by
  intro d x e
  rw [pcxOutboundRequestStep_eq htarget hon, hecam, hup, hread]
  simp only [outNonPosted, htag, hread]
  rfl

/-- A write is posted and done at once. -/
theorem pcxOutboundRequestStep_of_write (htarget : outTarget r.addr = some (p, ecam, o)) (hon : hostOn r.hart c = true) (hecam : ecam = false)
    (hup : pcxUp (hartRuns r.hart c) p = true) {b : List Byte} (hwrite : r.wr = some b) :
    pcxOutboundRequestStep r c = (((hartRuns r.hart c).emit (.pcxReq p 0 1 o r.size b)).emit (.hostReply r.hart r.addr 0 [])).rcount (PCX p)
      PCX_OUT_BYTES b.length := by
  rw [pcxOutboundRequestStep_eq htarget hon, hecam, hup, hwrite]
  rfl

end

section
variable {p tag : Nat} {o : OutPend} {c : Chip}

/-- A completion of status 0 gives the core the bytes. -/
theorem pcxOutboundCompletionStep_of_success (data : List Byte) (hout : (c.port p).outs.find? (fun o => o.tag == tag) = some o)
    (hup : pcxUp c p = true) :
    pcxOutboundCompletionStep p tag 0 data c = (dropTag p tag c).emit (.hostReply o.hart o.addr 0 (sliceBytes data 0 o.size)) := by
  simp only [pcxOutboundCompletionStep, hout, hup]
  rfl

/-- A completion of an error status is an access fault. -/
theorem pcxOutboundCompletionStep_of_error {st : Nat} (data : List Byte) (hout : (c.port p).outs.find? (fun o => o.tag == tag) = some o)
    (hup : pcxUp c p = true) (hsuccess : st ≠ 0) (hretry : st ≠ 2) :
    pcxOutboundCompletionStep p tag st data c = outFault p o.hart o.addr (dropTag p tag c) := by
  simp only [pcxOutboundCompletionStep, hout, hup, beq_eq_false_iff_ne.2 hretry, Bool.not_true, Bool.or_self, Bool.false_eq_true, if_false,
    hsuccess]

/-- No completion for 50 ms is an access fault. -/
theorem pcxCompletionTimeoutStep_of_waiting (hout : (c.port p).outs.find? (fun o => o.tag == tag) = some o) :
    pcxCompletionTimeoutStep p tag c = outFault p o.hart o.addr (dropTag p tag c) := by
  rw [pcxCompletionTimeoutStep, hout]

end

/-! ### Configuration requests (R418, R519) -/

section
variable {p fn off : Nat} {c : Chip}

/-- A function that is not ready answers with Request Retry Status. -/
theorem pcxConfigRequestStep_of_notReady (wr : Option Nat) (hstandby : c.hedge.standby = true) (hup : pcxUp c p = true) (hep : isEp c p = true)
    (hfn : fn = 0) (hready : c.up = false ∨ c.rget (PCX p) PCX_STATUS_FLR = 1) :
    pcxConfigRequestStep p fn off wr c = c.emit (.pcxCfg p fn off 2 0) := by
  unfold pcxConfigRequestStep
  rw [if_neg (by simp [hstandby, hup, hep]), if_pos (by simp [hfn, hready])]

/-- A function that is ready answers a read of its identifiers. -/
theorem pcxConfigRequestStep_of_ready (hstandby : c.hedge.standby = true) (hup : pcxUp c p = true) (hep : isEp c p = true)
    (hready : fn = 1 ∨ (c.up = true ∧ c.rget (PCX p) PCX_STATUS_FLR = 0)) (hoff : off < 4) :
    pcxConfigRequestStep p fn off none c = c.emit (.pcxCfg p fn off 0
      (c.rget MOD MOD_ID_VENDOR + 65536 * (if fn = 0 then c.rget MOD MOD_ID_DEVICE else 0x4B02))) := by
  have hgo : ¬ (decide (fn = 0) && (!c.up || c.rget (PCX p) PCX_STATUS_FLR == 1)) = true := by
    obtain rfl | ⟨hrun, hflr⟩ := hready
    · simp
    · simp [hrun, hflr]
  rw [pcxConfigRequestStep, if_neg (by simp [hstandby, hup, hep]), if_neg hgo]
  simp only [cfgRead, Nat.div_eq_of_lt hoff, if_true]

end

/-- Settles O53: a request is `pcxOutboundRequestStep_eq` at its target, a completion ends the request of its tag, and a configuration request
is answered by whether its function is ready. -/
theorem outboundRequestsAct : Obligations.OutboundRequestsAct := by
  intro s c
  refine ⟨fun r p ecam o hwf htarget hon => ⟨fun hecam hep => ?ecam, fun hecam hdown => ?down,
      fun hecam hup => ⟨fun t hread htag => ?read, fun b hwrite => ?write⟩⟩,
    fun p tag o hout => ⟨fun data hwf hup => ?success, fun st data hwf hup hsuccess hretry => ?error, fun hwf => ?timeout⟩,
    fun p fn off hwf hstandby hup hep => ⟨fun hfn hready => ?notReady, fun hready hoff => ?ready⟩⟩
  case ecam => exact gives_of_run rfl hwf (pcxOutboundRequestStep_of_ecam htarget hon hecam hep)
  case down => exact gives_of_run rfl hwf (pcxOutboundRequestStep_of_down htarget hon hecam hdown)
  case read => exact gives_of_run rfl hwf (pcxOutboundRequestStep_of_read htarget hon hecam hup hread htag)
  case write => exact gives_of_run rfl hwf (pcxOutboundRequestStep_of_write htarget hon hecam hup hwrite)
  case success => exact gives_of_run rfl hwf (pcxOutboundCompletionStep_of_success data hout hup)
  case error => exact gives_of_run rfl hwf (pcxOutboundCompletionStep_of_error data hout hup hsuccess hretry)
  case timeout => exact gives_of_run rfl hwf (pcxCompletionTimeoutStep_of_waiting hout)
  case notReady => exact gives_of_run rfl hwf (pcxConfigRequestStep_of_notReady none hstandby hup hep hfn hready)
  case ready => exact gives_of_run rfl hwf (pcxConfigRequestStep_of_ready hstandby hup hep hready hoff)

end Sys2Proof.Machine

/-! Collectives (R460 to R464): how one begins at its member, and the sum of INT32 elements, which no order of its terms changes. -/

namespace Sys2Proof.Machine

open Sys2Proof

/-! ### A collective begins -/

/-- The port towards the next member of a group, which a collective takes as its engine. -/
def Group.nextPort (g : Group) (c : Chip) : Nat :=
  match rankNode c (g.rank c g.next) with
  | some n => (match route c n with
    | .port p => p
    | _ => 0)
  | none => 0

theorem Group.nextPort_eq (g : Group) (c : Chip) : (match (rankNode c (g.rank c g.next)).map (route c) with
    | some (.port p) => p
    | _ => 0) = g.nextPort c := by
  unfold Group.nextPort
  cases rankNode c (g.rank c g.next) with
  | none => rfl
  | some n =>
    dsimp only [Option.map_some]
    cases route c n <;> rfl

/-- A collective that has begun with its member's own data. -/
def Coll.begin (x : Coll) (m : Cmd) (g : Group) (c : Chip) : Coll :=
  { x with begun := true, got := [(g.me, (List.range (collSrc m).d0).filter (fun e => (elemBad c m (collSrc m) e 0 0).isSome),
    opBytes c m (collSrc m) 0 (collSrc m).rowBytes)] }

/-- The command and the module after SRC has been read, with the port to the next member as the command's engine. -/
def collTaken (m : Cmd) (g : Group) (c : Chip) : Cmd × Chip :=
  let r := takeAll [(collSrc m, 0, (collSrc m).rowBytes)] m c
  ({ r.1 with inst := g.nextPort r.2 }, r.2.putCmd { r.1 with inst := g.nextPort r.2 })

/-- The module with the member's own data kept, and sent to the next member when there is one. -/
def collSent (x : Coll) (m : Cmd) (g : Group) (c : Chip) : Chip :=
  let e := (collTaken m g c).2.putColl (x.begin m g c)
  if g.n > 1 then
    sendColl g g.next (ownMsg (x.begin m g c) g.me 0 0 ((List.range (collSrc m).d0).filter (fun e => (elemBad c m (collSrc m) e 0 0).isSome))
      (opBytes c m (collSrc m) 0 (collSrc m).rowBytes)) e
  else e

section
variable {x y : Coll} {m : Cmd} {g : Group} {c : Chip}

/-- A collective that nothing has reached yet, whose SRC has no word of bad parity, sends its own data and moves on where nothing has gone
wrong meanwhile (R461, R464). -/
theorem collBegin_of_fresh (hgot : x.got = []) (hready : x.ready = []) (hparity : partsBadWord c m [(collSrc m, 0, (collSrc m).rowBytes)] = none)
    (hcoll : (collSent x m g c).coll x.group x.cseq = some y) (hlost : y.lost = none) (hfail : y.fail = none) (hmatch : y.mismatch = false) :
    collBegin x m g c = collAdvance y (collTaken m g c).1 g (collSent x m g c) := by
  have hsent : collBegin x m g c = match (collSent x m g c).coll x.group x.cseq with
      | some y => if y.lost.isSome || y.mismatch || y.fail.isSome then collSent x m g c
        else collAdvance y (collTaken m g c).1 g (collSent x m g c)
      | none => collSent x m g c := by
    simp only [collBegin, hparity, hgot, hready, List.nil_append, List.foldl_nil]
    simp only [collSent, collTaken, Coll.begin, Group.nextPort, hready] <;> rfl
  rw [hsent, hcoll]
  simp only [hlost, hfail, hmatch, Option.isSome_none, Bool.or_self, Bool.false_eq_true, if_false]

/-- The row of a collective in execution begins it. -/
theorem collStep_of_waiting {op q seq : Nat} (hrun : running q seq 7 op c = some m)
    (hfind : c.fab.colls.find? (fun x => decide (x.cmd = some (m.car, m.seq)) && !x.begun) = some x)
    (hgroup : groupOf c m (m.par 96 2) = some g) : collStep op q seq c = collBegin x m g c := by
  simp only [collStep, hrun, hfind, hgroup]

end

/-- Settles O37: the row of each of the five kinds begins its collective (`collStep_of_waiting`), which `collBegin_of_fresh` carries on. That
a member's whole SRC goes round the ring is the model's choice (log entry 31). -/
theorem collectivesBegin : Obligations.CollectivesBegin := by
  intro s q seq m x g c d bad data r port n e0 e y hfind hgroup hgot hready hparity hcoll hlost hfail hmatch
  have hport : port = g.nextPort r.2 := g.nextPort_eq r.2
  clear_value port
  subst hport
  have hbegin : collBegin x m g c = collAdvance y n g e := collBegin_of_fresh hgot hready hparity hcoll hlost hfail hmatch
  refine ⟨fun hrun hwf => ?allreduce, fun hrun hwf => ?reduceScatter, fun hrun hwf => ?allgather, fun hrun hwf => ?broadcast,
    fun hrun hwf => ?alltoall⟩
  case allreduce => exact gives_of_run rfl hwf ((collStep_of_waiting hrun hfind hgroup).trans hbegin)
  case reduceScatter => exact gives_of_run rfl hwf ((collStep_of_waiting hrun hfind hgroup).trans hbegin)
  case allgather => exact gives_of_run rfl hwf ((collStep_of_waiting hrun hfind hgroup).trans hbegin)
  case broadcast => exact gives_of_run rfl hwf ((collStep_of_waiting hrun hfind hgroup).trans hbegin)
  case alltoall => exact gives_of_run rfl hwf ((collStep_of_waiting hrun hfind hgroup).trans hbegin)

/-! ### Sums of INT32 elements (R463) -/

/-- The integer that a 32-bit code of i reads as is i wrapped to 32 bits. -/
theorem sext_wrapInt (i : Int) : sext 32 (wrapInt 32 i) = i.bmod (2 ^ 32) := by
  have hnonneg : 0 ≤ i % ((2 ^ 32 : Nat) : Int) := Int.emod_nonneg _ (by decide)
  have hlt : i % ((2 ^ 32 : Nat) : Int) < ((2 ^ 32 : Nat) : Int) := Int.emod_lt_of_pos _ (by decide)
  simp only [sext, wrapInt, Int.bmod]
  split_ifs <;> omega

/-- An integer value reads back. -/
theorem vToInt_vInt (i : Int) : vToInt (vInt i) = i := by
  simp only [vInt, vToInt, pow2, Int.neg_zero, Int.toNat_zero, Nat.pow_zero, Nat.mul_one, Nat.div_one, decide_eq_true_eq]
  split <;> omega

/-- One step of an INT32 sum wraps the sum. -/
theorem redStep_sum_v {a b : RVal} {i j : Int} (ha : a.v = vInt i) (hb : b.v = vInt j) :
    (redStep .int32 0 a b).v = vInt ((i + j).bmod (2 ^ 32)) := by
  simp only [redStep, fmtIsInt, ha, hb, vToInt_vInt, sext_wrapInt, if_true]

/-- An element of an INT32 reduction. -/
def intElem (i : Int) : RVal := ⟨vInt i, 0⟩

/-- An INT32 sum over a list, begun at an element that holds a wrapped sum, wraps the whole sum. -/
theorem foldl_redStep_sum (l : List Int) {r : RVal} {a : Int} (hr : r.v = vInt (a.bmod (2 ^ 32))) :
    ((l.map intElem).foldl (redStep .int32 0) r).v = vInt ((a + l.sum).bmod (2 ^ 32)) := by
  induction l generalizing r a with
  | nil => simpa using hr
  | cons i l ih =>
    have hstep : (redStep .int32 0 r (intElem i)).v = vInt ((a + i).bmod (2 ^ 32)) := by
      rw [redStep_sum_v hr rfl, Int.bmod_add_bmod]
    rw [List.map_cons, List.foldl_cons, ih hstep, List.sum_cons, Int.add_assoc]

/-- Numbers below n whose positions around a ring of n are told apart are all of them, in some order. -/
theorem map_range_perm {n : Nat} {f : Nat → Nat} (hlt : ∀ i < n, f i < n) (hinj : ∀ i < n, ∀ j < n, f i = f j → i = j) :
    (List.range n).map f |>.Perm (List.range n) := by
  have hnodup : ((List.range n).map f).Nodup :=
    List.Nodup.map_on (fun i hi j hj => hinj i (List.mem_range.1 hi) j (List.mem_range.1 hj)) List.nodup_range
  refine (List.subperm_of_subset hnodup fun k hk => ?_).perm_of_length_le (by simp)
  obtain ⟨i, hi, rfl⟩ := List.mem_map.1 hk
  exact List.mem_range.2 (hlt i (List.mem_range.1 hi))

/-- A partial sum takes each member once, whichever way it travels (R463). -/
theorem redOrder_perm (n c : Nat) (plus : Bool) : (redOrder n c plus).Perm (List.range n) := by
  refine map_range_perm (fun i hi => ?below) fun i hi j hj heq => ?once
  case below =>
    split <;> exact Nat.mod_lt _ (Nat.zero_lt_of_lt hi)
  case once =>
    split at heq
    · exact (Nat.ModEq.add_left_cancel' (c + 1) heq).eq_of_lt_of_lt hi hj
    · rw [Nat.mod_eq_of_lt hi, Nat.mod_eq_of_lt hj] at heq
      have hback : (c + n - 1 - i + n) + j ≡ (c + n - 1 - i + n) + i [MOD n] := by
        have hsum : (c + n - 1 - i + n) + i = (c + n - 1 - j + n) + j := by omega
        rw [hsum]
        exact Nat.ModEq.add_right j heq
      exact ((Nat.ModEq.add_left_cancel' _ hback).eq_of_lt_of_lt hj hi).symm

/-- The elements of a list taken at each of its places once add up to its sum. -/
theorem sum_map_nth {l : List Int} {order : List Nat} (h : order.Perm (List.range l.length)) : (order.map (fun i => nth l i 0)).sum = l.sum := by
  have hall : (List.range l.length).map (fun i => nth l i 0) = l := by
    refine List.ext_getElem (by simp) fun i _ hi => ?_
    simp [nth, hi]
  rw [(h.map _).sum_eq, hall]

/-- Settles O38: the members are added in some order (`redOrder_perm`), each step wraps the sum so far (`foldl_redStep_sum`), and the sum of
the integers is the same in every order (`sum_map_nth`). -/
theorem collectiveSumsOfIntegersAreExact : Obligations.CollectiveSumsOfIntegersAreExact := by
  intro len e l _ hne hrange
  have hperm := redOrder_perm l.length (chunkOf len l.length e) (plusWay len l.length e)
  have hsum := sum_map_nth hperm
  have hmem : ∀ i ∈ redOrder l.length (chunkOf len l.length e) (plusWay len l.length e), i < l.length :=
    fun i hi => List.mem_range.1 (hperm.mem_iff.1 hi)
  have helems : (redOrder l.length (chunkOf len l.length e) (plusWay len l.length e)).map (fun i => nth (l.map intElem) i ⟨vZero, 0⟩) =
      ((redOrder l.length (chunkOf len l.length e) (plusWay len l.length e)).map (fun i => nth l i 0)).map intElem := by
    rw [List.map_map]
    refine List.map_congr_left fun i hi => ?_
    simp [nth, hmem i hi]
  have htotal : l.foldl (· + ·) 0 = l.sum := List.sum_eq_foldl.symm
  rw [sext_wrapInt, htotal, ← hsum]
  change (redElem .int32 0 len e (l.map intElem)).v = _
  rw [redElem, List.length_map, helems]
  have hterms : ∀ i ∈ (redOrder l.length (chunkOf len l.length e) (plusWay len l.length e)).map (fun i => nth l i 0),
      i.bmod (2 ^ 32) = i := by
    intro i hi
    obtain ⟨k, hk, rfl⟩ := List.mem_map.1 hi
    have hin : nth l k 0 ∈ l := by simp [nth, hmem k hk]
    have := hrange _ hin
    exact Int.bmod_eq_of_le (by omega) (by omega)
  cases hord : (redOrder l.length (chunkOf len l.length e) (plusWay len l.length e)).map (fun i => nth l i 0) with
  | nil =>
    exfalso
    have hlen := hperm.length_eq
    rw [List.map_eq_nil_iff.1 hord, List.length_nil, List.length_range] at hlen
    exact hne (List.length_eq_zero_iff.1 hlen.symm)
  | cons i rest =>
    have hi : (intElem i).v = vInt (i.bmod (2 ^ 32)) := by
      rw [hterms i (hord ▸ List.mem_cons_self)]
      rfl
    exact foldl_redStep_sum rest hi

end Sys2Proof.Machine

/-! Transactions of the fabric at their target and at their origin (R453 to R459), and windows (R454). -/

namespace Sys2Proof.Machine

open Sys2Proof

/-! ### At the target (R457, R458) -/

section
variable {rank node seq : Nat} {act : Chip → Option Reply × Chip} {c : Chip} {o : Origin}

/-- An origin as its next transaction from a node finds it. -/
def Origin.heard (o : Origin) (node : Nat) (c : Chip) : Origin := { o with node := node, last := c.time }

/-- The module as a new transaction of a known origin acts on it. -/
def Chip.received (c : Chip) (o : Origin) (node seq : Nat) : Chip := c.setOrigin ((o.heard node c).remember seq none c.time)

theorem placeOrigin_of_known (horigin : c.origin rank = some o) : placeOrigin rank node c = (some (o.heard node c), c) := by
  rw [placeOrigin, horigin, Origin.heard]

/-- A repeated transaction is answered with its first outcome, marked. -/
theorem receiveTxn_of_repeated (horigin : c.origin rank = some o) {r : Reply} {t : Nat}
    (hseen : o.seen.find? (fun x => x.seq == seq) = some ⟨seq, some r, t⟩) :
    receiveTxn rank node seq act c =
      (sendPkt 1 node (.reply { r with dup := true }) ((c.setOrigin (o.heard node c)).rcount AIH AIH_DUPS 1)).2 := by
  simp only [receiveTxn, placeOrigin_of_known horigin, Origin.heard, hseen]

/-- A new transaction that comes to an outcome is answered with it. -/
theorem receiveTxn_of_answered (horigin : c.origin rank = some o) (hnew : o.seen.find? (fun x => x.seq == seq) = none) {y : Reply} {d : Chip}
    (hact : act (c.received o node seq) = (some y, d)) : receiveTxn rank node seq act c =
      (sendPkt 1 node (.reply y) (d.setOrigin ((o.heard node c).remember seq (some y) c.time))).2 := by
  simp only [Chip.received, Origin.heard] at hact
  simp only [receiveTxn, placeOrigin_of_known horigin, Origin.heard, hnew, hact]

/-- A new transaction that waits for its outcome is not answered yet. -/
theorem receiveTxn_of_pending (horigin : c.origin rank = some o) (hnew : o.seen.find? (fun x => x.seq == seq) = none) {d : Chip}
    (hact : act (c.received o node seq) = (none, d)) : receiveTxn rank node seq act c = d := by
  simp only [Chip.received, Origin.heard] at hact
  simp only [receiveTxn, placeOrigin_of_known horigin, Origin.heard, hnew, hact]

end

/-- What another module's transaction does, an access, a Yoke operation or a message of a collective, with its reply (R453). -/
def accessAct (a : RemoteAccess) (c : Chip) : Option Reply × Chip :=
  match accessOk a c with
  | none => (some (mkReply c a.seq (accessRes 0 5 0xFF) [] false), c.rcount AIH AIH_REFUSED 1)
  | some w => (some (accessDo w a c).1, (accessDo w a c).2)

def yokeAct (y : YokeFrame) (c : Chip) : Option Reply × Chip :=
  ((remoteYoke y c).1.map (fun x => mkReply (remoteYoke y c).2 y.txn x [] false), (remoteYoke y c).2)

def collAct (m : CollMsg) (c : Chip) : Option Reply × Chip :=
  if m.job ≠ c.rget AIH AIH_JOB_CUR_JOB then (some (mkReply c m.seq (accessRes 0 5 0xFF) [] false), c.rcount AIH AIH_REFUSED 1)
  else (some (mkReply c m.seq doneRes [] false), hearColl m c)

section
variable {c e : Chip}

theorem remoteAccessArrivalStep_of_up (a : RemoteAccess) (hup : c.up = true) :
    remoteAccessArrivalStep a c = receiveTxn a.rank a.node a.seq (accessAct a) c := if_pos hup

theorem accessAct_of_refused {a : RemoteAccess} (hbad : accessOk a e = none) :
    accessAct a e = (some (mkReply e a.seq (accessRes 0 5 0xFF) [] false), e.rcount AIH AIH_REFUSED 1) := by
  rw [accessAct, hbad]

theorem accessAct_of_write {a : RemoteAccess} {w : Win} (hok : accessOk a e = some w) (hwrite : a.kind = 0) :
    accessAct a e = (some (mkReply (accessWrite w a e) a.seq doneRes [] false), accessWrite w a e) := by
  rw [accessAct, hok]
  simp only [accessDo, hwrite]

theorem yokeAct_of_outcome {y : YokeFrame} {r : Res} {f : Chip} (hy : remoteYoke y e = (some r, f)) :
    yokeAct y e = (some (mkReply f y.txn r [] false), f) := by
  rw [yokeAct, hy]
  rfl

theorem yokeAct_of_pending {y : YokeFrame} {f : Chip} (hy : remoteYoke y e = (none, f)) : yokeAct y e = (none, f) := by
  rw [yokeAct, hy]
  rfl

theorem collAct_of_foreign {m : CollMsg} (hjob : m.job ≠ e.rget AIH AIH_JOB_CUR_JOB) :
    collAct m e = (some (mkReply e m.seq (accessRes 0 5 0xFF) [] false), e.rcount AIH AIH_REFUSED 1) := if_pos hjob

theorem collAct_of_job {m : CollMsg} (hjob : m.job = e.rget AIH AIH_JOB_CUR_JOB) :
    collAct m e = (some (mkReply e m.seq doneRes [] false), hearColl m e) := if_neg (not_not_intro hjob)

end

/-- Settles O39: every transaction arrives by `receiveTxn`, whose answer is the first outcome (`receiveTxn_of_repeated`) or what the access,
the Yoke operation or the message comes to (`receiveTxn_of_answered`, `receiveTxn_of_pending`). -/
theorem arrivingTransactionsAreAnswered : Obligations.ArrivingTransactionsAreAnswered := by
  intro s rank node seq o c horigin p e again answered fresh
  refine ⟨?access, ?yoke, ?coll⟩
  case access =>
    rintro a rfl rfl rfl hup i
    have hstep := remoteAccessArrivalStep_of_up a hup
    refine ⟨fun r t hwf hseen => gives_of_run rfl hwf (hstep.trans (receiveTxn_of_repeated horigin hseen)),
      fun hwf hnew => ⟨fun hbad => ⟨?_, fun _ => rfl, fun _ _ => rfl⟩, fun w hok hwrite => ?_⟩⟩
    · exact gives_of_run rfl hwf (hstep.trans (receiveTxn_of_answered horigin hnew (accessAct_of_refused hbad)))
    · exact gives_of_run rfl hwf (hstep.trans (receiveTxn_of_answered horigin hnew (accessAct_of_write hok hwrite)))
  case yoke =>
    rintro y rfl rfl rfl i
    exact ⟨fun r t hwf hseen => gives_of_run rfl hwf (receiveTxn_of_repeated (act := yokeAct y) horigin hseen),
      fun hwf hnew => ⟨fun r f hy => gives_of_run rfl hwf (receiveTxn_of_answered horigin hnew (yokeAct_of_outcome hy)),
        fun f hy => gives_of_run rfl hwf (receiveTxn_of_pending horigin hnew (yokeAct_of_pending hy))⟩⟩
  case coll =>
    rintro m rfl rfl rfl i
    exact ⟨fun r t hwf hseen => gives_of_run rfl hwf (receiveTxn_of_repeated (act := collAct m) horigin hseen),
      fun hwf hnew => ⟨fun hjob => gives_of_run rfl hwf (receiveTxn_of_answered horigin hnew (collAct_of_foreign hjob)),
        fun hjob => gives_of_run rfl hwf (receiveTxn_of_answered horigin hnew (collAct_of_job hjob))⟩⟩

/-! ### At the origin (R456 to R459) -/

section
variable {r : Reply} {t : Txn} {c : Chip}

/-- A reply that answers nothing outstanding changes nothing. -/
theorem takeReply_of_unknown (hfind : c.fab.txns.find? (fun t => t.rank == r.rank && t.seq == r.seq) = none) : takeReply r c = c := by
  rw [takeReply, hfind]

/-- A busy reply leaves its transaction to the end-to-end timeout. -/
theorem takeReply_of_busy (hfind : c.fab.txns.find? (fun t => t.rank == r.rank && t.seq == r.seq) = some t) (hbusy : r.busy = true) :
    takeReply r c = c := by
  simp only [takeReply, hfind, hbusy, if_true]

/-- A command that a reply has reached: the transaction is over, and the mark of a repeated outcome kept. -/
def Cmd.replied (m : Cmd) (t : Txn) (r : Reply) : Cmd := { m with txns := m.txns.filter (fun i => i != t.id), dup := m.dup || r.dup }

section
variable {k : Carrier} {n tile : Nat} {m : Cmd} (hfind : c.fab.txns.find? (fun t => t.rank == r.rank && t.seq == r.seq) = some t)
  (hready : r.busy = false) (hfor : t.for_ = .cmd k n tile) (hcmd : (dropTxn t.id c).findCmd k n = some m)
include hfind hready hfor hcmd

/-- A Yoke operation of another module ends with the reply's outcome. -/
theorem takeReply_of_yoke (hcls : m.cls = 6) : takeReply r c = finish (m.replied t r) (replyRes r) (dropTxn t.id c) := by
  simp only [takeReply, hfind, hready, hfor, hcmd, Cmd.replied, Bool.false_eq_true, if_false]
  exact if_pos hcls

/-- Data DONE are kept for their command. -/
theorem takeReply_of_done (hcls : m.cls ≠ 6) (hdone : r.status = sDone) :
    takeReply r c = (dropTxn t.id c).putCmd { m.replied t r with got := m.got ++ [(tile, r.poison, r.data)] } := by
  simp only [takeReply, hfind, hready, hfor, hcmd, hdone, Cmd.replied, bne_self_eq_false, Bool.or_false, Bool.false_eq_true, if_false]
  exact (if_neg hcls).trans (if_pos trivial)

/-- A refusal ends its command. -/
theorem takeReply_of_refused (hcls : m.cls ≠ 6) (hdone : r.status ≠ sDone) (hclean : r.status ≠ sPoisoned) (hcorr : r.status ≠ sUncorr) :
    takeReply r c = failCmd (m.replied t r) (replyRes r) (dropTxn t.id c) := by
  simp only [takeReply, hfind, hready, hfor, hcmd, Cmd.replied, Bool.false_eq_true, if_false]
  exact (if_neg hcls).trans ((if_neg hdone).trans (if_neg (not_or.2 ⟨hclean, hcorr⟩)))

end

section
variable {id : Nat} (hfind : c.fab.txns.find? (fun t => t.id == id) = some t)
include hfind

/-- A transaction that no path reaches fails as a lost peer (R448). -/
theorem unreachTxn_of_waiting : unreachTxn id c = failTxn t (peerLostRes t.rank 0) c := by
  rw [unreachTxn, hfind]

/-- A transaction that is not answered is sent again while resends are left (R459). -/
theorem timeoutTxn_of_resend {n : Nat} (hleft : t.resends < e2eResends c) (hnode : rankNode c t.rank = some n) :
    let r := sendPkt 0 n t.pkt c
    let x := { t with resends := t.resends + 1, unreach := !r.1, exhausted := !r.1 && allFailed c }
    let e := r.2.rcount AIH AIH_RESENDS 1
    timeoutTxn id c = { e with fab := { e.fab with txns := e.fab.txns.map (fun y => if y.id = id then x else y) } } := by
  simp only [timeoutTxn, hfind, hleft, hnode, reqClass, if_true]

/-- A transaction with no resends left ends its command, by what became of its last one (R459). -/
theorem timeoutTxn_of_spent (hspent : e2eResends c ≤ t.resends) : timeoutTxn id c =
    failTxn t (if t.exhausted then mkRes sRetryEx [] else if t.unreach then peerLostRes t.rank 0 else mkRes sTimeout []) c := by
  simp only [timeoutTxn, hfind, Nat.not_lt.2 hspent, if_false]
  split <;> [rfl; split <;> rfl]

end

end

/-! ### Windows (R454) -/

section
variable {q seq : Nat} {m : Cmd} {c : Chip}

/-- WIN_OPEN of a number that is open is refused. -/
theorem winOpenStep_of_open (hcmd : winCmd q seq 0x10 c = some m) (hopen : c.window (m.par 48 2) ≠ none) :
    winOpenStep q seq c = finish m (accessRes (parseDesc m.bytes 16 0).addr 5 0) c := by
  simp only [winOpenStep, hcmd, Option.isSome_iff_ne_none.2 hopen, if_true]

/-- The window that a WIN_OPEN of a REGION in frame space opens. -/
def Cmd.frameWin (m : Cmd) : Win :=
  let d := parseDesc m.bytes 16 0
  ⟨m.ctx, false, 0, bits d.addr 0 57, m.pages, regionLen d, m.par 50 1, bits (m.par 52 4) 0 20, bits (m.par 56 4) 0 20⟩

/-- The segment of a context that a REGION in a Seedbed lies in, as its base and size. -/
def Cmd.winSeg (m : Cmd) (c : Chip) : Nat × Nat := (c.ctxDesc m.ctx).seg ((parseDesc m.bytes 16 0).sbdHalf m.half)

/-- The window that a WIN_OPEN of a REGION in a Seedbed opens. -/
def Cmd.sbdWin (m : Cmd) (c : Chip) : Win :=
  let d := parseDesc m.bytes 16 0
  ⟨m.ctx, true, d.sbdHalf m.half, (m.winSeg c).1 + bits d.addr 0 28, [], regionLen d, m.par 50 1, bits (m.par 52 4) 0 20, bits (m.par 56 4) 0 20⟩

/-- A window opens, and its command is done. -/
def openWin (m : Cmd) (w : Win) (c : Chip) : Chip := finish m doneRes { c with fab := { c.fab with wins := c.fab.wins ++ [(m.par 48 2, w)] } }

/-- WIN_OPEN opens a REGION in frame space. -/
theorem winOpenStep_of_frame (hcmd : winCmd q seq 0x10 c = some m) (hfree : c.window (m.par 48 2) = none)
    (hspace : (parseDesc m.bytes 16 0).space ≠ 1) : winOpenStep q seq c = openWin m m.frameWin c := by
  simp only [winOpenStep, hcmd, hfree, hspace, Option.isSome_none, Bool.false_eq_true, if_false]
  rfl

/-- WIN_OPEN of a REGION beyond its Seedbed segment is refused. -/
theorem winOpenStep_of_beyond (hcmd : winCmd q seq 0x10 c = some m) (hfree : c.window (m.par 48 2) = none)
    (hspace : (parseDesc m.bytes 16 0).space = 1)
    (hlen : bits (parseDesc m.bytes 16 0).addr 0 28 + regionLen (parseDesc m.bytes 16 0) > (m.winSeg c).2) :
    winOpenStep q seq c = finish m (accessRes (parseDesc m.bytes 16 0).addr 3 0) c := by
  simp only [winOpenStep, hcmd, hfree, hspace, Option.isSome_none, Bool.false_eq_true, if_false, if_true]
  exact if_pos hlen

/-- WIN_OPEN opens a REGION within its Seedbed segment. -/
theorem winOpenStep_of_seedbed (hcmd : winCmd q seq 0x10 c = some m) (hfree : c.window (m.par 48 2) = none)
    (hspace : (parseDesc m.bytes 16 0).space = 1)
    (hlen : bits (parseDesc m.bytes 16 0).addr 0 28 + regionLen (parseDesc m.bytes 16 0) ≤ (m.winSeg c).2) :
    winOpenStep q seq c = openWin m (m.sbdWin c) c := by
  simp only [winOpenStep, hcmd, hfree, hspace, Option.isSome_none, Bool.false_eq_true, if_false, if_true]
  exact if_neg (Nat.not_lt.2 hlen)

/-- WIN_CLOSE of a PRIV context, or of the window's owner, closes the window. -/
theorem winCloseStep_of_owner (hcmd : winCmd q seq 0x11 c = some m)
    (howner : m.priv = true ∨ ∃ w, c.window (m.par 48 2) = some w ∧ w.ctx = m.ctx) : winCloseStep q seq c =
      finish m doneRes { c with fab := { c.fab with wins := c.fab.wins.filter (fun e => e.1 != m.par 48 2) } } := by
  simp only [winCloseStep, hcmd]
  refine if_pos ?_
  obtain hpriv | ⟨w, hwin, hctx⟩ := howner
  · simp [hpriv]
  · simp [hwin, hctx]

/-- WIN_CLOSE of any other context is refused. -/
theorem winCloseStep_of_stranger (hcmd : winCmd q seq 0x11 c = some m) (hpriv : m.priv = false)
    (hother : ∀ w, c.window (m.par 48 2) = some w → w.ctx ≠ m.ctx) : winCloseStep q seq c = finish m (accessRes 0 6 0xFF) c := by
  simp only [winCloseStep, hcmd]
  refine if_neg ?_
  cases hwin : c.window (m.par 48 2) with
  | none => simp [hpriv]
  | some w => simp [hpriv, hother w hwin]

end

/-- Settles O40: replies, unreachable replies and timeouts end their transaction as `takeReply`, `unreachTxn` and `timeoutTxn` say case by
case; that a window that is not open is closed by a PRIV context alone is the model's reading (log entry 55). -/
theorem originsSeeEveryTransactionEnd : Obligations.OriginsSeeEveryTransactionEnd := by
  intro s c
  refine ⟨?replies, ?lost, ?windows⟩
  case replies =>
    intro r hwf hup f
    have hstep : transactionReplyStep r s.toChip = takeReply r s.toChip := if_pos hup
    refine ⟨fun hfind => ?unknown, fun t hfind hbusy => ?busy,
      fun t k n tile m hfind hready hfor hcmd => ⟨fun hcls => ?yoke, fun hcls hdone => ?done, fun hcls hdone hclean hcorr => ?refused⟩⟩
    case unknown => exact gives_of_run rfl hwf (hstep.trans (takeReply_of_unknown hfind))
    case busy => exact gives_of_run rfl hwf (hstep.trans (takeReply_of_busy hfind hbusy))
    case yoke => exact gives_of_run rfl hwf (hstep.trans (takeReply_of_yoke hfind hready hfor hcmd hcls))
    case done => exact gives_of_run rfl hwf (hstep.trans (takeReply_of_done hfind hready hfor hcmd hcls hdone))
    case refused => exact gives_of_run rfl hwf (hstep.trans (takeReply_of_refused hfind hready hfor hcmd hcls hdone hclean hcorr))
  case lost =>
    intro id t hup hfind
    have htimeout : e2eTimeoutStep id s.toChip = timeoutTxn id s.toChip := if_pos hup
    refine ⟨fun hwf => ?unreachable, fun hwf => ⟨fun n hleft hnode => ?resend, fun hspent => ?spent⟩⟩
    case unreachable => exact gives_of_run (f := unreachableReplyStep id) rfl hwf ((if_pos hup).trans (unreachTxn_of_waiting hfind))
    case resend => exact gives_of_run rfl hwf (htimeout.trans (timeoutTxn_of_resend hfind hleft hnode))
    case spent => exact gives_of_run rfl hwf (htimeout.trans (timeoutTxn_of_spent hfind hspent))
  case windows =>
    intro q seq m n d opened
    refine ⟨fun hcmd hwf => ⟨fun hopen => ?isOpen, fun hfree hspace => ?frame, fun hfree hspace => ⟨fun hlen => ?beyond, fun hlen => ?seedbed⟩⟩,
      fun hcmd hwf => ⟨fun howner => ?owner, fun hpriv hother => ?stranger⟩⟩
    case isOpen => exact gives_of_run rfl hwf (winOpenStep_of_open hcmd hopen)
    case frame => exact gives_of_run rfl hwf (winOpenStep_of_frame hcmd hfree hspace)
    case beyond => exact gives_of_run rfl hwf (winOpenStep_of_beyond hcmd hfree hspace hlen)
    case seedbed => exact gives_of_run rfl hwf (winOpenStep_of_seedbed hcmd hfree hspace hlen)
    case owner => exact gives_of_run rfl hwf (winCloseStep_of_owner hcmd howner)
    case stranger => exact gives_of_run rfl hwf (winCloseStep_of_stranger hcmd hpriv hother)

end Sys2Proof.Machine

/-! The Aihal links (R439 to R445), the Stile (R436 to R438) and fabric time (R466 to R468): what each event of a port comes to. -/

namespace Sys2Proof.Machine

open Sys2Proof

section
variable {p : Nat} {c : Chip}

/-! ### Training (R439) -/

/-- A field of a port at other bits than those of its STATE leaves the state of the port alone. -/
theorem portState_rput {f : Fld} (v : Nat) (h : f.apart AIH_PORT_STATUS_STATE = true) : portState (c.rput (AIHP p) f v) p = portState c p :=
  Chip.rget_rput_apart c (AIHP p) v h

/-- Light at a port that is OFF and may train starts its training. -/
theorem linkSignalDetectStep_of_off (hoff : portState c p = 0) (hready : portReady (c.rput (AIHP p) AIH_PORT_STATUS_LOS 0) p = true) :
    linkSignalDetectStep p c = portTrain p (c.rput (AIHP p) AIH_PORT_STATUS_LOS 0) := by
  have hstate := (portState_rput (c := c) (p := p) (f := AIH_PORT_STATUS_LOS) 0 (by decide)).trans hoff
  exact if_pos (Bool.and_eq_true_iff.2 ⟨decide_eq_true hstate, hready⟩)

/-- FEC lock of a port that trains. -/
theorem linkFecLockStep_of_training (htraining : portState c p = 1) (hready : portReady c p = true) :
    linkFecLockStep p c = if c.rget (AIHP p) AIH_PORT_STATUS_USE = 3 then portUpNow p (c.rput (AIHP p) AIH_PORT_STATUS_LOS 0)
      else setPort p 2 (c.rput (AIHP p) AIH_PORT_STATUS_LOS 0) := by
  rw [linkFecLockStep, if_neg (by simp [htraining, hready]),
    ← Chip.rget_rput_apart c (AIHP p) (f := AIH_PORT_STATUS_LOS) (g := AIH_PORT_STATUS_USE) 0 (by decide)]

/-- Loss of light in the exchange of records, QUARANTINE or UP takes a link back to training. -/
theorem linkLossOfSignalStep_of_lit (hstate : portState c p ∈ [2, 3, 4]) :
    linkLossOfSignalStep p c = setPort p 1 (c.rput (AIHP p) AIH_PORT_STATUS_LOS 1) := by
  have hlit : 2 ≤ portState c p ∧ portState c p ≤ 4 := by
    simp only [List.mem_cons, List.not_mem_nil, or_false] at hstate
    omega
  rw [linkLossOfSignalStep, portState_rput 1 (by decide)]
  exact if_pos (by simpa using hlit)

/-! ### Concord records (R440, R441) -/

/-- A link that does not yet agree sends its record. -/
theorem concordSendStep_of_exchange (hstate : portState c p = 2 ∨ portState c p = 3) (huse : c.rget (AIHP p) AIH_PORT_STATUS_USE ≠ 3) :
    concordSendStep p c = c.emit (.concord p (concordRec c p)) := by
  have hgo : ¬ (decide (portState c p < 2) || decide (portState c p > 4) || c.rget (AIHP p) AIH_PORT_STATUS_USE == 3) = true := by
    simp only [Bool.or_eq_true, decide_eq_true_eq, beq_iff_eq]
    omega
  have hdown : ¬ portState (c.emit (.concord p (concordRec c p))) p = 4 := by
    rw [portState, Chip.rget_congr (Chip.emit_regs c _), ← portState]
    omega
  rw [concordSendStep, if_neg hgo]
  exact if_neg hdown

/-- A port with its neighbour's record and the fields that show it. -/
def peerTaken (p : Nat) (r : Concord) (c : Chip) : Chip :=
  (((c.setAport p { c.aport p with peer := r.bytes }).rput (AIHP p) AIH_PORT_PEER_NODE (leAt r.bytes 8 3)).rput (AIHP p) AIH_PORT_PEER_PORT
    (leAt r.bytes 11 1)).rput (AIHP p) AIH_PORT_PEER_VALID 1

theorem portState_peerTaken (r : Concord) : portState (peerTaken p r c) p = portState c p := by
  rw [peerTaken, portState_rput _ (by decide), portState_rput _ (by decide), portState_rput _ (by decide)]
  rfl

/-- A record of good CRC at a link that exchanges records is kept and compared. -/
theorem concordReceiveStep_of_good {r : Concord} (hlow : 2 ≤ portState c p) (hhigh : portState c p ≤ 4)
    (huse : c.rget (AIHP p) AIH_PORT_STATUS_USE ≠ 3) (hcrc : recCrc r.bytes = true) :
    concordReceiveStep p r c = concordNow p r.bytes (peerTaken p r c) := by
  have hgo : ¬ (decide (portState c p < 2) || decide (portState c p > 4) || c.rget (AIHP p) AIH_PORT_STATUS_USE == 3) = true := by
    simp only [Bool.or_eq_true, decide_eq_true_eq, beq_iff_eq]
    omega
  rw [concordReceiveStep, if_neg hgo]
  simp only [hcrc, if_true]
  rfl

/-- Records that agree bring a link UP. -/
theorem concordNow_of_agree {peer : List Byte} (hstate : portState c p ∈ [2, 3]) (hagree : agree (concordRec c p) peer = true) :
    concordNow p peer c = portUpNow p c := by
  simp only [List.mem_cons, List.not_mem_nil, or_false] at hstate
  have hrange : ¬ (decide (portState c p < 2) || decide (portState c p > 4)) = true := by
    simp only [Bool.or_eq_true, decide_eq_true_eq]
    omega
  have hdown : portState c p ≠ 4 := by omega
  simp only [concordNow, if_neg hrange, hagree, hdown, if_true, if_false]

/-- Records that do not agree take a link to QUARANTINE, with an event as it enters. -/
theorem concordNow_of_disagree {peer : List Byte} (hstate : portState c p ∈ [2, 4]) (hagree : agree (concordRec c p) peer = false) :
    concordNow p peer c = linkEvent p (setPort p 3 (c.rput (AIHP p) AIH_PORT_ERR_CONCORD 1)) := by
  simp only [List.mem_cons, List.not_mem_nil, or_false] at hstate
  have hrange : ¬ (decide (portState c p < 2) || decide (portState c p > 4)) = true := by
    simp only [Bool.or_eq_true, decide_eq_true_eq]
    omega
  have houtside : portState c p ≠ 3 := by omega
  simp only [concordNow, if_neg hrange, hagree, houtside, Bool.false_eq_true, if_false]

/-! ### Frames (R443) -/

/-- A frame for this module is delivered. -/
theorem passPkt_of_here {cls src dst : Nat} (pkt : Packet) (hhere : dst = c.node) : passPkt p cls src dst pkt c = deliverPkt pkt c := if_pos hhere

/-- Counting the bytes that a port receives leaves the node's number alone. -/
theorem node_rcount_rxBytes (n : Nat) : (c.rcount (AIHP p) AIH_PORT_RX_BYTES n).node = c.node := by
  refine Chip.rget_rput_ne c _ _ _ _ _ (by decide) (.inl ?_)
  simp only [AIH, AIHP, AIH_NODE_ID_NODE, AIH_PORT_RX_BYTES]
  omega

section
variable {f : LinkFrame} (hup : portState c p = 4) (huse : c.rget (AIHP p) AIH_PORT_STATUS_USE ≠ 3)
include hup huse

/-- A frame with a bad CRC is counted and answered with a NAK. -/
theorem frameReceiveStep_of_bad (hcrc : f.crcOk = false) :
    frameReceiveStep p f c = (c.rcount (AIHP p) AIH_PORT_CRC_ERR 1).emit (.nak p (c.aport p).rxSeq) := by
  simp only [frameReceiveStep, hup, huse, hcrc, beq_self_eq_true, Bool.true_or, Bool.not_true, Bool.not_false, Bool.false_eq_true, if_false,
    if_true]

/-- The next frame awaited, for this module, is counted and delivered. -/
theorem frameReceiveStep_of_awaited (hcrc : f.crcOk = true) (hseq : f.seq = (c.aport p).rxSeq) (hhere : f.dst = c.node)
    (hcount : (c.aport p).sinceAck < 63) :
    let a := c.aport p
    frameReceiveStep p f c = deliverPkt f.pkt
      ((c.setAport p { a with rxSeq := (a.rxSeq + 1) % 65536, sinceAck := a.sinceAck + 1 }).rcount (AIHP p) AIH_PORT_RX_BYTES
        (pktBytes f.pkt)) := by
  intro a
  have hfew : ¬ (c.aport p).sinceAck + 1 ≥ 64 := by omega
  simp only [frameReceiveStep, hup, huse, hcrc, hseq, hfew, beq_self_eq_true, Bool.true_or, Bool.not_true, Bool.false_eq_true, if_false, if_true]
  exact passPkt_of_here _ (hhere.trans (node_rcount_rxBytes _).symm)

/-- The 64th frame since the last acknowledgement is acknowledged as well. -/
theorem frameReceiveStep_of_last (hcrc : f.crcOk = true) (hseq : f.seq = (c.aport p).rxSeq) (hhere : f.dst = c.node)
    (hcount : (c.aport p).sinceAck = 63) :
    let a := c.aport p
    frameReceiveStep p f c = deliverPkt f.pkt
      (((c.setAport p { a with rxSeq := (a.rxSeq + 1) % 65536, sinceAck := 0 }).emit (.ack p ((a.rxSeq + 1) % 65536))).rcount (AIHP p)
        AIH_PORT_RX_BYTES (pktBytes f.pkt)) := by
  intro a
  have hfull : (c.aport p).sinceAck + 1 ≥ 64 := by omega
  simp only [frameReceiveStep, hup, huse, hcrc, hseq, hfull, beq_self_eq_true, Bool.true_or, Bool.not_true, Bool.false_eq_true, if_false, if_true]
  exact passPkt_of_here _ (hhere.trans (node_rcount_rxBytes _).symm)

/-- An older frame is dropped. -/
theorem frameReceiveStep_of_old (hcrc : f.crcOk = true) (hold : ∃ n, 1 ≤ n ∧ n ≤ 4096 ∧ f.seq + n = (c.aport p).rxSeq)
    (hwidth : (c.aport p).rxSeq < 65536) : frameReceiveStep p f c = c := by
  obtain ⟨n, hlow, hhigh, hsum⟩ := hold
  have hback : wrapSub 16 (c.aport p).rxSeq f.seq = n := by
    rw [wrapSub]
    omega
  have hne : f.seq ≠ (c.aport p).rxSeq := by omega
  have hrange : (decide (1 ≤ n) && decide (n ≤ 4096)) = true := by simp [hlow, hhigh]
  simp only [frameReceiveStep, hup, huse, hcrc, hne, hback, hrange, beq_self_eq_true, Bool.true_or, Bool.not_true, Bool.false_eq_true, if_false,
    if_true]

end

/-- The ACK timer of a link that is UP acknowledges the frames that have arrived. -/
theorem ackTimerStep_of_unacked (hup : portState c p = 4) (hframes : (c.aport p).sinceAck > 0) :
    ackTimerStep p c = (c.setAport p { c.aport p with sinceAck := 0 }).emit (.ack p (c.aport p).rxSeq) :=
  if_pos (Bool.and_eq_true_iff.2 ⟨decide_eq_true hup, decide_eq_true hframes⟩)

/-- After 16 replays a link retrains (R444). -/
theorem linkRetrainStep_of_limit (hup : portState c p = 4) (hlimit : (c.aport p).replays ≥ 16) :
    let d := (c.rput (AIHP p) AIH_PORT_ERR_REPLAY_LIMIT 1).rcount (AIHP p) AIH_PORT_RETRAINS 1
    linkRetrainStep p c = setPort p 1 (d.setAport p { d.aport p with replays := 0 }) :=
  if_pos (Bool.and_eq_true_iff.2 ⟨decide_eq_true hup, decide_eq_true hlimit⟩)

/-- A link that fails is FAILED, its frames dropped, with an event (R445). -/
theorem linkFailedStep_of_training (hstate : portState c p ∈ [1, 2, 3]) :
    linkFailedStep p c = linkEvent p (dropFrames p ((setPort p 5 c).rput (AIHP p) AIH_PORT_ERR_RETRAIN_FAIL 1)) := by
  simp only [List.mem_cons, List.not_mem_nil, or_false] at hstate
  refine if_neg ?_
  simp only [Bool.or_eq_true, decide_eq_true_eq]
  omega

/-! ### Fabric time (R466 to R468) -/

section
variable {x : TimeXchg} (hroot : c.rget AIH AIH_TIME_CTL_ROOT = 0) (hport : timePort c = some x.port) (hhops : x.hops < 0xFFFF)
include hroot hport hhops

/-- An exchange with the port that time is taken on adopts the hops, and slews, steps or slows down by the offset. -/
theorem timeExchangeStep_of_port :
    let d := c.rput AIH AIH_TIME_CTL_HOPS (x.hops + 1)
    let fb := { c.fab with synced := true, lastX := c.time }
    let off := if x.theirs ≥ c.time then x.theirs - c.time else c.time - x.theirs
    timeExchangeStep x c = if off < 10000 then
        timeCheck { d with fab := { fb with rate := if off = 0 then 0 else if x.theirs ≥ c.time then 1 else 2, left := off * 1000 } }
      else if x.theirs ≥ c.time then
        timeCheck { d with time := x.theirs, fab := { fb with rate := 0, left := 0, frac := 0, stepped := some x.theirs, lastX := x.theirs } }
      else timeCheck { d with fab := { fb with rate := 3, left := off * 1000 } } := by
  intro d fb off
  have hgo : ¬ (decide (c.rget AIH AIH_TIME_CTL_ROOT = 1) || timePort c != some x.port || decide (x.hops ≥ 0xFFFF)) = true := by
    simp [hroot, hport, Nat.not_le.2 hhops]
  rw [timeExchangeStep, if_neg hgo]
  rfl

/-- A small offset ahead is slewed faster. -/
theorem timeExchangeStep_of_ahead (hahead : c.time ≤ x.theirs) (hsmall : x.theirs - c.time < 10000) :
    let d := c.rput AIH AIH_TIME_CTL_HOPS (x.hops + 1)
    let fb := { c.fab with synced := true, lastX := c.time }
    timeExchangeStep x c = timeCheck { d with fab := { fb with rate := if x.theirs = c.time then 0 else 1, left := (x.theirs - c.time) * 1000 } } := by
  have hzero : (x.theirs - c.time = 0) = (x.theirs = c.time) := propext (by omega)
  simp only [timeExchangeStep_of_port hroot hport hhops, ge_iff_le, hahead, hsmall, hzero, if_true]

/-- A small offset behind is slewed slower. -/
theorem timeExchangeStep_of_behind (hbehind : x.theirs < c.time) (hsmall : c.time - x.theirs < 10000) :
    let d := c.rput AIH AIH_TIME_CTL_HOPS (x.hops + 1)
    let fb := { c.fab with synced := true, lastX := c.time }
    timeExchangeStep x c = timeCheck { d with fab := { fb with rate := 2, left := (c.time - x.theirs) * 1000 } } := by
  have hne : ¬ c.time - x.theirs = 0 := by omega
  simp only [timeExchangeStep_of_port hroot hport hhops, ge_iff_le, Nat.not_le.2 hbehind, hsmall, hne, if_true, if_false]

/-- A large offset ahead is a step. -/
theorem timeExchangeStep_of_farAhead (hfar : c.time + 10000 ≤ x.theirs) :
    let d := c.rput AIH AIH_TIME_CTL_HOPS (x.hops + 1)
    let fb := { c.fab with synced := true, lastX := c.time }
    timeExchangeStep x c = timeCheck { d with time := x.theirs, fab := { fb with rate := 0, left := 0, frac := 0, stepped := some x.theirs, lastX := x.theirs } } := by
  have hahead : c.time ≤ x.theirs := by omega
  have hlarge : ¬ x.theirs - c.time < 10000 := by omega
  simp only [timeExchangeStep_of_port hroot hport hhops, ge_iff_le, hahead, hlarge, if_true, if_false]

/-- A large offset behind is taken up at half speed. -/
theorem timeExchangeStep_of_farBehind (hfar : x.theirs + 10000 ≤ c.time) :
    let d := c.rput AIH AIH_TIME_CTL_HOPS (x.hops + 1)
    let fb := { c.fab with synced := true, lastX := c.time }
    timeExchangeStep x c = timeCheck { d with fab := { fb with rate := 3, left := (c.time - x.theirs) * 1000 } } := by
  have hbehind : ¬ c.time ≤ x.theirs := by omega
  have hlarge : ¬ c.time - x.theirs < 10000 := by omega
  simp only [timeExchangeStep_of_port hroot hport hhops, ge_iff_le, hbehind, hlarge, if_false]

end

end

/-- Settles O54: each event comes to what the state of its port, the record, the frame or the offset asks. That an encapsulated port is UP at
FEC lock and a frame is delivered at once is the model's choice (log entries 52, 53). -/
theorem linkCommandsAct : Obligations.LinkCommandsAct := by
  intro s p c b a
  refine ⟨fun hwf hoff hready => ?light, fun hwf htraining hready => ⟨fun huse => ?lockEncap, fun huse => ?lock⟩, fun hwf hstate => ?loss,
    fun hwf hstate huse => ?send, ?record, ?frame, fun hup => ⟨?ack, ?nak, ?replay, ?timer, ?retrain⟩, fun hwf hstate => ?failed, ?exchange,
    fun hwf hroot => ?unsure, fun hwf hmoving => ?stile, fun hwf => gives_of_run rfl hwf rfl, fun hwf => gives_of_run rfl hwf rfl⟩
  case light => exact gives_of_run rfl hwf (linkSignalDetectStep_of_off hoff hready)
  case lockEncap => exact gives_of_run rfl hwf ((linkFecLockStep_of_training htraining hready).trans (if_pos huse))
  case lock => exact gives_of_run rfl hwf ((linkFecLockStep_of_training htraining hready).trans (if_neg huse))
  case loss => exact gives_of_run rfl hwf (linkLossOfSignalStep_of_lit hstate)
  case send => exact gives_of_run rfl hwf (concordSendStep_of_exchange hstate huse)
  case record =>
    intro r hwf huse hcrc d
    have hpeer : portState (peerTaken p r c) p = portState c p := portState_peerTaken r
    refine ⟨fun hstate hagree => ?_, fun hstate hagree => ?_⟩
    · have hrange : 2 ≤ portState c p ∧ portState c p ≤ 4 := by
        simp only [List.mem_cons, List.not_mem_nil, or_false] at hstate
        omega
      exact gives_of_run rfl hwf ((concordReceiveStep_of_good hrange.1 hrange.2 huse hcrc).trans (concordNow_of_agree (hpeer ▸ hstate) hagree))
    · have hrange : 2 ≤ portState c p ∧ portState c p ≤ 4 := by
        simp only [List.mem_cons, List.not_mem_nil, or_false] at hstate
        omega
      exact gives_of_run rfl hwf ((concordReceiveStep_of_good hrange.1 hrange.2 huse hcrc).trans (concordNow_of_disagree (hpeer ▸ hstate) hagree))
  case frame =>
    intro f hwf hup huse
    refine ⟨fun hcrc => ?bad, fun hcrc hseq hhere hcount => ?awaited, fun hcrc hseq hhere hcount => ?last, fun hcrc hold hwidth => ?old⟩
    case bad => exact gives_of_run rfl hwf (frameReceiveStep_of_bad hup huse hcrc)
    case awaited => exact gives_of_run rfl hwf (frameReceiveStep_of_awaited hup huse hcrc hseq hhere hcount)
    case last => exact gives_of_run rfl hwf (frameReceiveStep_of_last hup huse hcrc hseq hhere hcount)
    case old => exact gives_of_run rfl hwf (frameReceiveStep_of_old hup huse hcrc hold hwidth)
  case ack => exact fun n hwf => gives_of_run (f := ackReceiveStep p n) rfl hwf (if_pos hup)
  case nak => exact fun n hwf => gives_of_run (f := nakReceiveStep p n) rfl hwf (if_pos hup)
  case replay => exact fun hwf => gives_of_run (f := replayTimeoutStep p) rfl hwf (if_pos hup)
  case timer => exact fun hwf hframes => gives_of_run rfl hwf (ackTimerStep_of_unacked hup hframes)
  case retrain => exact fun hwf hlimit => gives_of_run rfl hwf (linkRetrainStep_of_limit hup hlimit)
  case failed => exact gives_of_run rfl hwf (linkFailedStep_of_training hstate)
  case exchange =>
    intro x hwf hroot hport hhops d fb
    exact ⟨fun hahead hsmall => gives_of_run rfl hwf (timeExchangeStep_of_ahead hroot hport hhops hahead hsmall),
      fun hbehind hsmall => gives_of_run rfl hwf (timeExchangeStep_of_behind hroot hport hhops hbehind hsmall),
      fun hfar => gives_of_run rfl hwf (timeExchangeStep_of_farAhead hroot hport hhops hfar),
      fun hfar => gives_of_run rfl hwf (timeExchangeStep_of_farBehind hroot hport hhops hfar)⟩
  case unsure =>
    exact gives_of_run (f := timeUnsureTimeoutStep) rfl hwf (if_neg fun h => absurd (hroot.symm.trans h) (by decide))
  case stile =>
    exact gives_of_run (f := stileChangeStep) rfl hwf (if_neg fun h => absurd (hmoving.symm.trans h) (by decide))

end Sys2Proof.Machine

/-! Rails (R472, R473, R559), module reset (R505, R562), start-up (R517 to R520) and the management controllers (R474, R475, R508, R535):
what each event comes to where it acts. -/

namespace Sys2Proof.Machine

open Sys2Proof

/-! ### What an event of the log leaves alone (R501, R502) -/

/-- A field of another register than the one put reads as before. -/
theorem Chip.rget_rput_other (c : Chip) {b b' : Nat} {f g : Fld} (v : Nat) (h : b' + g.off ≠ b + f.off) :
    (c.rput b f v).rget b' g = c.rget b' g := by
  rw [Chip.rget, Chip.reg_rput_ne c b f v _ h, Chip.rget]

/-- Fields are not read from the log. -/
theorem Chip.rget_withLog (c : Chip) (l : LogSt) (b : Nat) (f : Fld) : ({ c with log := l } : Chip).rget b f = c.rget b f :=
  Chip.rget_congr (d := { c with log := l }) (show c.regs = c.regs from rfl) b f

/-- An event that enters the log changes no register outside the block of the management controllers. -/
theorem Chip.rget_logEvent_outside (c : Chip) (code sev unit half inst addr value : Nat) {b : Nat} {g : Fld}
    (h : b + g.off < MGT ∨ MGT + 0x1000 ≤ b + g.off) : (c.logEvent code sev unit half inst addr value).rget b g = c.rget b g := by
  have hput : ∀ (d : Chip) (f : Fld) (v : Nat), f.off < 0x1000 → (d.rput MGT f v).rget b g = d.rget b g :=
    fun d f v hf => Chip.rget_rput_other d v (by omega)
  have hnext : MGT_LOG_NEXT_NEXT.off < 0x1000 := by decide
  have hevents : MGT_EVENTS.off < 0x1000 := by decide
  have hpending : MGT_ALERT_PENDING.off < 0x1000 := by decide
  have halert : MGT_STATUS_ALERT.off < 0x1000 := by decide
  unfold Chip.logEvent Chip.rcount
  dsimp only
  split
  · rw [hput _ _ _ halert, hput _ _ _ hpending, hput _ _ _ hevents, hput _ _ _ hnext, Chip.rget_withLog]
  · rw [hput _ _ _ hevents, hput _ _ _ hnext, Chip.rget_withLog]

section
variable {c : Chip}

/-! ### Standby -/

/-- Standby brings up rail 1 and boots both controllers from the recorded slot (R472, R474). -/
theorem standbyAppliedStep_of_absent (hstandby : c.hedge.standby = false) (halt : c.rget START MGT_STRAP_FW_ALT = 0) :
    standbyAppliedStep c = stileCheck { c.rput MGT MGT_FW_MC_RUN c.hedge.fwRec with
      hedge := { c.hedge with standby := true, step := 1, booting := [true, true], mcs := [false, false] },
      fab := { c.fab with withdrawn := false } } := by
  simp only [standbyAppliedStep, hstandby, halt, Bool.false_eq_true, if_false]
  rfl

/-- Standby lost with the rails down leaves what the non-volatile record keeps (R474). -/
theorem standbyLostStep_of_down (mv : Nat) (hstandby : c.hedge.standby = true) (hstep : c.hedge.step ≤ 1) (hrising : c.hedge.rising = false) :
    standbyLostStep mv c = standbyGone c := by
  rw [standbyLostStep, if_neg (by simp [hstandby]), if_neg (by simp [hrising, hstep])]

/-- Standby lost with rails up is recorded (R559). -/
theorem standbyLostStep_of_up (mv : Nat) (hstandby : c.hedge.standby = true) (hstep : c.hedge.step > 1) :
    standbyLostStep mv c = standbyGone (c.logEvent 0x0045 3 0x12 0xFF 0 mv 2) := by
  rw [standbyLostStep, if_neg (by simp [hstandby]), if_pos (by simp [hstep])]

/-- Standby good for 10 ms with PWR_EN low. -/
theorem standbyGoodFor10MsStep_of_low (mv : Nat) (hstandby : c.hedge.standby = true) (hgood : c.hedge.good = false)
    (hlow : c.hedge.pwrEn = false) : standbyGoodFor10MsStep mv c = { c with hedge := { c.hedge with good := true } } := by
  rw [standbyGoodFor10MsStep, if_neg (by simp [hstandby, hgood])]
  exact if_neg (by simp [hlow])

/-! ### PWR_EN (R472, R494, R559) -/

/-- The module with PWR_EN high. -/
def Chip.pwrEnHigh (c : Chip) : Chip := { c with hedge := { c.hedge with pwrEn := true } }

section
variable {mv : Nat} (hlow : c.hedge.pwrEn = false) (hstandby : c.hedge.standby = true) (hhold : c.log.hold4 = false)
include hlow hstandby hhold

/-- What the rising edge of PWR_EN comes to, with standby and no hold of ALERT_N. -/
theorem pwrEnRiseStep_eq : let d := c.pwrEnHigh
    pwrEnRiseStep mv c = if !c.hedge.good then refuse 1 mv d
      else if mv < 40000 || mv > 59000 then refuse 2 mv d
      else if c.hedge.lock && !cool d then refuse 3 mv d
      else if c.hedge.falling then refuse 4 mv d
      else railsStart d := by
  intro d
  have hend : endHold4 d = d := by
    rw [endHold4]
    exact if_neg (by rw [show d.log.hold4 = c.log.hold4 from rfl, hhold]; decide)
  rw [pwrEnRiseStep, if_neg (by simp [hlow])]
  refine (if_neg (by simp [hstandby])).trans ?_
  exact congrArg (fun e : Chip => if !e.hedge.good then refuse 1 mv e else if mv < 40000 || mv > 59000 then refuse 2 mv e
    else if e.hedge.lock && !cool e then refuse 3 mv e else if e.hedge.falling then refuse 4 mv e else railsStart e) hend

/-- The rails start. -/
theorem pwrEnRiseStep_of_fit (hgood : c.hedge.good = true) (hmin : 40000 ≤ mv) (hmax : mv ≤ 59000)
    (hcool : c.hedge.lock = false ∨ cool c = true) (hfalling : c.hedge.falling = false) :
    pwrEnRiseStep mv c = railsStart c.pwrEnHigh := by
  have hcool' : (c.hedge.lock && !cool c.pwrEnHigh) = false := by
    obtain hlock | hcool := hcool
    · rw [hlock, Bool.false_and]
    · rw [show cool c.pwrEnHigh = cool c from rfl, hcool, Bool.not_true, Bool.and_false]
  simp only [pwrEnRiseStep_eq hlow hstandby hhold, hgood, hcool', hfalling, gt_iff_lt, Nat.not_lt.2 hmin, Nat.not_lt.2 hmax, decide_false,
    Bool.or_self, Bool.not_true, Bool.false_eq_true, if_false]

/-- Standby that is not good refuses the edge. -/
theorem pwrEnRiseStep_of_notGood (hgood : c.hedge.good = false) :
    pwrEnRiseStep mv c = refuse 1 mv c.pwrEnHigh := by
  simp only [pwrEnRiseStep_eq hlow hstandby hhold, hgood, Bool.not_false, if_true]

/-- An input out of its range refuses the edge. -/
theorem pwrEnRiseStep_of_input (hgood : c.hedge.good = true) (hrange : mv < 40000 ∨ 59000 < mv) :
    pwrEnRiseStep mv c = refuse 2 mv c.pwrEnHigh := by
  have hout : (decide (mv < 40000) || decide (mv > 59000)) = true := by simpa using hrange
  simp only [pwrEnRiseStep_eq hlow hstandby hhold, hgood, hout, Bool.not_true, Bool.false_eq_true, if_false, if_true]

/-- A trip lockout refuses the edge until the sensors are cool. -/
theorem pwrEnRiseStep_of_lockout (hgood : c.hedge.good = true) (hmin : 40000 ≤ mv) (hmax : mv ≤ 59000) (hlock : c.hedge.lock = true)
    (hcool : cool c.pwrEnHigh = false) :
    pwrEnRiseStep mv c = refuse 3 mv c.pwrEnHigh := by
  simp only [pwrEnRiseStep_eq hlow hstandby hhold, hgood, hlock, hcool, gt_iff_lt, Nat.not_lt.2 hmin, Nat.not_lt.2 hmax, decide_false,
    Bool.or_self, Bool.not_true, Bool.not_false, Bool.and_self, Bool.false_eq_true, if_false, if_true]

/-- Rails that still fall refuse the edge. -/
theorem pwrEnRiseStep_of_falling (hgood : c.hedge.good = true) (hmin : 40000 ≤ mv) (hmax : mv ≤ 59000) (hlock : c.hedge.lock = false)
    (hfalling : c.hedge.falling = true) : pwrEnRiseStep mv c = refuse 4 mv c.pwrEnHigh := by
  simp only [pwrEnRiseStep_eq hlow hstandby hhold, hgood, hlock, hfalling, gt_iff_lt, Nat.not_lt.2 hmin, Nat.not_lt.2 hmax, decide_false,
    Bool.or_self, Bool.not_true, Bool.false_and, Bool.false_eq_true, if_false, if_true]

end

/-! ### Rails that come down (R473, R559) -/

section
variable (hstandby : c.hedge.standby = true) (hstep : 1 < c.hedge.step)
include hstandby hstep

/-- The fall of PWR_EN brings the rails down. -/
theorem pwrEnFallStep_of_up :
    pwrEnFallStep c = railsFall 1 { c with hedge := { c.hedge with pwrEn := false, told := false, trip := false } } :=
  if_neg (by simp [hstandby, hstep])

/-- A fault of the main input brings the rails down. -/
theorem mainInputFaultStep_of_up (mv : Nat) (hfalling : c.hedge.falling = false) :
    mainInputFaultStep mv c = railsFall 1 (alertNow (c.logEvent 0x0045 3 0x12 0xFF 0 mv 1)) :=
  if_neg (by simp [hstandby, hstep, hfalling])

/-- A rail fault brings the rails down. -/
theorem railTrouble_of_up (rail mv : Nat) :
    railTrouble rail mv c = railsFall 1 ((c.logEvent 0x0040 4 0x12 0xFF 0 rail mv).rput PWR PWR_ERR_RAIL_FAULT 1) :=
  if_neg (by simp [hstandby, hstep])

end

/-- A step of rails that is good lets the next ramp, before the optics (R472). -/
theorem railStepGoodStep_of_rising (hrising : c.hedge.rising = true) (hstep : c.hedge.step < 8) : railStepGoodStep c =
    tryFuses { c with hedge := { c.hedge with step := c.hedge.step + 1, rising := decide (c.hedge.step + 1 < 9) } } := by
  rw [railStepGoodStep, if_neg (by simp [hrising]; omega)]
  exact if_neg (by omega)

/-- A step of rails that has fallen lets the next fall (R473). -/
theorem railStepDownStep_of_falling (hfalling : c.hedge.falling = true) (hfloor : c.hedge.floor < c.hedge.step) : railStepDownStep c =
    { c with hedge := { c.hedge with step := c.hedge.step - 1, falling := decide (c.hedge.floor < c.hedge.step - 1) } } := by
  have hmax : max c.hedge.floor (c.hedge.step - 1) = c.hedge.step - 1 := by omega
  rw [railStepDownStep, if_neg (by simp [hfalling]), hmax]

/-! ### MOD_RESET_N (R505, R562) -/

/-- MOD_RESET_N low holds a module reset with the rails kept up. -/
theorem modResetAssertStep_of_up (hhigh : c.hedge.resetHigh = true) (hstandby : c.hedge.standby = true) (hfalling : c.hedge.falling = false)
    (htrip : c.hedge.trip = false) (hstep : 1 < c.hedge.step) :
    modResetAssertStep c = setPhase 1 (moduleReset { c with hedge := { c.hedge with resetHigh := false } }) := by
  have hphase : (c.hedge.falling || (decide (c.hedge.step ≤ 1) && !c.hedge.rising) || c.hedge.trip) = false := by
    simp [hfalling, htrip, hstep]
  rw [modResetAssertStep, if_neg (by simp [hhigh])]
  refine (if_neg (by simp [hstandby])).trans ?_
  exact congrArg (setPhase · _) (if_neg (by simp only [hphase, Bool.false_eq_true, not_false_eq_true]))

/-- MOD_RESET_N high latches the straps, and start-up runs from FUSES. -/
theorem modResetReleaseStep_of_low {v : Nat} (hv : v < 256) (hlow : c.hedge.resetHigh = false) :
    let d : Chip := ({ c with hedge := { c.hedge with resetHigh := true } } : Chip).setReg (START + MGT_STRAP_PCX0_ROLE.off) (BitVec.ofNat 64 v)
    modResetReleaseStep v c = tryFuses (stileCheck ((d.rput (PCX 0) PCX_STATUS_ROLE (d.rget START MGT_STRAP_PCX0_ROLE)).rput (PCX 1)
      PCX_STATUS_ROLE (d.rget START MGT_STRAP_PCX1_ROLE))) := by
  rw [modResetReleaseStep, if_neg (by simp [hlow]), Nat.mod_eq_of_lt hv]

/-! ### Start-up (R517, R520, R535) -/

/-- A unit whose running image is verified is loaded from it. -/
theorem loadUnit_of_running {u : Nat} (hok : slotOk c u (c.rget MGT (runFld u)) = true) : loadUnit u c = (true, c) := if_pos hok

/-- A unit with no verified image is not loaded. -/
theorem loadUnit_of_none {u : Nat} (hrunning : slotOk c u (c.rget MGT (runFld u)) = false)
    (hother : slotOk c u (1 - c.rget MGT (runFld u)) = false) : loadUnit u c = (false, c.logEvent 0x0001 3 0x11 0xFF u u 0) := by
  rw [loadUnit, hrunning, hother]
  rfl

section
variable (hphase : phase c = 2) (hgo : stopped c = false)
include hphase hgo

/-- Phase FUSES loads both units' images, or stops. -/
theorem fusesDoneStep_eq : fusesDoneStep c = if (loadUnit 1 c).1 && (loadUnit 2 (loadUnit 1 c).2).1
    then setPhase 3 (loadUnit 2 (loadUnit 1 c).2).2 else stopStart (loadUnit 2 (loadUnit 1 c).2).2 :=
  if_neg (by simp [hphase, hgo])

/-- Start-up goes on from FUSES when the images load. -/
theorem fusesDoneStep_of_loaded (h1 : slotOk c 1 (c.rget MGT (runFld 1)) = true) (h2 : slotOk c 2 (c.rget MGT (runFld 2)) = true) :
    fusesDoneStep c = setPhase 3 c := by
  rw [fusesDoneStep_eq hphase hgo, loadUnit_of_running h1, loadUnit_of_running h2]
  rfl

/-- Start-up stops in FUSES when a unit has no verified image. -/
theorem fusesDoneStep_of_none (h1 : slotOk c 1 (c.rget MGT (runFld 1)) = true) (h20 : slotOk c 2 0 = false) (h21 : slotOk c 2 1 = false)
    (hrun : c.rget MGT (runFld 2) < 2) : let d := c.logEvent 0x0001 3 0x11 0xFF 2 2 0
    fusesDoneStep c = (d.rput START MGT_START_STOP_PHASE 2).rput START MGT_START_STOPPED 1 := by
  intro d
  have hnone : loadUnit 2 c = (false, d) := by
    obtain hrun | hrun : c.rget MGT (runFld 2) = 0 ∨ c.rget MGT (runFld 2) = 1 := by omega
    · exact loadUnit_of_none (by rw [hrun, h20]) (by rw [hrun, h21])
    · exact loadUnit_of_none (by rw [hrun, h21]) (by rw [hrun, h20])
  have hphase' : phase d = 2 := (Chip.rget_logEvent_outside c _ _ _ _ _ _ _ (by decide)).trans hphase
  rw [fusesDoneStep_eq hphase hgo, loadUnit_of_running h1, hnone, stopStart, hphase']
  rfl

end

/-- The Balk modules and the engines have been tested. -/
theorem logicBistDoneStep_of_phase (l : List Part) (hphase : phase c = 3) (hgo : stopped c = false) : logicBistDoneStep l c =
    bistDone l 4 ([0, 1].foldl (fun c n => c.rput (BLK n) BLK_STATUS_ACTIVE (20 - balkLost c)) c) :=
  if_neg (by simp [hphase, hgo])

/-- No part that failed and Balk modules enough: the Seedbeds are clear, and the devices start to train. -/
theorem sramBistDoneStep_of_clean (hphase : phase c = 4) (hgo : stopped c = false) (hbalk : balkLost c = 0) :
    let d := setPhase 5 { c with sbd := [], sbdBad := [], sbdSlip := [], sbdPoison := [] }
    sramBistDoneStep [] c =
      allDevs.foldl (fun c k => if c.srv.devOut.contains k then c else devPut k INF_STATUS_STATE OUT_STATUS_STATE 1 c) d := by
  intro d
  have hbist : bistDone [] 5 { c with sbd := [], sbdBad := [], sbdSlip := [], sbdPoison := [] } = d := by
    have hnone : ¬ (bistStops [] { c with sbd := [], sbdBad := [], sbdSlip := [], sbdPoison := [] } || decide (balkLost c > 0)) = true := by
      simp [bistStops, hbalk]
    exact if_neg hnone
  have hgo' : stopped d = false :=
    (congrArg (· == 1) (Chip.rget_rput_apart _ START (f := MGT_START_PHASE) (g := MGT_START_STOPPED) 5 (by decide))).trans hgo
  rw [sramBistDoneStep, if_neg (by simp [hphase, hgo])]
  simp only [hbist, hgo', Bool.false_eq_true, if_false]

section
variable {d : MemDev} (hgo : stopped c = false) (hin : c.srv.devOut.contains (devKey d) = false)
include hgo hin

/-- A device in service that has been trained starts to fill. -/
theorem deviceTrainedStep_of_untrained (hphase : phase c = 5) (hnew : c.hedge.trained.contains (devKey d) = false) :
    let t := ((c.hedge.memT.find? (fun x => x.1 == devKey d)).map (fun x => x.2)).getD 0
    deviceTrainedStep d c = devicesCheck (setTrain ⟨devKey d, t, false⟩
      { c with hedge := { c.hedge with trained := insertNat (devKey d) c.hedge.trained } }) := by
  have hrun : ¬ (decide (phase c ≠ 5) || stopped c || c.srv.devOut.contains (devKey d) || c.hedge.trained.contains (devKey d)) = true := by
    rw [hphase, hgo, hin, hnew]; decide
  exact if_neg hrun

/-- A trained device in service that has been filled is in service. -/
theorem deviceFilledStep_of_trained (hphase : phase c = 5 ∨ phase c = 6) (htrained : c.hedge.trained.contains (devKey d) = true)
    (hnew : c.hedge.filled.contains (devKey d) = false) : deviceFilledStep d c = devicesCheck
      (devPut (devKey d) INF_STATUS_STATE OUT_STATUS_STATE 2 { c with hedge := { c.hedge with filled := insertNat (devKey d) c.hedge.filled } }) := by
  have hrun : ¬ ((decide (phase c ≠ 5) && phase c != 6) || stopped c || c.srv.devOut.contains (devKey d) ||
      !c.hedge.trained.contains (devKey d) || c.hedge.filled.contains (devKey d)) = true := by
    rw [hgo, hin, htrained, hnew]
    obtain hphase | hphase := hphase <;> rw [hphase] <;> decide
  exact if_neg hrun

end

/-! ### The management controllers (R474, R475, R508, R535) -/

section
variable {n : Nat} (hstandby : c.hedge.standby = true)
include hstandby

section
variable (hbooting : nth c.hedge.booting n false = true) (hdown : mcUp c n = false)
include hbooting hdown

/-- A controller that has booted is up; the lead logs the refusals that wait. -/
theorem managementControllerBootStep_of_booting : managementControllerBootStep n c =
    if c.rget PWR PWR_MGR_LEAD = n then
      tryFuses (logRefusals { mcStart n c with hedge := { (mcStart n c).hedge with beat := c.time } }) else mcStart n c :=
  if_neg (by simp [hstandby, hbooting, hdown])

/-- A controller that has restarted as follower is up. -/
theorem mcRestartDoneStep_of_follower (hact : c.hedge.act = none) (hlead : c.rget PWR PWR_MGR_LEAD ≠ n) : mcRestartDoneStep n c = mcStart n c := by
  have hfollower : ¬ (mcStart n c).rget PWR PWR_MGR_LEAD = n := hlead
  have hidle : (mcStart n c).hedge.act = none := hact
  rw [mcRestartDoneStep, if_neg (by simp [hstandby, hbooting, hdown])]
  simp only [if_neg hfollower, actNext, hidle]

/-- The other slot, where it is verified, is booted and recorded. -/
theorem mcBootFallbackStep_of_verified (hok : slotOk c 0 (1 - c.rget MGT MGT_FW_MC_RUN) = true) :
    let d := (c.rput MGT MGT_FW_MC_RUN (1 - c.rget MGT MGT_FW_MC_RUN)).rcount MGT MGT_MC_RESETS 1
    mcBootFallbackStep n c =
      ({ d with hedge := { c.hedge with fwRec := 1 - c.rget MGT MGT_FW_MC_RUN } } : Chip).logEvent 0x0050 3 0x11 n 0 n 2 :=
  if_neg (by simp [hstandby, hbooting, hdown, hok])

end

/-- A controller other than the lead that resets boots again. -/
theorem mcReset_of_follower (cause : Nat) (hup : mcUp c n = true) (hlead : c.rget PWR PWR_MGR_LEAD ≠ n) :
    let d : Chip := { c with hedge := { c.hedge with mcs := setNth c.hedge.mcs n false, booting := setNth c.hedge.booting n true } }
    mcReset n cause c = (d.rcount MGT MGT_MC_RESETS 1).logEvent 0x0050 3 0x11 n 0 n cause := by
  intro d
  have hlead' : ((d.rcount MGT MGT_MC_RESETS 1).logEvent 0x0050 3 0x11 n 0 n cause).rget PWR PWR_MGR_LEAD ≠ n := by
    rw [Chip.rget_logEvent_outside _ _ _ _ _ _ _ _ (by decide), Chip.rcount, Chip.rget_rput_other _ _ (by decide)]
    exact hlead
  rw [mcReset, if_neg (by simp [hstandby, hup])]
  exact if_pos hlead'

end

/-- The follower takes over when the lead is down or has missed its heartbeats. -/
theorem takeoverStep_of_missed (hstandby : c.hedge.standby = true) (hup : mcUp c (1 - c.rget PWR PWR_MGR_LEAD) = true)
    (hmissed : mcUp c (c.rget PWR PWR_MGR_LEAD) = false ∨ c.hedge.beat + 500000 ≤ c.time) :
    takeoverStep c = tryFuses (logRefusals (leadTo (1 - c.rget PWR PWR_MGR_LEAD) c)) :=
  if_pos (by simpa [hstandby, hup] using hmissed)

/-- Outputs held for 2 s take their safe defaults; with no optics supplied the Stile alone changes. -/
theorem outputsSafeDefaultsStep_of_unsupplied (hheld : c.rget MGT MGT_STATUS_OUTPUTS = 1) (hstep : c.hedge.step ≠ 9) :
    outputsSafeDefaultsStep c = stileCheck (c.rput MGT MGT_STATUS_OUTPUTS 2) := by
  rw [outputsSafeDefaultsStep, if_neg (not_not_intro hheld)]
  exact congrArg stileCheck (if_neg hstep)

end

/-- Settles O57: each event comes to what the standby supply, the rails, the phase and the controllers ask. That a controller not in the lead
restarts as follower, and what is kept without standby, is the model's choice (log entries 13 to 15). -/
theorem startUpCommandsAct : Obligations.StartUpCommandsAct := by
  intro s c h
  refine ⟨fun hwf hstandby halt => ?applied, fun mv hwf hstandby hstep hrising => ?lostDown, fun mv hwf hstandby hstep => ?lostUp,
    fun mv hwf hstandby hgood hlow => ?good, ?rise, ?fall, fun hwf hrising hstep => ?stepGood, fun hwf hfalling hfloor => ?stepDown,
    fun hwf hhigh hstandby hfalling htrip hstep => ?assert, fun v hwf hlow => ?release, fun hwf hphase hgo => ?fuses,
    fun l hwf hphase hgo => ?logic, fun hwf hphase hgo hbalk => ?sram, fun d hgo hin => ?device, ?boot, ?reset,
    fun hwf hlead => ?heartbeat, fun hwf hstandby hup hmissed => ?takeover, fun hwf hheld hstep => ?outputs⟩
  case applied => exact gives_of_run rfl hwf (standbyAppliedStep_of_absent hstandby halt)
  case lostDown => exact gives_of_run rfl hwf (standbyLostStep_of_down mv hstandby hstep hrising)
  case lostUp => exact gives_of_run rfl hwf (standbyLostStep_of_up mv hstandby hstep)
  case good => exact gives_of_run rfl hwf (standbyGoodFor10MsStep_of_low mv hstandby hgood hlow)
  case rise =>
    intro mv hwf hlow hstandby hhold d
    refine ⟨fun hgood hmin hmax hcool hfalling => ?fit, fun hgood => ?notGood, fun hgood hrange => ?input,
      fun hgood hmin hmax hlock hcool => ?lockout, fun hgood hmin hmax hlock hfalling => ?falling⟩
    case fit => exact gives_of_run rfl hwf (pwrEnRiseStep_of_fit hlow hstandby hhold hgood hmin hmax hcool hfalling)
    case notGood => exact gives_of_run rfl hwf (pwrEnRiseStep_of_notGood hlow hstandby hhold hgood)
    case input => exact gives_of_run rfl hwf (pwrEnRiseStep_of_input hlow hstandby hhold hgood hrange)
    case lockout => exact gives_of_run rfl hwf (pwrEnRiseStep_of_lockout hlow hstandby hhold hgood hmin hmax hlock hcool)
    case falling => exact gives_of_run rfl hwf (pwrEnRiseStep_of_falling hlow hstandby hhold hgood hmin hmax hlock hfalling)
  case fall =>
    intro hstandby hstep log
    refine ⟨fun hwf => ?pwrEn, fun mv hwf hfalling => ?main, fun r mv hwf hrising => ?sequence, fun r mv hwf => ?rail⟩
    case pwrEn => exact gives_of_run rfl hwf (pwrEnFallStep_of_up hstandby hstep)
    case main => exact gives_of_run rfl hwf (mainInputFaultStep_of_up hstandby hstep mv hfalling)
    case sequence =>
      exact gives_of_run (f := sequenceFaultStep r mv) rfl hwf ((if_pos hrising).trans (railTrouble_of_up hstandby hstep r mv))
    case rail => exact gives_of_run rfl hwf (railTrouble_of_up hstandby hstep r mv)
  case stepGood => exact gives_of_run rfl hwf (railStepGoodStep_of_rising hrising hstep)
  case stepDown => exact gives_of_run rfl hwf (railStepDownStep_of_falling hfalling hfloor)
  case assert => exact gives_of_run rfl hwf (modResetAssertStep_of_up hhigh hstandby hfalling htrip hstep)
  case release => exact gives_of_run rfl hwf (modResetReleaseStep_of_low (of_decide_eq_true hwf) hlow)
  case fuses =>
    exact ⟨fun h1 h2 => gives_of_run rfl hwf (fusesDoneStep_of_loaded hphase hgo h1 h2),
      fun h1 h20 h21 hrun => gives_of_run rfl hwf (fusesDoneStep_of_none hphase hgo h1 h20 h21 hrun)⟩
  case logic => exact gives_of_run rfl hwf (logicBistDoneStep_of_phase l hphase hgo)
  case sram => exact gives_of_run rfl hwf (sramBistDoneStep_of_clean hphase hgo hbalk)
  case device =>
    exact ⟨fun hwf hphase hnew => gives_of_run rfl hwf (deviceTrainedStep_of_untrained hgo hin hphase hnew),
      fun hwf hphase htrained hnew => gives_of_run rfl hwf (deviceFilledStep_of_trained hgo hin hphase htrained hnew)⟩
  case boot =>
    intro n _ hstandby hbooting hdown up lead
    exact ⟨fun hwf => gives_of_run rfl hwf (managementControllerBootStep_of_booting hstandby hbooting hdown),
      fun hwf hact hlead => gives_of_run rfl hwf (mcRestartDoneStep_of_follower hstandby hbooting hdown hact hlead),
      fun hwf hok => gives_of_run rfl hwf (mcBootFallbackStep_of_verified hstandby hbooting hdown hok)⟩
  case reset =>
    intro n _ hstandby hup hlead d down
    exact ⟨fun hwf => gives_of_run rfl hwf (mcReset_of_follower hstandby 1 hup hlead),
      fun x hwf => gives_of_run rfl hwf (mcReset_of_follower hstandby x hup hlead)⟩
  case heartbeat => exact gives_of_run (f := heartbeatStep) rfl hwf (if_pos hlead)
  case takeover => exact gives_of_run rfl hwf (takeoverStep_of_missed hstandby hup hmissed)
  case outputs => exact gives_of_run rfl hwf (outputsSafeDefaultsStep_of_unsupplied hheld hstep)

end Sys2Proof.Machine

/-! The machine: a step takes the command in front (log entry 1), every command is an effect on the module and what follows it (log entry 2),
an idle step is a period of the crystal (R12, R466, R467), and the reset state reads as the register tables say (chapter 22). -/

namespace Sys2Proof.Machine

open Sys2Proof

/-! ### Commands -/

/-- A step with a command in front is that command, on the rest. -/
theorem step_of_cons (i : Instr) (rest : List Instr) (s : State) :
    step { s with pending := i :: rest } = exec i { s with pending := rest } := rfl

/-- A step with no command in front is a period of the crystal. -/
theorem step_of_nil (s : State) (h : s.pending = []) : step s = .next { s with toChip := s.toChip.tick.canon } := by
  rw [step, h]

/-- Every command is run as an effect on the module: its arm of the dispatch names the effect. -/
theorem exec_eq_run (i : Instr) (s : State) : ∃ f, exec i s = s.run i f := by
  cases i <;> exact ⟨_, rfl⟩

/-! ### An idle step -/

/-- With nothing slewed, a period of the crystal is 40 ns of fabric time and nothing else (R466). -/
theorem timeTick_of_steady (c : Chip) (hrate : c.fab.rate = 0) (hleft : c.fab.left = 0) (hfrac : c.fab.frac = 0) :
    timeTick c = { c with time := (c.time + 40) % 2 ^ 64 } := by
  have hfab : ({ c.fab with frac := 0, left := 0, rate := 0 } : FabSt) = c.fab :=
    calc ({ c.fab with frac := 0, left := 0, rate := 0 } : FabSt)
        = { c.fab with frac := c.fab.frac, left := c.fab.left, rate := c.fab.rate } := by rw [hrate, hleft, hfrac]
      _ = c.fab := rfl
  simp only [timeTick, hrate, hleft, hfrac]
  exact congrArg (fun f : FabSt => ({ c with time := (c.time + 40) % 2 ^ 64, fab := f } : Chip)) hfab

/-- A port with no posted write waiting stores none. -/
theorem drainSome_of_none (p : Nat) (c : Chip) (h : (c.port p).posted = []) : drainSome p c = c := by
  rw [drainSome, h, List.foldl_nil]

/-- Two modules that differ in registers of a list only, and a third that differs in another register of it. -/
theorem OnlyRegs.rput {l : List Nat} {a b : Chip} (h : OnlyRegs l a b) (base : Nat) (f : Fld) (v : Nat) (hf : base + f.off ∈ l) :
    OnlyRegs l a (b.rput base f v) := by
  obtain ⟨hb, hreg⟩ := h
  refine ⟨?_, fun o ho => ?_⟩
  · calc b.rput base f v = { b with regs := (b.rput base f v).regs } := rfl
      _ = { a with regs := (b.rput base f v).regs } := by rw [hb]
  · rw [Chip.reg_rput_ne b base f v o fun e => ho (e ▸ hf), hreg o ho]

/-- Nothing done leaves every register. -/
theorem OnlyRegs.refl (l : List Nat) (a : Chip) : OnlyRegs l a a := ⟨rfl, fun _ _ => rfl⟩

/-- Where no posted write waits, the cycle counters are all that a period advances besides time (R12). -/
theorem tick_of_none_posted (c : Chip) (hport0 : ((timeTick c).port 0).posted = []) (hport1 : ((timeTick c).port 1).posted = []) :
    OnlyRegs [HALF 0 + MOD_HALF_CYCLES_CYCLES.off, HALF 1 + MOD_HALF_CYCLES_CYCLES.off] (timeTick c) c.tick := by
  rw [Chip.tick, drainSome_of_none 0 _ hport0, drainSome_of_none 1 _ hport1]
  split
  · exact ((OnlyRegs.refl _ _).rput _ _ _ (by simp)).rput _ _ _ (by simp)
  · exact OnlyRegs.refl _ _

/-! ### Reset -/

/-- The reset values of the module's own registers. -/
theorem reset_reads_module : let c := State.reset.toChip
    c.rget MOD MOD_STATUS_READY = 0 ∧ c.rget MOD MOD_CFG_EPOCH_CURRENT = 1 ∧ c.rget MOD MOD_CFG_EPOCH_PREVIOUS = 0 ∧
    c.rget MOD MOD_SRV_POLICY_BUDGET = 30 ∧ c.rget MOD MOD_SRV_POLICY_ENABLE = 1 ∧ c.rget MOD MOD_SRV_POLICY_PERIOD = 10 ∧
    c.rget MOD MOD_XLT_CTL_DEF_TIMEOUT = 1000 ∧ c.rget PWR PWR_LIMIT_LIMIT = 2400 ∧ c.rget PWR PWR_LIMIT_FIXED_FREQ = 1 ∧
    c.rget PWR PWR_GRID_RAMP = 20 ∧ c.rget PWR PWR_STATUS_ASLEEP = 1 ∧ c.rget PWR PWR_OPTICS_CTL_ON = 0x1FF ∧
    c.rget MGT MGT_CTL_ALERT_SEV = 3 ∧ c.rget AIH AIH_NODE_ID_NODE = 0xFFFFFF := by decide

/-- The reset values of the registers of the halves' blocks. -/
theorem reset_reads_halves (h : Nat) (hh : h < 2) : let c := State.reset.toChip
    c.rget (FUR h) FUR_CTL_IDLE_STOP = 50 ∧ c.rget (HAR h 15) HAR_CTL_IDLE_GATE = 20 ∧ c.rget (DRL h 63) DRL_CTL_IDLE_GATE = 20 ∧
    c.rget (INF h 5) INF_CTL_SCRUB_HOURS = 12 ∧ c.rget (OUT h 47) OUT_CTL_SR_IDLE = 10 ∧ c.rget (YOK h) YOK_CTL_VEC_OPEN_BASE = 0x4000 ∧
    c.rget (HST h 35) HST_CTL_GATE_IDLE = 100 ∧ c.rget (SYC h 15) SYC_CTL_STREAM_THRESH = 16 ∧ c.rget (PCX h) PCX_OWN_CTX_LO = 0xFFFF := by
  match h, hh with
  | 0, _ => decide
  | 1, _ => decide

/-- Nothing waits at reset. -/
theorem reset_quiet : State.reset.toChip.quiet = true := by decide

/-! ### The obligations -/

/-- Settles O1: the model's step, for a queue with a front. -/
theorem stepRunsTheFrontCommand : Obligations.StepRunsTheFrontCommand := step_of_cons

/-- Settles O2: with an empty queue the step is Chip.tick, whose drains and slew do nothing in the steady module. -/
theorem idleStepIsAClockPeriod : Obligations.IdleStepIsAClockPeriod := fun s hpending =>
  ⟨step_of_nil s hpending, fun hrate hleft hfrac hport0 hport1 =>
    timeTick_of_steady s.toChip hrate hleft hfrac ▸ tick_of_none_posted s.toChip hport0 hport1⟩

/-- Settles O3: each arm of the dispatch is one run of an effect, and a run answers a canonical state exactly for a well-formed command. -/
theorem wellFormedCommandsAnswer : Obligations.WellFormedCommandsAnswer := by
  intro i s
  obtain ⟨f, hexec⟩ := exec_eq_run i s
  rw [hexec]
  exact ⟨fun hwf => ⟨_, State.run_wf s i f hwf, rfl, Chip.wf_after _⟩, State.run_ill s i f⟩

/-- Settles O5, by evaluating the reset state. -/
theorem resetMeetsTheTables : Obligations.ResetMeetsTheTables := by
  obtain ⟨h1, h2, h3, h4, h5, h6, h7, h8, h9, h10, h11, h12, h13, h14⟩ := reset_reads_module
  exact ⟨reset_wf, rfl, reset_quiet, h1, h2, h3, h4, h5, h6, h7, h8, h9, h10, h11, h12, h13, h14, reset_reads_halves⟩

end Sys2Proof.Machine

/-! A write stored in a register (R6, R8, R540): what each field keeps and takes, one field after another. -/

namespace Sys2Proof.Machine

open Sys2Proof

/-- The bits of a field inside 64 bits are those of the register's word. -/
theorem bits_toNat_ofNat (n lo w : Nat) (h : lo + w ≤ 64) : bits (BitVec.ofNat 64 n).toNat lo w = bits n lo w := by
  apply Nat.eq_of_testBit_eq
  intro i
  rw [testBit_bits, testBit_bits, BitVec.toNat_ofNat, Nat.testBit_mod_two_pow]
  by_cases hi : i < w
  · simp [show i + lo < 64 by omega]
  · simp [hi]

/-- What a field of value `old` holds after a write that gives it the bits `new` (R6, R8). -/
def fieldAfter (b : Block) (o : Nat) (lock : Bool) (f : RegField) (old new : Nat) : Nat :=
  match f.acc with
  | .rw => if isLock b o f.lo = true ∧ old = 1 then 1 % 2 ^ f.w else new
  | .w1c => old &&& (2 ^ f.w - 1 - new)
  | .rwl => if lock then old else new
  | _ => old

/-- A field that takes a write holds what its access says. -/
theorem bits_takeField_self (b : Block) (o : Nat) (lock : Bool) (v x : Nat) (f : RegField) :
    bits (takeField b o lock v x f) f.lo f.w = fieldAfter b o lock f (bits x f.lo f.w) (bits v f.lo f.w) := by
  have hnew := Nat.mod_eq_of_lt (bits_lt v f.lo f.w)
  have hkept := fun m => Nat.mod_eq_of_lt (Nat.lt_of_le_of_lt (Nat.and_le_left (m := m)) (bits_lt x f.lo f.w))
  unfold takeField fieldAfter
  cases f.acc with
  | ro | wo | hwi => rfl
  | w1c => simp only [bits_setBits_self, hkept]
  | rwl => cases lock with
    | true => rfl
    | false => simp only [bits_setBits_self, hnew, Bool.false_eq_true, if_false]
  | rw =>
    simp only [bits_setBits_self, Bool.and_eq_true, beq_iff_eq]
    split
    · rfl
    · exact hnew

/-- A field that takes a write leaves a field that it does not meet. -/
theorem bits_takeField_of_disjoint (b : Block) (o : Nat) (lock : Bool) (v x : Nat) (f g : RegField)
    (h : g.lo + g.w ≤ f.lo ∨ f.lo + f.w ≤ g.lo) : bits (takeField b o lock v x g) f.lo f.w = bits x f.lo f.w := by
  have hset : ∀ n, bits (setBits x g.lo g.w n) f.lo f.w = bits x f.lo f.w := fun n => bits_setBits_of_disjoint _ _ _ _ _ _ h
  unfold takeField
  cases g.acc with
  | ro | wo | hwi => rfl
  | w1c | rw => exact hset _
  | rwl => cases lock with
    | true => rfl
    | false => exact hset _

/-- Fields that take a write leave a field that none of them meets. -/
theorem bits_foldl_takeField_of_disjoint (b : Block) (o : Nat) (lock : Bool) (v : Nat) (f : RegField) (l : List RegField) :
    (∀ g ∈ l, g.lo + g.w ≤ f.lo ∨ f.lo + f.w ≤ g.lo) → ∀ x, bits (l.foldl (takeField b o lock v) x) f.lo f.w = bits x f.lo f.w := by
  induction l with
  | nil => intro _ x; rfl
  | cons g l ih =>
    intro h x
    rw [List.foldl_cons, ih (fun k hk => h k (List.mem_cons_of_mem _ hk)), bits_takeField_of_disjoint _ _ _ _ _ _ _ (h g List.mem_cons_self)]

/-- Of fields that do not meet, each takes what its access says of the value it had. -/
theorem bits_foldl_takeField (b : Block) (o : Nat) (lock : Bool) (v x : Nat) (f : RegField) (l : List RegField) (hf : f ∈ l)
    (hl : l.Pairwise (fun a b => a.lo + a.w ≤ b.lo ∨ b.lo + b.w ≤ a.lo)) :
    bits (l.foldl (takeField b o lock v) x) f.lo f.w = fieldAfter b o lock f (bits x f.lo f.w) (bits v f.lo f.w) := by
  obtain ⟨before, after, rfl⟩ := List.append_of_mem hf
  obtain ⟨_, hafter, hbefore⟩ := List.pairwise_append.mp hl
  obtain ⟨hnext, _⟩ := List.pairwise_cons.mp hafter
  rw [List.foldl_append, List.foldl_cons, bits_foldl_takeField_of_disjoint _ _ _ _ _ after (fun g hg => (hnext g hg).symm),
    bits_takeField_self, bits_foldl_takeField_of_disjoint _ _ _ _ _ before (fun g hg => hbefore g hg f List.mem_cons_self)]

/-- A register set is the only one that changes. -/
theorem onlyRegs_setReg (c : Chip) (o : Nat) (v : Word) : OnlyRegs [o] c (c.setReg o v) :=
  ⟨rfl, fun o' ho => by rw [Chip.reg_setReg, if_neg (List.ne_of_not_mem_cons ho)]⟩

/-- Outside the OUT blocks a write reaches its own register alone. -/
theorem writeStarts_of_ne_out (o : Nat) (p : Place) (r : RegDef) (h : p.blk ≠ .out) : writeStarts o p r = [o] := by
  simp [writeStarts, h]

/-- Settles O48: the register set is the fold of takeField, and the fields do not meet. -/
theorem storedWritesFollowTheAccess : Obligations.StoredWritesFollowTheAccess := by
  intro path o p r v c f hf hblk hdisjoint hwidth old new
  refine ⟨c.setReg o (BitVec.ofNat 64 (r.flds.foldl (takeField p.blk r.off (lockOn c p) v) (c.reg o).toNat)), onlyRegs_setReg c o _, ?_, ?_⟩
  · rw [Chip.reg_setReg, if_pos rfl, bits_toNat_ofNat _ _ _ (hwidth f hf), bits_foldl_takeField _ _ _ _ _ f _ hf hdisjoint]
    rfl
  · rw [regStore, writeStarts_of_ne_out o p r hblk]
    rfl

end Sys2Proof.Machine

/-! The management commands (R491, R505 to R507, R512 to R514, R524 to R533, R544): what each comes to, row by row. -/

namespace Sys2Proof.Machine

open Sys2Proof

section
variable {c : Chip} {k : Carrier} {seq : Nat} {m : Cmd}

/-- A row of the management class, once its command is in execution. -/
theorem mgmtRow_of_control {op : Nat} {f : Cmd → Chip → Chip} (h : control k seq 0xF op c = some m) : mgmtRow k seq op f c = f m c := by
  rw [mgmtRow, h]

/-! ### Registers and limits -/

/-- Before READY only the management region is reached; from READY on, everything (R89, R544). -/
theorem beyondStandby_of_up (m : Cmd) (hup : c.up = true) : beyondStandby m c = false := by
  rw [beyondStandby, hup]
  rfl

/-- REG_WRITE writes its words (R544). -/
theorem regWriteStep_of_up (hc : control k seq 0xF 3 c = some m) (hup : c.up = true) :
    let d := writeWords (carPath k) (m.par 32 8) ((List.range (m.par 40 2)).map (fun i => m.par (64 + 4 * i) 4)) c
    regWriteStep k seq c = finish ((d.findCmd k seq).getD m) doneRes d := by
  rw [regWriteStep, mgmtRow_of_control hc]
  exact if_neg (by simp [beyondStandby_of_up m hup])

/-- LIMIT_SET stores the limits (R76, R491). -/
theorem limitSetStep_of_control (hc : control k seq 0xF 5 c = some m) :
    let d := ((c.rput PWR PWR_LIMIT_LIMIT (m.par 32 4)).rput PWR PWR_LIMIT_FIXED_FREQ (bits (m.par 41 1) 0 1)).rput PWR PWR_GRID_RAMP (m.par 36 4)
    limitSetStep k seq c = finish m doneRes (if m.par 40 1 = 0 then d.rput PWR PWR_GRID_FLOOR_EN 0
      else (d.rput PWR PWR_GRID_FLOOR_PCT (m.par 40 1)).rput PWR PWR_GRID_FLOOR_EN 1) :=
  mgmtRow_of_control hc

/-- STILE_SET stores the order, and the Stile follows (R436). -/
theorem stileSetStep_of_control (hc : control k seq 0xF 0xB c = some m) :
    stileSetStep k seq c = finish m doneRes (stileCheck (c.rput AIH AIH_STILE_ORDERED (m.par 32 1))) :=
  mgmtRow_of_control hc

/-! ### Slice tests -/

/-- A test that its device does not hold and whose spare is free moves its slice's work aside (R524). -/
theorem stDue_of_free {t : SliceTest} (hheld : stHeld t c = false) (hfree : stFree t c = true) : stDue t c = stAside t c := by
  rw [stDue, if_neg (by simp [hheld]), if_neg (by simp [hfree])]

/-- A test with no spare free is over with RESULT 2 in the step that began it (R525). -/
theorem stDue_of_not_free {t : SliceTest} (hheld : stHeld t c = false) (hfree : stFree t c = false) (hnow : c.time = t.at_) :
    stDue t c = stOver t (stReply t ⟨2, 0, 0, 0, 0, 0⟩ c) c := by
  rw [stDue, if_neg (by simp [hheld]), if_pos (by simp [hfree]), hnow, Nat.sub_self]

/-- SELFTEST_SLICE with no test in execution starts one, with its record in the registers (R524, R536). -/
theorem selftestSliceStep_of_none (hc : control k seq 0xF 6 c = some m) (hslice : c.hedge.slice = none) :
    let t : SliceTest := { car := k, seq := seq, kind := m.par 32 1, half := m.par 33 1, index := m.par 34 2, at_ := c.time }
    selftestSliceStep k seq c = stDue t (setSlice t
      (((c.rput START MGT_ST_STATUS_KIND t.kind).rput START MGT_ST_STATUS_HALF t.half).rput START MGT_ST_STATUS_INDEX t.index)) := by
  rw [selftestSliceStep, mgmtRow_of_control hc, hslice]

/-- A test of logic or SRAM that finds nothing gives the slice back, and is over with RESULT 0 (R524, R528). -/
theorem sliceTestEndStep_of_pass {t : SliceTest} (o : SliceOutcome) (hslice : c.hedge.slice = some t) (hbegun : t.begun = true)
    (hback : t.back = none) (hresult : o.result < 2) (hkind : t.kind < 9) (hverdict : stVerdict t.kind { o with result := 0 } = 0) :
    sliceTestEndStep o c = stOver t (stReply t { o with result := 0 } c) (stUndo t c) := by
  unfold sliceTestEndStep
  simp only [hslice]
  rw [if_neg (by simp [hbegun, hback, hresult]), if_neg (by omega)]
  simp only [hverdict, show ((0 : Nat) == 1) = false from rfl, Bool.false_and, Bool.false_eq_true, if_false]

/-! ### SELFTEST_FULL -/

/-- SELFTEST_FULL of a module that is not quiescent is refused (R529). -/
theorem selftestFullStep_of_busy (hc : control k seq 0xF 7 c = some m) (hq : quiescent m c = false) :
    selftestFullStep k seq c = finish m (mkRes sBusy []) c := by
  rw [selftestFullStep, mgmtRow_of_control hc]
  exact if_pos (by simp [hq])

/-- SELFTEST_FULL of a quiescent module writes its record and restarts it (R530). -/
theorem selftestFullStep_of_quiescent (hc : control k seq 0xF 7 c = some m) (hq : quiescent m c = true) {n : Cmd} :
    let d := answer m (fields 8 [(0, 4, c.draw.1)]) c.draw.2
    d.findCmd k seq = some n → selftestFullStep k seq c = fullRestart (retire n (n.res.getD doneRes) d) := by
  intro d hn
  rw [selftestFullStep, mgmtRow_of_control hc]
  refine (if_neg (by simp [hq])).trans ?_
  simp only [show (answer m (fields 8 [(0, 4, c.draw.1)]) c.draw.2).findCmd k seq = some n from hn]
  rfl

/-! ### Firmware -/

/-- FW_STAGE with no image read yet is refused (R533). -/
theorem fwStageStep_of_busy (hc : control k seq 0xF 8 c = some m) (hprog : m.prog = 0) :
    fwStageStep k seq c = finish m (mkRes sBusy []) c := by
  rw [fwStageStep, mgmtRow_of_control hc]
  exact if_pos hprog

/-- FW_STAGE of an image that needs no copy verifies it and marks its slot (R533). -/
theorem fwStageStep_of_in_place (hc : control k seq 0xF 8 c = some m) (hprog : m.prog ≠ 0) (hsrc : m.par 32 8 = 0) :
    let u := m.par 44 1
    let i := m.par 45 1
    let r := fwVerify u i none c
    fwStageStep k seq c =
      answer m (fields 8 [(0, 1, r), (4, 4, fwLe c (2 * u + i) 8 4)]) (if r = 0 then setSlotOk u i 1 c else c) := by
  rw [fwStageStep, mgmtRow_of_control hc]
  refine (if_neg hprog).trans ?_
  simp only [hsrc, ne_eq, not_true_eq_false, decide_false, Bool.false_eq_true, if_false]

/-- FW_ACTIVATE is refused while an activation runs, and for a slot not verified (R512). -/
theorem fwActivateStep_of_busy (hc : control k seq 0xF 9 c = some m)
    (h : c.hedge.act ≠ none ∨ slotOk c (m.par 44 1) (m.par 45 1) = false) : fwActivateStep k seq c = finish m (mkRes sBusy []) c := by
  have hbusy : (c.hedge.act.isSome || !slotOk c (m.par 44 1) (m.par 45 1)) = true := by
    rcases h with h | h
    · rw [Option.isSome_iff_ne_none.mpr h, Bool.true_or]
    · rw [h, Bool.not_false, Bool.or_true]
  rw [fwActivateStep, hc]
  exact if_pos hbusy

/-- The module with an activation of unit 1 or 2 started (R513). -/
def activating (m : Cmd) (c : Chip) : Chip :=
  let u := m.par 44 1
  let d := ((c.rput MGT MGT_FW_ACTIVE 1).rput MGT MGT_FW_ACTIVE_UNIT u).putCmd { m with wait := .activation u }
  { d with hedge := { d.hedge with act := some { car := m.car, seq := m.seq, unit := u, image := m.par 45 1, now := 0 } } }

/-- FW_ACTIVATE of a verified slot starts the activation (R513). -/
theorem fwActivateStep_of_ok (hc : control k seq 0xF 9 c = some m) (hact : c.hedge.act = none)
    (hok : slotOk c (m.par 44 1) (m.par 45 1) = true) (hu : m.par 44 1 ≠ 0) : fwActivateStep k seq c = activating m c := by
  rw [fwActivateStep, hc]
  refine (if_neg (by simp [hact, hok])).trans ?_
  simp only [actStart, hu, if_false]
  rfl

/-- A failure to start takes an activation back (R514). -/
theorem fwActivationFailStep_of_act {a : Activation} (hact : c.hedge.act = some a) (hback : a.back = false) :
    let d := endAct a (mkRes sRetryEx []) (c.logEvent 0x0054 3 0x11 0xFF 0 a.unit a.image)
    fwActivationFailStep c =
      if a.unit = 0 then { d with hedge := { d.hedge with act := some { a with back := true } } } else clearAct d := by
  rw [fwActivationFailStep, hact]
  exact if_neg (by simp [hback])

/-! ### RESET_FUNCTION -/

/-- A host complex that is not running is not reset again (R505). -/
theorem resetFunctionStep_host_down (hc : control k seq 0xF 0xA c = some m) (hscope : m.par 32 1 = 0)
    (hstate : c.rget CPLX HST_CPLX_STATUS_STATE ≠ 1) : resetFunctionStep k seq c = finish m doneRes c := by
  rw [resetFunctionStep, mgmtRow_of_control hc]
  simp only [hscope]
  exact if_neg (by simp [hstate])

/-- A running host complex is taken down, and the command waits for it (R401, R505). -/
theorem resetFunctionStep_host_running (hc : control k seq 0xF 0xA c = some m) (hscope : m.par 32 1 = 0)
    (hstate : c.rget CPLX HST_CPLX_STATUS_STATE = 1) :
    resetFunctionStep k seq c = hostDown 4 0 (c.putCmd { m with wait := .hostReset }) := by
  rw [resetFunctionStep, mgmtRow_of_control hc]
  simp only [hscope]
  exact if_pos (by simp [hstate])

/-- An engine is reset, with every command in it ended (R507). -/
theorem resetFunctionStep_engine (hc : control k seq 0xF 0xA c = some m) (hscope : m.par 32 1 = 1) :
    let d := engineReset (m.par 34 1) (resetEngine (m.par 33 1) (m.par 34 1)) (c.rcount MGT MGT_ENGINE_RESETS 1)
    resetFunctionStep k seq c = finish ((d.findCmd k seq).getD m) doneRes d := by
  rw [resetFunctionStep, mgmtRow_of_control hc]
  simp only [hscope]

end

/-- Settles O44, row by row of the management class; a test held back by no spare is timed from the step that began it. -/
theorem managementCommandsAct : Obligations.ManagementCommandsAct := by
  intro s k seq m c
  refine ⟨fun hwf hc hup => ?regWrite, fun hwf hc => ?limitSet, fun hwf hc => ?stileSet, fun hwf hc hslice => ?slice,
    fun t o hwf hslice hbegun hback hresult hkind hverdict => ?sliceEnd, fun hwf hc => ⟨fun hq => ?notQuiescent, ?restart⟩,
    fun hwf hc => ⟨fun hprog => ?notStaged, fun hprog hsrc => ?staged⟩, fun hwf hc => ⟨fun h => ?notActive, fun hact hok hu => ?active⟩,
    fun a hwf hact hback => ?fail,
    fun hwf hc => ⟨fun hscope hstate => ?hostDown, fun hscope hstate => ?hostRunning, fun hscope => ?engine⟩⟩
  case regWrite => exact gives_of_run rfl hwf (regWriteStep_of_up hc hup)
  case limitSet => exact gives_of_run rfl hwf (limitSetStep_of_control hc)
  case stileSet => exact gives_of_run rfl hwf (stileSetStep_of_control hc)
  case slice =>
    intro t d hheld
    have hstart := selftestSliceStep_of_none hc hslice
    exact ⟨fun hfree => gives_of_run rfl hwf (hstart.trans (stDue_of_free hheld hfree)),
      fun hfree => gives_of_run rfl hwf (hstart.trans (stDue_of_not_free hheld hfree rfl))⟩
  case sliceEnd => exact gives_of_run rfl hwf (sliceTestEndStep_of_pass o hslice hbegun hback hresult hkind hverdict)
  case notQuiescent => exact gives_of_run rfl hwf (selftestFullStep_of_busy hc hq)
  case restart =>
    intro n d hq hn
    exact gives_of_run rfl hwf (selftestFullStep_of_quiescent hc hq hn)
  case notStaged => exact gives_of_run rfl hwf (fwStageStep_of_busy hc hprog)
  case staged => exact gives_of_run rfl hwf (fwStageStep_of_in_place hc hprog hsrc)
  case notActive => exact gives_of_run rfl hwf (fwActivateStep_of_busy hc h)
  case active => exact gives_of_run rfl hwf (fwActivateStep_of_ok hc hact hok hu)
  case fail => exact gives_of_run rfl hwf (fwActivationFailStep_of_act hact hback)
  case hostDown => exact gives_of_run rfl hwf (resetFunctionStep_host_down hc hscope hstate)
  case hostRunning => exact gives_of_run rfl hwf (resetFunctionStep_host_running hc hscope hstate)
  case engine => exact gives_of_run rfl hwf (resetFunctionStep_engine hc hscope)

end Sys2Proof.Machine

/-! A module at rest (log entry 6): nothing follows a command by itself, so that one that changes registers leaves the rest alone. -/

namespace Sys2Proof.Machine

open Sys2Proof

section
variable {c : Chip}

/-! ### What nothing waits for does not move on -/

/-- With no collective in progress none ends. -/
theorem collSettle_of_none (h : c.fab.colls = []) : collSettle c = c := by
  have horphans : collOrphans c = c := by rw [collOrphans, h, List.foldl_nil]
  rw [collSettle, horphans, h, List.foldl_nil]

/-- With no launch in progress and no core paid for, none ends and none is given up. -/
theorem drillSettle_of_none (hlaunches : c.drill.launches = []) (hpaid : ∀ e ∈ c.eng, e.2.paid = false) : drillSettle c = c := by
  simp only [drillSettle, hlaunches, List.foldl_nil]
  rw [List.filter_eq_nil_iff.mpr fun e he => by simp [hpaid e he], List.foldl_nil]

/-- With no command, no remote wait and no device to wake, nothing settles. -/
theorem settle_of_none (hcmds : c.cmds = []) (hheld : c.yoke.held = []) (hwaking : c.srv.waking = []) : settle c = c := by
  have hraise : raiseWaiting c = c := if_pos (by rw [unplaced, hcmds]; rfl)
  have hsb : sbEnterAll c = c := by rw [sbEnterAll, hcmds, sbEnter]
  have hplaces : givePlaces c = c := by rw [givePlaces, hcmds, List.foldl_nil]
  have hremote : giveRemote c = c := by rw [giveRemote, hheld, List.foldl_nil]
  have hwake : wakeMem c = c := by rw [wakeMem, hwaking, List.filter_nil, List.foldl_nil]
  rw [settle, hraise, hsb, hplaces, hremote, hwake]

/-- With nothing to send nothing leaves. -/
theorem flushAll_of_none (houts : c.yoke.outs = []) (hown : c.fab.own = []) : ∀ n, flushAll n c = c
  | 0 => rfl
  | _ + 1 => if_pos (by rw [houts, hown]; rfl)

/-- With no store on its way none lands. -/
theorem land_of_none (h : c.landing = []) : c.land = c := by
  rw [Chip.land, h, List.foldl_nil]
  exact (congrArg (fun l => ({ c with landing := l } : Chip)) h).symm

/-- In a module at rest nothing but the canonical form follows a command. -/
theorem after_of_quiet (h : c.quiet = true) : c.after = c.canon := by
  simp only [Chip.quiet, Bool.and_eq_true, List.isEmpty_iff, List.all_eq_true, Bool.not_eq_true'] at h
  obtain ⟨⟨⟨⟨⟨⟨⟨⟨hcmds, hcolls⟩, hown⟩, hlaunches⟩, houts⟩, hheld⟩, hwaking⟩, hlanding⟩, hpaid⟩ := h
  rw [Chip.after, moveOn, collSettle_of_none hcolls, drillSettle_of_none hlaunches hpaid, settle_of_none hcmds hheld hwaking,
    flushAll_of_none houts hown, land_of_none hlanding]

end

/-! ### Modules that differ in registers alone -/

/-- Registers do not disturb a module at rest. -/
theorem OnlyRegs.quiet {l : List Nat} {a b : Chip} (h : OnlyRegs l a b) : b.quiet = a.quiet := by
  rw [h.1]
  rfl

/-- Both memories read the same in modules that differ in registers alone. -/
theorem OnlyRegs.sameMemory {l : List Nat} {a b : Chip} (h : OnlyRegs l a b) : SameMemory a b := by
  rw [h.1]
  exact ⟨fun _ => rfl, fun _ _ => rfl⟩

/-- The canonical form of a module that differs from a canonical one in registers differs from it in those alone. -/
theorem OnlyRegs.canon {l : List Nat} {a b : Chip} (h : OnlyRegs l a b) (ha : a.wf = true) : OnlyRegs l a b.canon := by
  obtain ⟨hb, hreg⟩ := h
  refine ⟨?_, fun o ho => by rw [Chip.reg_canon, hreg o ho]⟩
  calc b.canon = { a.canon with regs := b.canon.regs } := by rw [hb]; rfl
    _ = { a with regs := b.canon.regs } := by rw [Chip.canon_of_wf a ha]

/-- One field put, in a register of the list. -/
theorem OnlyRegs.of_rput (c : Chip) {l : List Nat} (b : Nat) (f : Fld) (v : Nat) (hf : b + f.off ∈ l) : OnlyRegs l c (c.rput b f v) :=
  (OnlyRegs.refl l c).rput b f v hf

/-- At rest, a command that changes only registers changes nothing else at all. -/
theorem leaves_rest_of_onlyRegs {s : State} {i : Instr} {l : List Nat} {f : Chip → Chip} (hexec : exec i s = s.run i f)
    (hcanon : Canonical s) (hquiet : s.toChip.quiet = true) (hregs : OnlyRegs l s.toChip (f s.toChip)) (hwf : i.wf = true) :
    ∃ t, exec i s = .next t ∧ t.pending = s.pending ∧ OnlyRegs l s.toChip t.toChip ∧ SameMemory s.toChip t.toChip := by
  have hafter : (f s.toChip).after = (f s.toChip).canon := after_of_quiet (hregs.quiet.trans hquiet)
  have hall : OnlyRegs l s.toChip (f s.toChip).after := hafter ▸ hregs.canon hcanon
  exact ⟨_, hexec.trans (State.run_wf s i f hwf), rfl, hall, hall.sameMemory⟩

/-! ### Commands that change only registers -/

section
variable (c : Chip)

/-- The end of a stagger delay (R490). -/
theorem onlyRegs_staggerEndStep : OnlyRegs [PWR + PWR_STATUS_STAGGER.off, PWR + PWR_STAGGER_NOW_DELAY_US.off] c (staggerEndStep c) :=
  (OnlyRegs.of_rput c _ _ _ (by simp)).rput _ _ _ (by simp)

/-- A check of time puts its flag, its bound and, at a root, its hops in the flag's register (R468). -/
theorem onlyRegs_timeCheck : OnlyRegs [AIH + AIH_TIME_CTL_UNSURE.off, AIH + AIH_TIME_BOUND_NS.off] c (timeCheck c) := by
  have hhops : AIH + AIH_TIME_CTL_HOPS.off ∈ [AIH + AIH_TIME_CTL_UNSURE.off, AIH + AIH_TIME_BOUND_NS.off] := by decide
  unfold timeCheck
  refine (OnlyRegs.rput ?_ _ _ _ (by simp)).rput _ _ _ (by simp)
  split
  · exact OnlyRegs.of_rput c _ _ _ hhops
  · exact OnlyRegs.refl _ c

/-- Time that no exchange has kept (R468). -/
theorem onlyRegs_timeUnsureTimeoutStep :
    OnlyRegs [AIH + AIH_TIME_CTL_UNSURE.off, AIH + AIH_TIME_BOUND_NS.off] c (timeUnsureTimeoutStep c) := by
  unfold timeUnsureTimeoutStep
  split
  · exact onlyRegs_timeCheck c
  · exact OnlyRegs.of_rput c _ _ _ (by simp)

/-- The bypass pin and the conditions it is checked with share one register (R436, R437). -/
theorem onlyRegs_stileCheck_pin (v : Nat) : OnlyRegs [AIH + AIH_STILE_REQ_PIN.off] c (stileCheck (c.rput AIH AIH_STILE_REQ_PIN v)) :=
  ((OnlyRegs.of_rput c _ _ _ (by simp)).rput _ _ _ (by decide)).rput _ _ _ (by decide)

/-- An error message sets its bit at a root port that is up (R433). -/
theorem onlyRegs_pcxErrorMessageStep (p : Nat) : OnlyRegs [PCX p + PCX_ERR_AER_MSG.off] c (pcxErrorMessageStep p c) := by
  unfold pcxErrorMessageStep
  split
  · exact OnlyRegs.of_rput c _ _ _ (by simp)
  · exact OnlyRegs.refl _ c

end

section
variable {c : Chip}

/-- The consumed index of the fault ring (R351, R361). -/
theorem onlyRegs_modFrConsumedStep (p : Path) (v : Nat) (hup : c.up = true) :
    OnlyRegs [(MOD + MOD_FR_CONSUMED_CONSUMED.off)] c (modFrConsumedStep p v c) := by
  rw [modFrConsumedStep, if_neg (by simp [hup])]
  exact OnlyRegs.of_rput c _ _ _ (by simp)

/-- A commit with a topology that does not fit is refused (R59, R470). -/
theorem onlyRegs_modCfgCommitStep (p : Path) (v : Nat) (hup : c.up = true) (htopo : topoOk c = false) :
    OnlyRegs [(MOD + MOD_CFG_STATUS_REFUSED.off)] c (modCfgCommitStep p v c) := by
  rw [modCfgCommitStep, if_neg (by simp [hup]), if_neg (by simp [htopo])]
  exact OnlyRegs.of_rput c _ _ _ (by simp)

/-- An answer to a fault where none is pending (R352). -/
theorem onlyRegs_faultResp (p : Path) (id : Nat) (f : PFault → Chip → Chip) (hup : c.up = true) (hnone : c.pendingFaults = []) :
    OnlyRegs [(MOD + MOD_XLT_ERR_RESP_UNKNOWN.off)] c (faultResp p id f c) := by
  rw [faultResp_of_unknown p f (by rw [hnone]; rfl), if_pos hup]
  exact OnlyRegs.of_rput c _ _ _ (by simp)

/-- Poison that crosses a Balk half of a module in service is counted (R509). -/
theorem onlyRegs_balkLinkErrorStep_poison (h : Nat) (hstep : c.hedge.step ≥ 8) :
    OnlyRegs [BLK h + BLK_POISON.off] c (balkLinkErrorStep h .poison c) := by
  rw [balkLinkErrorStep, if_neg (by omega)]
  exact OnlyRegs.of_rput c _ _ _ (by simp)

end

/-- Settles O60: each command puts fields of the registers named alone, and a module at rest does nothing of its own afterwards. -/
theorem registerCommandsLeaveTheRest : Obligations.RegisterCommandsLeaveTheRest := by
  intro s hcanon hquiet c only
  have honly {i : Instr} {l : List Nat} {f : Chip → Chip} (hexec : exec i s = s.run i f) (hregs : OnlyRegs l c (f c)) : only i l :=
    leaves_rest_of_onlyRegs hexec hcanon hquiet hregs
  refine ⟨honly rfl (OnlyRegs.of_rput c _ _ _ (by simp)), honly rfl (OnlyRegs.of_rput c _ _ _ (by simp)),
    honly rfl (onlyRegs_staggerEndStep c), honly rfl (onlyRegs_timeUnsureTimeoutStep c),
    honly rfl (onlyRegs_stileCheck_pin c 1), honly rfl (onlyRegs_stileCheck_pin c 0),
    fun p => honly rfl (onlyRegs_pcxErrorMessageStep c p),
    fun p v hup => honly rfl (onlyRegs_modFrConsumedStep p v hup),
    fun p v hup htopo => honly rfl (onlyRegs_modCfgCommitStep p v hup htopo),
    fun p id hup hnone => ⟨honly rfl (onlyRegs_faultResp p id faultRetry hup hnone), honly rfl (onlyRegs_faultResp p id faultDecline hup hnone)⟩,
    fun h hstep => honly rfl (onlyRegs_balkLinkErrorStep_poison h hstep)⟩

end Sys2Proof.Machine

/-! Statements that rest on what stands above: a module at rest (log entry 6), the commit units of a command in order (R42, R65), and a
fresh enable (R32). -/

namespace Sys2Proof.Machine

open Sys2Proof

/-- Settles O6: nothing follows at rest (`after_of_quiet`), and the canonical form changes no reading. -/
theorem atRestNothingFollows : Obligations.AtRestNothingFollows := by
  intro c hquiet
  rw [after_of_quiet hquiet]
  exact ⟨rfl, ⟨c.rdByte_canon, c.rdSbd_canon⟩, c.reg_canon, c.ctx_canon, c.queue_canon, c.place_canon, c.engine_canon⟩

/-- Settles O24, by induction on the turns (`runUnits_of_unitsDone`). -/
theorem unitsRunInOrder : Obligations.UnitsRunInOrder := fun _ _ _ _ _ _ _ _ hdone hk => runUnits_of_unitsDone hdone hk

/-! ### A fresh enable (R32) -/

/-- What R32 asks of a queue that a fresh enable leaves, SEQ_BASE being `base`. -/
def Queue.fresh (base : Nat) (x : Queue) : Prop :=
  x.head = 0 ∧ x.tail = 0 ∧ x.cqCount = 0 ∧ x.cqConsumed = 0 ∧ x.lastAccepted = base ∧ x.doneThrough = base ∧ x.staleDb = 0 ∧ x.window = []

/-- A descriptor that passes its checks gives a fresh queue. -/
theorem fresh_of_parseQueue {q : Nat} {c : Chip} {x : Queue} (h : parseQueue q c = some x) :
    x.fresh (leAt (c.rdMem (c.rget MOD MOD_QUE_TABLE_BASE_BASE * 4096 + 64 * q) 64) 24 4) := by
  simp only [parseQueue] at h
  split at h
  · cases h
    exact ⟨rfl, rfl, rfl, rfl, rfl, rfl, rfl, rfl⟩
  · cases h

/-- Ring pages that fail do not answer DONE (R345). -/
theorem ringFail_ne_done (ps : List XPage) : ringFail ps ≠ some doneRes := by
  have hstatus : ∀ r, ringFail ps = some r → r.status ≠ sDone := by
    intro r hr
    rw [ringFail] at hr
    split at hr
    · cases hr
      exact (by decide : sUnmapped ≠ sDone)
    · obtain ⟨p, -, rfl⟩ := Option.map_eq_some_iff.mp hr
      exact (by decide : sAccess ≠ sDone)
  exact fun h => hstatus _ h rfl

/-- An enable whose rings' pages hold leaves the fresh queue, enabled. -/
theorem fresh_of_enableRings {q base : Nat} {x : Queue} {k : CtxDesc} {read : Bool} {c d : Chip} (hfresh : x.fresh base)
    (h : enableRings q x k read c = (doneRes, d)) : (d.queue q).fresh base := by
  rw [enableRings] at h
  simp only at h
  split at h
  · rename_i e he
    cases h
    exact absurd he (ringFail_ne_done _)
  · cases h
    have hq : ∀ (b : Chip) (y : Queue) (n : Nat) (z : Ctx), ((b.setQueue q y).setCtx n z).queue q = y := fun b y n z =>
      (b.queue_setQueue q q y).trans (if_pos rfl)
    rw [hq]
    exact hfresh

/-- Settles O14: an enable that answers DONE has read a descriptor that passes, and keeps the queue that it gives. -/
theorem freshEnableResetsTheQueue : Obligations.FreshEnableResetsTheQueue := by
  intro q c d h
  have hmalformed : malformedRes ≠ doneRes := by decide
  rw [enableFresh] at h
  split at h
  · exact absurd (congrArg Prod.fst h) hmalformed
  · split at h
    · exact absurd (congrArg Prod.fst h) hmalformed
    · rename_i x hx
      simp only at h
      split at h
      · exact fresh_of_enableRings (fresh_of_parseQueue hx) h
      · exact fresh_of_enableRings (fresh_of_parseQueue hx) h
      · exact absurd (congrArg Prod.fst h) hmalformed

end Sys2Proof.Machine

/-! Configuration epochs (R59, R60, R470): what a commit that takes effect leaves in the mirrors, in the engines and in its registers. -/

namespace Sys2Proof.Machine

open Sys2Proof

/-! ### Mirrors and shadows (R59, R547) -/

/-- The module with each mirror of a list of (shadow, mirror) taking its shadow. -/
def Chip.mirror (c : Chip) (l : List (Nat × Nat)) : Chip := l.foldl (fun c p => c.setReg p.2 (c.reg p.1)) c

theorem Chip.reg_mirror_of_not_mem (l : List (Nat × Nat)) {o : Nat} (ho : o ∉ l.map Prod.snd) (c : Chip) : (c.mirror l).reg o = c.reg o := by
  induction l generalizing c with
  | nil => rfl
  | cons p l ih =>
    obtain ⟨hne, hl⟩ := not_or.mp (mt List.mem_cons.mpr ho)
    calc (c.mirror (p :: l)).reg o = (c.setReg p.2 (c.reg p.1)).reg o := ih hl _
      _ = c.reg o := by rw [Chip.reg_setReg, if_neg hne]

/-- Where no mirror is a shadow and none stands twice, each mirror reads what its shadow read. -/
theorem Chip.reg_mirror_of_mem {l : List (Nat × Nat)} (hnodup : (l.map Prod.snd).Nodup) (hshadow : ∀ p ∈ l, ∀ r ∈ l, p.1 ≠ r.2)
    {x : Nat × Nat} (hx : x ∈ l) (c : Chip) : (c.mirror l).reg x.2 = c.reg x.1 := by
  induction l generalizing c with
  | nil => cases hx
  | cons p l ih =>
    obtain ⟨hp, hl⟩ := List.nodup_cons.mp hnodup
    rcases List.mem_cons.mp hx with rfl | hmem
    · calc (c.mirror (x :: l)).reg x.2 = (c.setReg x.2 (c.reg x.1)).reg x.2 := Chip.reg_mirror_of_not_mem l hp _
        _ = c.reg x.1 := by rw [Chip.reg_setReg, if_pos rfl]
    · calc (c.mirror (p :: l)).reg x.2 = (c.setReg p.2 (c.reg p.1)).reg x.1 :=
          ih hl (fun a ha b hb => hshadow a (List.mem_cons_of_mem _ ha) b (List.mem_cons_of_mem _ hb)) hmem _
        _ = c.reg x.1 := by rw [Chip.reg_setReg, if_neg (hshadow x hx p List.mem_cons_self)]

@[simp] theorem Chip.engine_mirror (l : List (Nat × Nat)) (c : Chip) (e : Engine) : (c.mirror l).engine e = c.engine e :=
  congrArg (fun m => kget engDef m (engKey e)) (foldl_keep Chip.eng (fun c (p : Nat × Nat) => c.setReg p.2 (c.reg p.1)) (fun _ _ => rfl) l c)

/-! ### Engines pending (R59, R60) -/

/-- The engines that are awake and in service. -/
def Chip.toAdopt (c : Chip) : List Engine := allEngines.filter (fun x => (c.engine x).awake && (c.engine x).service)

/-- The module with every engine of a list pending. -/
def Chip.unadopt (c : Chip) (l : List Engine) : Chip := l.foldl (fun c x => c.setEngine x { c.engine x with adopted := false, holdsPrev := false }) c

theorem Chip.reg_unadopt (l : List Engine) (c : Chip) (o : Nat) : (c.unadopt l).reg o = c.reg o :=
  congrArg (fun m => kget regReset m o) (foldl_keep Chip.regs _ (fun c x => c.setEngine_regs x _) l c)

/-- An engine of the list has not adopted, nor has one that had not before. -/
theorem Chip.adopted_unadopt {l : List Engine} {e : Engine} {c : Chip} (h : e ∈ l ∨ (c.engine e).adopted = false) :
    ((c.unadopt l).engine e).adopted = false := by
  induction l generalizing c with
  | nil => exact h.resolve_left List.not_mem_nil
  | cons x l ih =>
    refine ih ?_
    rw [Chip.engine_setEngine, List.mem_cons] at *
    split
    · exact .inr rfl
    · rename_i hkey
      exact h.imp_left fun hmem => hmem.resolve_left fun heq => hkey (congrArg engKey heq)

/-! ### The commit (R59) -/

/-- The module with its mirrors taken, its engines pending and the previous configuration kept, before the epochs change. -/
def Chip.committed (c : Chip) : Chip :=
  let d := (c.mirror shadowMap).unadopt (c.mirror shadowMap).toAdopt
  { d with prevCfg := shadowMap.map (fun p => (p.2, c.reg p.2)), fab := { d.fab with digestPrev := some (cfgDigest c) } }

/-- The epochs and the mixed window of a commit, n engines being pending. -/
def Chip.opened (c : Chip) (epoch n : Nat) : Chip :=
  (((c.rput MOD MOD_CFG_EPOCH_PREVIOUS (c.rget MOD MOD_CFG_EPOCH_CURRENT)).rput MOD MOD_CFG_EPOCH_CURRENT epoch).rput MOD
    MOD_CFG_STATUS_MIXED 1).rput MOD MOD_CFG_STATUS_PENDING n

theorem commitNow_eq (n : Nat) (c : Chip) : commitNow n c =
    if (c.mirror shadowMap).toAdopt.isEmpty then closeWindow (c.committed.opened n (c.mirror shadowMap).toAdopt.length)
    else c.committed.opened n (c.mirror shadowMap).toAdopt.length := rfl

theorem Chip.engine_opened (c : Chip) (epoch n : Nat) (e : Engine) : (c.opened epoch n).engine e = c.engine e := by
  simp only [Chip.opened, Chip.engine, Chip.rput_eng]

/-- Only the registers of the epochs and of their status change. -/
theorem Chip.reg_opened_of_ne (c : Chip) (epoch n : Nat) {o : Nat} (hepoch : o ≠ MOD + MOD_CFG_EPOCH_CURRENT.off)
    (hstatus : o ≠ MOD + MOD_CFG_STATUS_MIXED.off) : (c.opened epoch n).reg o = c.reg o :=
  calc (c.opened epoch n).reg o = _ := Chip.reg_rput_ne _ MOD MOD_CFG_STATUS_PENDING n o hstatus
    _ = _ := Chip.reg_rput_ne _ MOD MOD_CFG_STATUS_MIXED 1 o hstatus
    _ = _ := Chip.reg_rput_ne _ MOD MOD_CFG_EPOCH_CURRENT epoch o hepoch
    _ = c.reg o := Chip.reg_rput_ne c MOD MOD_CFG_EPOCH_PREVIOUS _ o hepoch

@[simp] theorem Chip.toAdopt_mirror (l : List (Nat × Nat)) (c : Chip) : (c.mirror l).toAdopt = c.toAdopt := by
  simp only [Chip.toAdopt, Chip.engine_mirror]

section
variable {c : Chip} {n : Nat}

/-- Where an engine is awake the mixed window opens. -/
theorem commitNow_of_awake (hawake : c.toAdopt ≠ []) : commitNow n c = c.committed.opened n c.toAdopt.length := by
  rw [commitNow_eq, Chip.toAdopt_mirror, if_neg (mt List.isEmpty_iff.mp hawake)]

theorem Chip.reg_committed_of_not_mirror {o : Nat} (ho : o ∉ shadowMap.map Prod.snd) : c.committed.reg o = c.reg o :=
  (Chip.reg_unadopt _ _ _).trans (Chip.reg_mirror_of_not_mem _ ho _)

theorem Chip.reg_committed_of_mirror {x : Nat × Nat} (hx : x ∈ shadowMap) : c.committed.reg x.2 = c.reg x.1 :=
  (Chip.reg_unadopt _ _ _).trans (Chip.reg_mirror_of_mem (by decide) (by decide) hx _)

theorem Chip.adopted_committed {e : Engine} (he : e ∈ c.toAdopt) : (c.committed.engine e).adopted = false := by
  have hmem : e ∈ (c.mirror shadowMap).toAdopt := by rw [Chip.toAdopt_mirror]; exact he
  exact Chip.adopted_unadopt (c := c.mirror shadowMap) (.inl hmem)

/-- The mirrors share no register with the epochs and their status. -/
theorem shadowMap_apart : ∀ x ∈ shadowMap, x.2 ≠ MOD + MOD_CFG_EPOCH_CURRENT.off ∧ x.2 ≠ MOD + MOD_CFG_STATUS_MIXED.off := by decide

/-- What a commit that finds an engine awake leaves in the mirrors, the engines and the epoch's registers. -/
theorem commitNow_reads {e : Engine} (hn : n < 2 ^ 16) (he : e ∈ c.toAdopt) :
    ((commitNow n c).engine e).adopted = false ∧ (∀ x ∈ shadowMap, (commitNow n c).reg x.2 = c.reg x.1) ∧
    (commitNow n c).rget MOD MOD_CFG_EPOCH_CURRENT = n ∧
    (commitNow n c).rget MOD MOD_CFG_EPOCH_PREVIOUS = c.rget MOD MOD_CFG_EPOCH_CURRENT ∧ (commitNow n c).rget MOD MOD_CFG_STATUS_MIXED = 1 ∧
    (commitNow n c).rget MOD MOD_CFG_STATUS_PENDING = c.toAdopt.length % 65536 := by
  have hcurrent : c.committed.rget MOD MOD_CFG_EPOCH_CURRENT = c.rget MOD MOD_CFG_EPOCH_CURRENT := by
    rw [Chip.rget, Chip.reg_committed_of_not_mirror (by decide), Chip.rget]
  have hlt : c.rget MOD MOD_CFG_EPOCH_CURRENT < 2 ^ 16 := bits_lt _ _ _
  rw [commitNow_of_awake (List.ne_nil_of_mem he)]
  refine ⟨by rw [Chip.engine_opened]; exact Chip.adopted_committed he, fun x hx => ?mirrors, ?current, ?previous, ?mixed, ?pending⟩
  case mirrors =>
    obtain ⟨hepoch, hstatus⟩ := shadowMap_apart x hx
    rw [Chip.reg_opened_of_ne _ _ _ hepoch hstatus, Chip.reg_committed_of_mirror hx]
  case current =>
    rw [Chip.opened, Chip.rget_rput_apart (h := rfl), Chip.rget_rput_apart (h := rfl), Chip.rget_rput_self (h := by decide)]
    exact Nat.mod_eq_of_lt hn
  case previous =>
    rw [Chip.opened, Chip.rget_rput_apart (h := rfl), Chip.rget_rput_apart (h := rfl), Chip.rget_rput_apart (h := rfl),
      Chip.rget_rput_self (h := by decide), hcurrent]
    exact Nat.mod_eq_of_lt hlt
  case mixed => rw [Chip.opened, Chip.rget_rput_apart (h := rfl), Chip.rget_rput_self (h := by decide)]; rfl
  case pending => rw [Chip.opened, Chip.rget_rput_self (h := by decide)]; rfl

/-- A commit in service with the next epoch, no window open and a topology that fits takes effect; any other is refused (R59, R470). -/
theorem modCfgCommitStep_of_up (p : Path) (v : Nat) (hup : c.up = true) : modCfgCommitStep p v c =
    if v % 65536 = nextEpoch (c.rget MOD MOD_CFG_EPOCH_CURRENT) ∧ c.rget MOD MOD_CFG_STATUS_MIXED = 0 ∧ topoOk c = true then commitNow (v % 65536) c
    else c.rput MOD MOD_CFG_STATUS_REFUSED 1 := by
  rw [modCfgCommitStep, hup]
  simp only [Bool.not_true, Bool.false_eq_true, if_false, Bool.and_eq_true, decide_eq_true_eq, beq_iff_eq, and_assoc]

end

/-- Settles O45: a commit in service takes effect or is refused (`modCfgCommitStep_of_up`), and one that takes effect leaves what
`commitNow_reads` says. -/
theorem commitsFollowTheEpoch : Obligations.CommitsFollowTheEpoch := by
  intro s p v hwf c n ok
  refine ⟨fun hup hok => ⟨gives_of_run rfl hwf ((modCfgCommitStep_of_up p v hup).trans (if_pos hok)), fun e he hawake hservice => ?_⟩,
    fun hup hnot => gives_of_run rfl hwf ((modCfgCommitStep_of_up p v hup).trans (if_neg hnot)), fun e hwf' hadopted => ?_⟩
  · exact commitNow_reads (Nat.mod_lt _ (by decide)) (List.mem_filter.mpr ⟨he, by rw [hawake, hservice]; rfl⟩)
  · refine gives_of_run (f := engineAdoptEpochStep e) rfl hwf' ?_
    rw [engineAdoptEpochStep, adopt, if_pos hadopted, if_pos rfl, ite_self]

end Sys2Proof.Machine

/-! Sleep, clocks and switches (R60, R136, R285, R410, R476, R489, R490, R495, R496, R522): what each command comes to where its condition
holds. That an engine adopts as it loses its power, and that FURROW_IDLE_STOP keeps the previous configuration, is the model's reading (log
entry 75); so are the optics retries' wait, the breach run and power-down's waking (log entries 38, 40, 50). -/

namespace Sys2Proof.Machine

open Sys2Proof

section
variable {c : Chip}

/-! ### Sleep and the pins (R489, R490) -/

theorem asleepStep_of_idle (hstandby : c.hedge.standby = true) (hholds : c.cmds.any (fun m => m.holds) = false) (hbal : c.gov.bal = 0)
    (hwaiting : c.gov.waiting = []) :
    asleepStep c = ({ c with gov := { c.gov with wakeFloor := false } } : Chip).rput PWR PWR_STATUS_ASLEEP 1 := by
  rw [asleepStep, hstandby, hholds, hbal, hwaiting]
  rfl

/-- While shedding is permitted the floor is released. -/
theorem floorCheck_of_hint (h : c.rget PWR PWR_STATUS_GRID_HINT = 1) :
    floorCheck c = ({ c with gov := { c.gov with wakeFloor := false } } : Chip).rput PWR PWR_STATUS_FLOOR_HELD 0 := by
  have hoff : floorOn c = false := by rw [floorOn, h]; simp
  rw [floorCheck, hoff]
  rfl

theorem gridHintRiseStep_of_standby (hstandby : c.hedge.standby = true) : let d := c.rput PWR PWR_STATUS_GRID_HINT 1
    gridHintRiseStep c = ({ d with gov := { c.gov with wakeFloor := false } } : Chip).rput PWR PWR_STATUS_FLOOR_HELD 0 := by
  rw [gridHintRiseStep, if_pos hstandby, floorCheck_of_hint (Chip.rget_rput_self _ _ _ _ (by decide))]
  rfl

/-! ### The optics switches (R495, R496) -/

section
variable {p : Nat}

theorem opticsSwitchLimitStep_of_on (hon : opticsOn c p = true) : let d := setOptics p false c
    opticsSwitchLimitStep p c = linkEvent p (((d.rput PWR PWR_OPTICS_STATUS_FAULT (setBits (d.rget PWR PWR_OPTICS_STATUS_FAULT) p 1 1)).rput
      (AIHP p) AIH_PORT_ERR_OPTICS_FAULT 1).rput PWR PWR_ERR_OPTICS_LATCHED 1) := by
  rw [opticsSwitchLimitStep, hon]
  rfl

/-- A retry that is owed and already admitted is used up. -/
theorem opticsRetryStep_of_admitted (ok : Bool) (howed : retryOwed p c = true) (hadmitted : c.hedge.optics.contains p = true) :
    let d : Chip := { c with hedge := { c.hedge with optics := c.hedge.optics.filter (fun x => x != p),
                                                      retries := setNth c.hedge.retries p (nth c.hedge.retries p 0 + 1) } }
    opticsRetryStep p ok c = if ok then opticsUp p d else d.rput PWR PWR_ERR_OPTICS_LATCHED 1 := by
  rw [opticsRetryStep, howed, hadmitted]
  rfl

end

/-! ### Clocks and power of engines (R60, R136, R210, R244, R313, R476) -/

/-- An engine that has adopted, keeping the previous configuration or not, and then lost its clock or its power. -/
def gated (keep : Bool) (e : Engine) (c : Chip) : Chip := (adopt keep e c).setEngine e { (adopt keep e c).engine e with awake := false }

section
variable {e : Engine} {time : Nat}

theorem gate_of_idle (keep : Bool) (hawake : (c.engine e).awake = true) (hidle : idle e c = true) (htime : time ≠ 0) :
    gate e time keep c = gated keep e c := by
  rw [gate, hawake, hidle, bne_iff_ne.mpr htime]
  rfl

theorem drillIdleGateStep_of_idle {h n : Nat} (hawake : (c.engine ⟨3, h, n⟩).awake = true) (hidle : idle ⟨3, h, n⟩ c = true)
    (hblocks : coreBlocks c h n = []) (hpaid : (c.engine ⟨3, h, n⟩).paid = false) (htime : c.rget (DRL h n) DRL_CTL_IDLE_GATE ≠ 0) :
    drillIdleGateStep h n c = gated false ⟨3, h, n⟩ c := by
  rw [drillIdleGateStep, hblocks, hpaid]
  exact gate_of_idle false hawake hidle htime

theorem gleanerIdleGateStep_of_idle {h n : Nat} (hawake : (c.engine ⟨0x15, h, n⟩).awake = true) (hidle : idle ⟨0x15, h, n⟩ c = true)
    (hcmds : c.cmds = []) (htime : c.rget (INF h n) INF_GLN_CTL_IDLE_GATE ≠ 0) :
    gleanerIdleGateStep h n c = gated false ⟨0x15, h, n⟩ c := by
  rw [gleanerIdleGateStep, hcmds]
  exact gate_of_idle false hawake hidle htime

end

theorem hostCoreGateIdleStep_of_on {n : Nat} (hon : hostOn n c = true) (htime : c.rget (hstBase n) HST_CTL_GATE_IDLE ≠ 0) :
    hostCoreGateIdleStep n c = ((c.host.copies.filter (fun x => x.hart == n)).foldl (fun c x =>
      if x.hold = .modified then setDir x.sec false 0 (dropCopy n x.sec (writeBack x c)) else dropCopy n x.sec c) c).rput (hstBase n)
        HST_STATUS_STATE 3 := by
  rw [hostCoreGateIdleStep, hon, beq_eq_false_iff_ne.mpr htime]
  rfl

/-! ### Devices of memory (R285, R522) -/

section
variable {d : MemDev}

theorem memoryPowerDownStep_of_rest {p : Nat} (hrest : mayRest c (devKey d) = true) (htime : devGet c (devKey d) INF_CTL_PD_IDLE OUT_CTL_PD_IDLE ≠ 0)
    (hnew : c.srv.pd.contains (devKey d * 64 + p) = false) :
    memoryPowerDownStep d p c = { c with srv := { c.srv with pd := c.srv.pd ++ [devKey d * 64 + p] } } := by
  rw [memoryPowerDownStep, hrest, hnew, beq_eq_false_iff_ne.mpr htime]
  rfl

theorem memorySelfRefreshStep_of_rest (hrest : mayRest c (devKey d) = true) (htime : devGet c (devKey d) INF_CTL_SR_IDLE OUT_CTL_SR_IDLE ≠ 0)
    (hmigs : c.srv.migs = []) : memorySelfRefreshStep d c =
      { c with srv := { c.srv with sr := c.srv.sr ++ [devKey d], pd := c.srv.pd.filter (fun p => p / 64 != devKey d) } } := by
  rw [memorySelfRefreshStep, hrest, hmigs, beq_eq_false_iff_ne.mpr htime]
  rfl

theorem retrainingEndStep_of_training (htraining : c.srv.training = some (devKey d)) : let k := devKey d
    let x := setOffload (dkHalf k) 0 (devPut k INF_STATUS_STATE OUT_STATUS_STATE 2 c)
    let y := setTrain ⟨k, devGet x k INF_STATUS_TEMP OUT_STATUS_TEMP, false⟩ x
    retrainingEndStep d c = tryRetrain { y with srv := { y.srv with training := none, sr := y.srv.sr.filter (fun z => z != k) } } :=
  if_neg (not_not.mpr htraining)

end

end

/-- Settles O56: each command comes to what its condition lets it do; a gate is `gated` after its engine's adoption. -/
theorem powerCommandsAct : Obligations.PowerCommandsAct := by
  intro s c
  refine ⟨?asleep, ?wakeFall, fun hwf => gives_of_run rfl hwf rfl, fun hwf => gives_of_run rfl hwf rfl, ?hintRise,
    fun hwf => gives_of_run rfl hwf rfl, ?limit, ?retry, ?clockStart, ⟨?furrow, ?harrow, ?drill, ?gleaner⟩, ?host, ?memory, ?training⟩
  case asleep => exact fun hwf hstandby hholds hbal hwaiting => gives_of_run rfl hwf (asleepStep_of_idle hstandby hholds hbal hwaiting)
  case wakeFall => exact fun hwf hstandby => gives_of_run rfl hwf (if_pos hstandby)
  case hintRise => exact fun hwf hstandby => gives_of_run rfl hwf (gridHintRiseStep_of_standby hstandby)
  case limit => exact fun p hwf hon => gives_of_run rfl hwf (opticsSwitchLimitStep_of_on hon)
  case retry => exact fun p ok hwf howed hadmitted => gives_of_run rfl hwf (opticsRetryStep_of_admitted ok howed hadmitted)
  case clockStart => exact fun e hwf hstarting => gives_of_run (f := engineClockStartStep e) rfl hwf (if_pos hstarting)
  case furrow => exact fun h hwf hrests htime => gives_of_run (f := furrowIdleStopStep h) rfl hwf (gate_of_idle true hrests.1 hrests.2 htime)
  case harrow => exact fun h n hwf hrests htime => gives_of_run (f := harrowIdleGateStep h n) rfl hwf (gate_of_idle false hrests.1 hrests.2 htime)
  case drill =>
    exact fun h n hwf hrests hblocks hpaid htime => gives_of_run rfl hwf (drillIdleGateStep_of_idle hrests.1 hrests.2 hblocks hpaid htime)
  case gleaner => exact fun h n hwf hrests hcmds htime => gives_of_run rfl hwf (gleanerIdleGateStep_of_idle hrests.1 hrests.2 hcmds htime)
  case host => exact fun n hwf hon htime => gives_of_run rfl hwf (hostCoreGateIdleStep_of_on hon htime)
  case memory =>
    exact fun d hrest => ⟨fun p hwf htime hnew => gives_of_run rfl hwf (memoryPowerDownStep_of_rest hrest htime hnew),
      fun hwf htime hmigs => gives_of_run rfl hwf (memorySelfRefreshStep_of_rest hrest htime hmigs)⟩
  case training => exact fun d hwf htraining => gives_of_run rfl hwf (retrainingEndStep_of_training htraining)

end Sys2Proof.Machine

/-! The management paths (R40, R86 to R89, R419, R436, R451, R554, R555): what a request on each path comes to where it is served. -/

namespace Sys2Proof.Machine

open Sys2Proof

section
variable {c : Chip}

/-! ### SMBus and the mailbox (R86, R419) -/

/-- A whole request of one to three slots with its PEC, while no command is in progress, is acknowledged and goes by its SEQ. -/
theorem smbusRequestStep_of_whole {bytes : List Byte} {len : Nat} (hserved : pathsServed c = true) (hfree : (c.path .smbus).busy = false)
    (hmin : 1 ≤ len) (hmax : len ≤ 3) (hlen : leAt bytes 3 1 = len) (hwhole : bytes.length = 64 * len) :
    smbusRequestStep true bytes c = pathAccept .smbus none bytes (c.emit (.smbus true [])) := by
  rw [smbusRequestStep, hlen, hwhole, hserved, hfree]
  exact if_neg (by simp; omega)

/-- Without its PEC, or while a command is in progress, a request is not acknowledged. -/
theorem smbusRequestStep_of_refused {pec : Bool} (bytes : List Byte) (h : pec = false ∨ (c.path .smbus).busy = true) :
    smbusRequestStep pec bytes c = c.emit (.smbus false []) := by
  rw [smbusRequestStep]
  exact if_pos (by rcases h with h | h <;> simp [h])

/-- What a Block Read finds of the record: its next bytes, at most 255. -/
def PathSt.next (x : PathSt) : List Byte := (x.reply.drop x.cursor).take 255

theorem smbusReplyReadStep_of_record (hserved : pathsServed c = true) (hfree : (c.path .smbus).busy = false) (hnext : (c.path .smbus).next ≠ []) :
    smbusReplyReadStep c =
      (c.setPath .smbus { c.path .smbus with cursor := (c.path .smbus).cursor + (c.path .smbus).next.length }).emit
        (.smbus true (BitVec.ofNat 8 (c.path .smbus).next.length :: (c.path .smbus).next)) := by
  have hmore : (if (c.path .smbus).busy then [] else (c.path .smbus).next) = (c.path .smbus).next := by rw [hfree]; rfl
  rw [smbusReplyReadStep, hserved]
  change (if (if (c.path .smbus).busy then [] else (c.path .smbus).next).isEmpty then _ else _) = _
  rw [if_neg (by rw [hmore]; exact mt List.isEmpty_iff.mp hnext), ← PathSt.next, hmore]

theorem smbusReplyReadStep_of_none (hserved : pathsServed c = true) (h : (c.path .smbus).busy = true ∨ (c.path .smbus).next = []) :
    smbusReplyReadStep c = c.emit (.smbus true [1, 0xFF]) := by
  have hnone : (if (c.path .smbus).busy then [] else (c.path .smbus).next) = [] := by
    rcases h with h | h
    · rw [if_pos h]
    · rw [h, ite_self]
  rw [smbusReplyReadStep, hserved]
  exact if_pos (List.isEmpty_iff.mpr hnone)

theorem mailboxSubmitStep_of_free {p : Nat} (hep : isEp c p = true) (hup : pcxUp c p = true) (hfree : (c.path (.mailbox p)).busy = false)
    (hserved : pathsServed c = true) :
    let b := (c.path (.mailbox p)).buf ++ List.replicate (320 - (c.path (.mailbox p)).buf.length) 0
    mailboxSubmitStep p c = pathAccept (.mailbox p) none (b.take (64 * leAt b 3 1)) c := by
  rw [mailboxSubmitStep, hep, hup, Bool.and_self, if_pos rfl, mailboxSubmitNow]
  simp only [hfree, hserved, Bool.not_true, Bool.false_eq_true, if_false]

/-! ### The management Ethernet (R87, R88, R554, R555) -/

section
variable {d : Datagram} (hserved : pathsServed c = true) (henable : c.rget NET MGT_NET_CTL_ENABLE = 1)
  (hfamily : d.v6 = decide (c.rget NET MGT_NET_CTL_IPV6 = 1))
include hserved henable hfamily

/-- A datagram reaches the allow list where the path is served and its family is the path's. -/
theorem mgtDatagram_served : (!pathsServed c || c.rget NET MGT_NET_CTL_ENABLE == 0 || d.v6 != (c.rget NET MGT_NET_CTL_IPV6 == 1)) = false := by
  rw [hserved, henable, hfamily]
  simp only [Bool.not_true, Bool.false_or]
  exact bne_self_eq_false _

theorem mgtDatagramStep_of_allowed {n : Nat} (hn : n < 16) (hallow : allows c d.v6 d.src n = true) (henvelope : envelopeOk d.bytes = true)
    (hheader : (d.bytes.drop 16).length ≥ 16) (hwhole : (d.bytes.drop 16).length = 64 * leAt (d.bytes.drop 16) 3 1) :
    let k := leAt d.bytes 4 4
    let e := makeSession k (c.rcount NET MGT_NET_ACCEPTED 1)
    mgtDatagramStep d c = pathAccept (.net k) (some ⟨leAt (d.bytes.drop 16) 4 4, false, d.v6, d.src, d.mac, d.sport⟩) (d.bytes.drop 16)
      (e.setPath (.net k) { e.path (.net k) with used := e.time }) := by
  have hany : (List.range 16).any (allows c d.v6 d.src) = true := List.any_eq_true.mpr ⟨n, List.mem_range.mpr hn, hallow⟩
  have hlength : ((d.bytes.drop 16).length == 64 * leAt (d.bytes.drop 16) 3 1) = true := beq_iff_eq.mpr hwhole
  rw [mgtDatagramStep, mgtDatagram_served hserved henable hfamily]
  simp only [hany, henvelope, decide_eq_true hheader, hlength, Bool.and_self, Bool.not_true, Bool.false_eq_true, if_false]

theorem mgtDatagramStep_of_foreign (hforeign : ∀ n < 16, allows c d.v6 d.src n = false) :
    mgtDatagramStep d c = c.rcount NET MGT_NET_DISCARDED 1 := by
  have hany : (List.range 16).any (allows c d.v6 d.src) = false :=
    List.any_eq_false.mpr fun n hn => by rw [hforeign n (List.mem_range.mp hn)]; exact Bool.false_ne_true
  rw [mgtDatagramStep, mgtDatagram_served hserved henable hfamily]
  simp only [hany, Bool.false_and, Bool.not_false, Bool.false_eq_true, if_false, if_true]

end

/-! ### ARP (R451, R555) -/

section
variable {r : ArpReq}

theorem arpRequestStep_of_management (hport : r.port = 9) (hserved : pathsServed c = true) (henable : c.rget NET MGT_NET_CTL_ENABLE = 1)
    (hfamily : r.v6 = decide (c.rget NET MGT_NET_CTL_IPV6 = 1)) (htarget : r.target = netAddr c) :
    arpRequestStep r c = c.emit (.arp 9 r.v6 r.target (c.rget NET MGT_NET_MAC) r.mac) := by
  have hv6 : (r.v6 == (c.rget NET MGT_NET_CTL_IPV6 == 1)) = true := beq_iff_eq.mpr hfamily
  rw [arpRequestStep, if_pos hport, hserved, henable, hv6, beq_iff_eq.mpr htarget]
  rfl

theorem arpRequestStep_of_encapsulated (hport : r.port < 9) (hstate : portState c r.port = 4)
    (huse : c.rget (AIHP r.port) AIH_PORT_STATUS_USE = 3) (hfamily : r.v6 = decide (c.rget AIH AIH_ENCAP_CUR_IPV6 = 1))
    (htarget : r.target = encapAddr c) :
    arpRequestStep r c = c.emit (.arp r.port r.v6 r.target (c.rget (AIHP r.port) AIH_PORT_MAC) r.mac) := by
  have hv6 : (r.v6 == (c.rget AIH AIH_ENCAP_CUR_IPV6 == 1)) = true := beq_iff_eq.mpr hfamily
  rw [arpRequestStep, if_neg (Nat.ne_of_lt hport), hstate, huse, hv6, beq_iff_eq.mpr htarget]
  rfl

end

/-! ### Repeats (R40, R88) -/

/-- A request that is sound, not newer and in no duplicate window is answered with DUPLICATE_SUPPRESSED. -/
theorem pathAccept_of_suppressed {k : Carrier} (f : Option NetFrom) {bytes : List Byte} {l : Nat} (hcheck : headerCheck (bytes.take 16) = 0)
    (hwhole : bytes.length = 64 * leAt bytes 3 1) (hlast : (c.path k).last = some l) (hold : seqNewer (leAt bytes 4 4) l = false)
    (hwindow : (c.path k).window.find? (fun y => y.seq == leAt bytes 4 4) = none) :
    pathAccept k f bytes c = pathAnswer k f
      (recordBytes c (leAt bytes 4 4) sDupSupp (engByte (bits (leAt bytes 0 2) 12 4) 0) 0xFF (setDflag (detail []) 1)) c := by
  have hsound : (decide (headerCheck (bytes.take 16) ≠ 0) || bytes.length != 64 * leAt bytes 3 1) = false := by
    rw [hcheck, hwhole, bne_self_eq_false]
    rfl
  have hrepeat : pathAccept k f bytes c = pathRepeat k f (leAt bytes 4 4) (bits (leAt bytes 0 2) 12 4) c := by
    rw [pathAccept, hsound]
    simp only [hlast, hold, Bool.false_eq_true, if_false]
  rw [hrepeat]
  simp only [pathRepeat, hwindow]

end

/-- Settles O50: each request comes to what its path and its header ask. -/
theorem pathCommandsAct : Obligations.PathCommandsAct := by
  intro s c
  refine ⟨?smbus, ?refused, ?read, ?mailbox, ?net, ?arp, ?repeated, fun hwf => gives_of_run rfl hwf rfl⟩
  case smbus =>
    exact fun bytes len hwf hserved hfree hmin hmax hlen hwhole =>
      gives_of_run rfl hwf (smbusRequestStep_of_whole hserved hfree hmin hmax hlen hwhole)
  case refused => exact fun pec bytes hwf h => gives_of_run rfl hwf (smbusRequestStep_of_refused bytes h)
  case read =>
    exact fun hserved => ⟨fun hfree hnext => gives_of_run rfl rfl (smbusReplyReadStep_of_record hserved hfree hnext),
      fun h => gives_of_run rfl rfl (smbusReplyReadStep_of_none hserved h)⟩
  case mailbox => exact fun p hwf hep hup hfree hserved => gives_of_run rfl hwf (mailboxSubmitStep_of_free hep hup hfree hserved)
  case net =>
    exact fun d hwf hserved henable hfamily =>
      ⟨fun n hn hallow henvelope hheader hwhole =>
        gives_of_run rfl hwf (mgtDatagramStep_of_allowed hserved henable hfamily hn hallow henvelope hheader hwhole),
      fun hforeign => gives_of_run rfl hwf (mgtDatagramStep_of_foreign hserved henable hfamily hforeign)⟩
  case arp =>
    exact fun r hwf =>
      ⟨fun hport hserved henable hfamily htarget => gives_of_run rfl hwf (arpRequestStep_of_management hport hserved henable hfamily htarget),
      fun hport hstate huse hfamily htarget => gives_of_run rfl hwf (arpRequestStep_of_encapsulated hport hstate huse hfamily htarget)⟩
  case repeated =>
    exact fun k f bytes hcheck hwhole l hlast hold hwindow => pathAccept_of_suppressed f hcheck hwhole hlast hold hwindow

end Sys2Proof.Machine

/-! Queue pages (R35 to R37, R47, R48, R541): what a write of the right width does, and a doorbell in the order of R36. -/

namespace Sys2Proof.Machine

open Sys2Proof

/-! ### Serial-number order (R35) -/

/-- A difference of two indices is the one of the integers, in as many bits. -/
theorem wrapSub_cast (w a b : Nat) : ((wrapSub w a b : Nat) : Int) = ((a : Int) - b) % 2 ^ w := by
  have hb : b % 2 ^ w ≤ a % 2 ^ w + 2 ^ w := by have := Nat.mod_lt b (Nat.two_pow_pos w); omega
  rw [wrapSub, Int.natCast_mod, Nat.cast_sub hb]
  push_cast
  rw [add_sub_right_comm, Int.add_emod_right, ← Int.sub_emod]

theorem seqNewer_iff (a b : Nat) : seqNewer a b = true ↔ 1 ≤ ((a : Int) - b) % 2 ^ 32 ∧ ((a : Int) - b) % 2 ^ 32 ≤ 2 ^ 31 - 1 := by
  simp only [seqNewer, Bool.and_eq_true, decide_eq_true_eq, ge_iff_le]
  rw [← wrapSub_cast]
  omega

/-! ### The width of a write (R35, R539) -/

section
variable {c : Chip}

theorem pageWrite_of_width (hup : c.up = true) (width q off : Nat) (p : Path) : pageWrite width q off width p c = (true, c) := by
  simp only [pageWrite, hup, Bool.not_true, Bool.false_eq_true, if_false, if_true]

theorem pageWrite_of_narrow (hup : c.up = true) {width size : Nat} (q off : Nat) (p : Path) (hne : size ≠ width)
    (hsize : size = 1 ∨ size = 2 ∨ size = 4) : pageWrite width q off size p c = (false, accLog 1 (q * 64 + off) .narrow p c) := by
  have hnarrow : (decide (size = 1) || size == 2 || size == 4) = true := by
    rcases hsize with rfl | rfl | rfl <;> rfl
  simp only [pageWrite, hup, hnarrow, hne, Bool.not_true, Bool.false_eq_true, if_false, if_true]

/-! ### Doorbells (R36) -/

theorem qprDoorbellStep_of_width (hup : c.up = true) (p : Path) (q v : Nat) : qprDoorbellStep p q 8 v c = doorbell q v c := by
  simp only [qprDoorbellStep, pageWrite_of_width hup, if_true]

theorem qprDoorbellStep_of_narrow (hup : c.up = true) {size : Nat} (p : Path) (q v : Nat) (hsize : size = 1 ∨ size = 2 ∨ size = 4) :
    qprDoorbellStep p q size v c = accLog 1 (q * 64) .narrow p c := by
  simp only [qprDoorbellStep, pageWrite_of_narrow hup q 0 p (show size ≠ 8 by omega) hsize, Bool.false_eq_true, if_false, Nat.add_zero]

/-- A doorbell that has no effect but on STALE_DB. -/
def Chip.staleDoorbell (c : Chip) (q : Nat) : Chip := c.setQueue q { c.queue q with staleDb := min ((c.queue q).staleDb + 1) 0xFFF }

theorem satAdd_eq_min (x n m : Nat) : satAdd x n m = min (x + n) m := by
  rw [satAdd]
  split <;> omega

section
variable {q v : Nat}

theorem doorbell_of_off (h : (c.queue q).st = .disabled ∨ (c.queue q).st = .draining) : doorbell q v c = c.staleDoorbell q := by
  have hoff : (decide ((c.queue q).st = .disabled) || decide ((c.queue q).st = .draining)) = true := by
    simpa only [Bool.or_eq_true, decide_eq_true_eq] using h
  rw [doorbell, Chip.staleDoorbell, ← satAdd_eq_min]
  exact if_pos hoff

/-- Slots between HEAD and TAIL if a doorbell is taken. -/
def Queue.left (x : Queue) (tail : Nat) : Int := ((x.tail : Int) - x.head) % 2 ^ x.sqLog2 + ((tail : Int) - x.tail) % 2 ^ x.sqLog2

theorem ringDiff_gt_iff (x : Queue) (tail : Nat) :
    ringDiff x.sqLog2 x.tail x.head + ringDiff x.sqLog2 tail x.tail > 2 ^ x.sqLog2 - 1 ↔ x.left tail > 2 ^ x.sqLog2 - 1 := by
  have hpos : 1 ≤ 2 ^ x.sqLog2 := Nat.one_le_two_pow
  rw [Queue.left, ← wrapSub_cast, ← wrapSub_cast, ringDiff, ringDiff]
  zify [hpos]

/-- A doorbell of a queue that is neither DISABLED nor DRAINING is repeated, not newer, too far, or accepted. -/
theorem doorbell_of_on (hdisabled : (c.queue q).st ≠ .disabled) (hdraining : (c.queue q).st ≠ .draining) :
    let x := c.queue q
    let tail := v % 2 ^ 20
    let seq := v / 2 ^ 32 % 2 ^ 32
    doorbell q v c =
      if seq = x.lastDbSeq ∧ tail = x.tail then c
      else if ¬ seqNewer seq x.lastDbSeq = true then c.staleDoorbell q
      else if tail ≥ 2 ^ x.sqLog2 ∨ x.left tail > 2 ^ x.sqLog2 - 1 then overrun q tail seq c
      else (c.setQueue q { x with tail := tail, lastDbSeq := seq }).rcount (QPB (q % 2)) QPR_DOORBELLS 1 := by
  intro x tail seq
  have htail : bits v 0 20 = tail := by rw [bits, pow_zero, Nat.div_one]
  have hon : (decide (x.st = .disabled) || decide (x.st = .draining)) = false := by
    rw [decide_eq_false hdisabled, decide_eq_false hdraining]; rfl
  rw [doorbell, Chip.staleDoorbell, ← satAdd_eq_min, htail, hon]
  simp only [Bool.false_eq_true, if_false, Bool.and_eq_true, Bool.or_eq_true, decide_eq_true_eq, beq_iff_eq, Bool.not_eq_true',
    Bool.not_eq_true, ringDiff_gt_iff]
  rfl

end

/-! ### Consumed counters (R45, R48) -/

theorem qprCqConsumedStep_of_width (hup : c.up = true) (p : Path) (q v : Nat) :
    qprCqConsumedStep p q 4 v c = c.setQueue q { c.queue q with cqConsumed := v % 2 ^ 32 } := by
  simp only [qprCqConsumedStep, pageWrite_of_width hup, if_true]

theorem qprEqConsumedStep_of_width (hup : c.up = true) (p : Path) {q n : Nat} (v : Nat) (hctx : queueCtx c q = some n) :
    qprEqConsumedStep p q 4 v c = consumeEq n v c := by
  simp only [qprEqConsumedStep, pageWrite_of_width hup, if_true, hctx]

theorem consumeEq_of_none_dropped {n : Nat} (v : Nat) (h : (c.ctx n).held = none ∨ (c.ctx n).heldDrops = 0) :
    consumeEq n v c = c.setCtx n { c.ctx n with eqConsumed := v % 2 ^ 32 } := by
  rw [consumeEq]
  rcases h with h | h
  · simp only [h]
  · simp only [h, gt_iff_lt, Nat.lt_irrefl, false_and, if_false]
    split <;> rfl

end

/-- Settles O8: a write of the right width takes effect (`pageWrite_of_width`), and a doorbell's effect is that of its first case in R36. -/
theorem queuePageWritesAct : Obligations.QueuePageWritesAct := by
  intro s p q v hup c x tail seq stale left
  have hdoorbell {e : Chip} (hwf : (Instr.qprDoorbell p q 8 v).wf = true) (h : doorbell q v c = e) : Gives (.qprDoorbell p q 8 v) s e :=
    gives_of_run rfl hwf ((qprDoorbellStep_of_width hup p q v).trans h)
  refine ⟨fun hwf hoff _ => hdoorbell hwf (doorbell_of_off hoff), fun hwf hdisabled hdraining => ?on, ?narrow, ?cq, ?eq⟩
  case on =>
    have hon := doorbell_of_on (c := c) (v := v) hdisabled hdraining
    refine ⟨fun hsame => hdoorbell hwf (hon.trans (if_pos hsame)), fun hdiff => ?_⟩
    have hrest := hon.trans (if_neg hdiff)
    refine ⟨fun hold _ => hdoorbell hwf (hrest.trans (if_pos (mt (seqNewer_iff _ _).mp hold))), fun hnew hfar => ?_, fun hnew hin hleft => ?_⟩
    · exact hdoorbell hwf (hrest.trans ((if_neg (not_not.mpr ((seqNewer_iff _ _).mpr hnew))).trans (if_pos hfar)))
    · exact hdoorbell hwf (hrest.trans ((if_neg (not_not.mpr ((seqNewer_iff _ _).mpr hnew))).trans
        (if_neg (not_or.mpr ⟨Nat.not_le.mpr hin, Int.not_lt.mpr hleft⟩))))
  case narrow => exact fun sz hwf hsize => gives_of_run rfl hwf (qprDoorbellStep_of_narrow hup p q v hsize)
  case cq => exact fun hwf => gives_of_run rfl hwf (qprCqConsumedStep_of_width hup p q v)
  case eq =>
    exact fun hwf n hctx hdrops =>
      gives_of_run rfl hwf ((qprEqConsumedStep_of_width hup p v hctx).trans (consumeEq_of_none_dropped v hdrops))

end Sys2Proof.Machine

/-! COMMAND_FETCH (R31, R37 to R41, R45 to R47, R66, R67): what it takes from a ring that holds a command, and how a new command enters. -/

namespace Sys2Proof.Machine

open Sys2Proof

/-! ### What the ring holds (R37, R41, R45, R66) -/

/-- COMMAND_FETCH may take a command of a queue. -/
def Chip.fetches (c : Chip) (q : Nat) : Prop :=
  c.up = true ∧ (c.queue q).st = .enabled ∧ (c.queue q).head ≠ (c.queue q).tail ∧ (c.cmdsOf (.queue q)).length < 64 ∧ cqFree c q = true

/-- The slot that HEAD names. -/
def Chip.slot (c : Chip) (q : Nat) : List Byte := slotBytes c (c.queue q) (c.queue q).head

/-- HEAD after the command that stands there. -/
def Chip.headAfter (c : Chip) (q : Nat) : Nat := ((c.queue q).head + leAt (c.slot q) 3 1) % 2 ^ (c.queue q).sqLog2

/-- The bytes of all slots of that command. -/
def Chip.slotsOf (c : Chip) (q : Nat) : List Byte :=
  (List.range (leAt (c.slot q) 3 1)).flatMap (fun i => slotBytes c (c.queue q) ((c.queue q).head + i))

/-- CHECK is 0 where none of its three bits is set. -/
theorem checkBits_ne_zero_iff : ∀ x y z : Bool, b2n x + 2 * b2n y + 4 * b2n z ≠ 0 ↔ x = true ∨ y = true ∨ z = true := by decide

theorem headerCheck_ne_zero_iff (h : List Byte) : headerCheck h ≠ 0 ↔
    crc8 (h.take 14) ≠ leAt h 14 1 ∨ leAt h 15 1 ≠ 0 ∨ leAt h 3 1 = 0 ∨ leAt h 3 1 > 16 := by
  rw [headerCheck, checkBits_ne_zero_iff, bne_iff_ne, bne_iff_ne, Bool.or_eq_true, beq_iff_eq, decide_eq_true_iff]

section
variable {q : Nat} {c : Chip} (hfetches : c.fetches q)
include hfetches

theorem fetches_guard : (!(c.up && decide ((c.queue q).st = .enabled) && (c.queue q).head != (c.queue q).tail &&
    decide ((c.cmdsOf (.queue q)).length < 64) && cqFree c q)) = false := by
  obtain ⟨hup, hst, hne, hlen, hfree⟩ := hfetches
  rw [hup, hst, bne_iff_ne.mpr hne, decide_eq_true hlen, hfree]
  rfl

theorem commandFetchStep_of_badHeader (hbad : headerCheck (c.slot q) ≠ 0) : commandFetchStep q c = badHeader q (c.slot q) c := by
  simp only [commandFetchStep, fetches_guard hfetches, Bool.false_eq_true, if_false]
  exact if_pos hbad

section
variable (hheader : headerCheck (c.slot q) = 0)
include hheader

/-- With a good header the command is past the ring, incomplete, a duplicate or new. -/
theorem commandFetchStep_of_header : let x := c.queue q
    let len := leAt (c.slot q) 3 1
    let head := if x.head + len > 2 ^ x.sqLog2 then 0 else c.headAfter q
    commandFetchStep q c =
      if !decide (x.head + len > 2 ^ x.sqLog2) && decide (len > ringDiff x.sqLog2 x.tail x.head) then c
      else if !seqNewer (leAt (c.slot q) 4 4) x.lastAccepted then
        fetchDup q (leAt (c.slot q) 4 4) (bits (leAt (c.slot q) 0 2) 12 4) (c.setQueue q { x with head := head })
      else fetchNew q head (decide (x.head + len > 2 ^ x.sqLog2)) (if x.head + len > 2 ^ x.sqLog2 then c.slot q else c.slotsOf q) c := by
  intro x len head
  have hgood : ¬ headerCheck (slotBytes c (c.queue q) (c.queue q).head) ≠ 0 := not_not.mpr hheader
  simp only [commandFetchStep, fetches_guard hfetches, hgood, Bool.false_eq_true, if_false]
  rfl

theorem commandFetchStep_of_past (hpast : (c.queue q).head + leAt (c.slot q) 3 1 > 2 ^ (c.queue q).sqLog2)
    (hnew : seqNewer (leAt (c.slot q) 4 4) (c.queue q).lastAccepted = true) : commandFetchStep q c = fetchNew q 0 true (c.slot q) c := by
  rw [commandFetchStep_of_header hfetches hheader]
  simp only [hpast, hnew, decide_true, Bool.not_true, Bool.false_and, Bool.false_eq_true, if_false, if_true]

section
variable (hin : (c.queue q).head + leAt (c.slot q) 3 1 ≤ 2 ^ (c.queue q).sqLog2)
include hin

theorem commandFetchStep_of_incomplete
    (hlen : leAt (c.slot q) 3 1 > ringDiff (c.queue q).sqLog2 (c.queue q).tail (c.queue q).head) : commandFetchStep q c = c := by
  rw [commandFetchStep_of_header hfetches hheader]
  simp only [Nat.not_lt.mpr hin, gt_iff_lt.mp hlen, decide_false, decide_true, Bool.not_false, Bool.and_self, if_true]

section
variable (hlen : leAt (c.slot q) 3 1 ≤ ringDiff (c.queue q).sqLog2 (c.queue q).tail (c.queue q).head)
include hlen

theorem commandFetchStep_of_old (hold : seqNewer (leAt (c.slot q) 4 4) (c.queue q).lastAccepted = false) :
    commandFetchStep q c = fetchDup q (leAt (c.slot q) 4 4) (bits (leAt (c.slot q) 0 2) 12 4)
      (c.setQueue q { c.queue q with head := c.headAfter q }) := by
  rw [commandFetchStep_of_header hfetches hheader]
  simp only [Nat.not_lt.mpr hin, Nat.not_lt.mpr hlen, hold, decide_false, Bool.not_false, Bool.and_false, Bool.false_eq_true,
    if_false, if_true]

theorem commandFetchStep_of_new (hnew : seqNewer (leAt (c.slot q) 4 4) (c.queue q).lastAccepted = true) :
    commandFetchStep q c = fetchNew q (c.headAfter q) false (c.slotsOf q) c := by
  rw [commandFetchStep_of_header hfetches hheader]
  simp only [Nat.not_lt.mpr hin, Nat.not_lt.mpr hlen, hnew, decide_false, Bool.not_true, Bool.and_false, Bool.false_eq_true,
    if_false]

end

end

end

end

/-! ### Duplicates (R40) -/

section
variable {q seq cls head : Nat} {c : Chip}

/-- A queue whose HEAD moves past a duplicate, which is counted. -/
def Chip.countDup (c : Chip) (q head : Nat) : Chip := (c.setQueue q { c.queue q with head := head }).rcount (QPB (q % 2)) QPR_DUPLICATES 1

theorem Chip.queue_congr {c d : Chip} (h : d.queues = c.queues) (q : Nat) : d.queue q = c.queue q := by
  rw [Chip.queue, h, Chip.queue]

theorem Chip.queue_countDup (c : Chip) (q head : Nat) : (c.countDup q head).queue q = { c.queue q with head := head } := by
  rw [Chip.countDup, Chip.queue_congr (Chip.rcount_queues _ _ _ _), Chip.queue_setQueue, if_pos rfl]

theorem fetchDup_of_unknown (hwindow : (c.queue q).window.find? (fun y => y.seq == seq) = none) :
    fetchDup q seq cls (c.setQueue q { c.queue q with head := head }) =
      writeCq q (recordBytes (c.countDup q head) seq sDupSupp (engByte cls (c.queue q).defHalf) 0 (setDflag (detail []) 1)) (c.countDup q head) := by
  simp only [fetchDup, Chip.queue_setQueue, if_true, hwindow]
  rfl

theorem fetchDup_of_retired {r : Res} (hwindow : (c.queue q).window.find? (fun y => y.seq == seq) = some ⟨seq, some r⟩) :
    fetchDup q seq cls (c.setQueue q { c.queue q with head := head }) =
      writeCq q (recordBytes (c.countDup q head) seq r.status (engByte cls (c.queue q).defHalf) 0 (setDflag r.detail 0)) (c.countDup q head) := by
  simp only [fetchDup, Chip.queue_setQueue, if_true, hwindow]
  rfl

theorem fetchDup_of_inFlight (hwindow : (c.queue q).window.find? (fun y => y.seq == seq) = some ⟨seq, none⟩) :
    fetchDup q seq cls (c.setQueue q { c.queue q with head := head }) =
      (c.countDup q head).setQueue q
        { (c.countDup q head).queue q with dups := (c.queue q).dups ++ [⟨seq, cls, (c.queue q).defHalf⟩] } := by
  rw [Chip.queue_countDup]
  simp only [fetchDup, Chip.queue_setQueue, if_true, hwindow]
  rfl

end

/-- Settles O9: a header that fails is `badHeader`, and a command that stands whole in the ring with an old SEQ is `fetchDup`, by what the
window holds. -/
theorem fetchHandlesHeadersAndDuplicates : Obligations.FetchHandlesHeadersAndDuplicates := by
  intro s q hwf c x h len seq b counted hup hst hne hcmds hfree
  have hfetches : c.fetches q := ⟨hup, hst, hne, hcmds, hfree⟩
  refine ⟨fun hbad => ?bad, fun hheader hin hlen => ?incomplete, fun hheader hin hlen hold => ?duplicate⟩
  case bad => exact gives_of_run rfl hwf (commandFetchStep_of_badHeader hfetches ((headerCheck_ne_zero_iff h).mpr hbad))
  case incomplete => exact gives_of_run rfl hwf (commandFetchStep_of_incomplete hfetches hheader hin hlen)
  case duplicate =>
    have hdup := commandFetchStep_of_old hfetches hheader hin hlen hold
    exact ⟨fun hwindow => gives_of_run rfl hwf (hdup.trans (fetchDup_of_unknown hwindow)),
      fun r hwindow => gives_of_run rfl hwf (hdup.trans (fetchDup_of_retired hwindow)),
      fun hwindow => gives_of_run rfl hwf (hdup.trans (fetchDup_of_inFlight hwindow))⟩

/-! ### A command past the ring (R38) -/

theorem fetchNew_of_past (q head : Nat) (bytes : List Byte) (c : Chip) : fetchNew q head true bytes c =
    enterEnd q (newCmd q bytes c) malformedRes (c.setQueue q { c.queue q with head := head }) := rfl

/-- Settles O11: what is past the ring is no more than MALFORMED. -/
theorem fetchPastTheRingIsMalformed : Obligations.FetchPastTheRingIsMalformed := by
  intro s q hwf c x h m hup hst hne hcmds hfree hheader hpast hnew
  exact gives_of_run rfl hwf (commandFetchStep_of_past (c := c) ⟨hup, hst, hne, hcmds, hfree⟩ hheader hpast hnew)

/-! ### A new command is accepted (R31, R40, R51, R67, R343) -/

/-- Pages that all translate raise no fault and hold no command (R349). -/
theorem earlyFaults_of_good {m : Cmd} (hpages : ∀ p ∈ m.pages, p.bad = none) (c : Chip) : earlyFaults m c = c := by
  have hraised : m.pages.foldl (fun c p => if (p.bad).isSome && !p.declined then (raiseFault m.half (pageFault m p true) c).2 else c) c = c :=
    (foldl_congr_mem (g := fun c _ => c) m.pages (fun c p hp => by rw [hpages p hp]; rfl) c).trans (List.foldl_fixed m.pages)
  have hheld : heldByFault m = false := by
    rw [heldByFault, heldPages, List.filter_eq_nil_iff.mpr fun p hp => by rw [hpages p hp]; exact Bool.false_ne_true]
    rfl
  rw [earlyFaults, hraised, hheld]
  exact if_neg fun h => Bool.false_ne_true h.1

/-- Only the fabric's part changes as a collective is accepted (R461). -/
theorem acceptColl_eq (m : Cmd) (c : Chip) : acceptColl m c = { c with fab := (acceptColl m c).fab } := by
  rw [acceptColl]
  split <;> rfl

@[simp] theorem acceptColl_cmds (m : Cmd) (c : Chip) : (acceptColl m c).cmds = c.cmds := by rw [acceptColl_eq]
@[simp] theorem acceptColl_queues (m : Cmd) (c : Chip) : (acceptColl m c).queues = c.queues := by rw [acceptColl_eq]
@[simp] theorem acceptColl_mem (m : Cmd) (c : Chip) : (acceptColl m c).mem = c.mem := by rw [acceptColl_eq]
@[simp] theorem acceptColl_sbd (m : Cmd) (c : Chip) : (acceptColl m c).sbd = c.sbd := by rw [acceptColl_eq]

theorem windowPush_eq (w : List Seen) (x : Seen) : windowPush w x = (w ++ [x]).drop (w.length + 1 - 64) := by
  rw [windowPush, List.length_append]
  rfl

/-- A queue's state as a command enters it (R40). -/
def Queue.entered (x : Queue) (seq : Nat) : Queue :=
  { x with lastAccepted := seq, window := windowPush x.window ⟨seq, none⟩, accepted := x.accepted + 1, chainBroken := false }

@[simp] theorem enter_cmds (q : Nat) (m : Cmd) (c : Chip) : (enter q m c).cmds = c.cmds ++ [m] := by rw [enter, Chip.rcount_cmds]; rfl
@[simp] theorem enter_queues (q : Nat) (m : Cmd) (c : Chip) : (enter q m c).queues = (c.setQueue q ((c.queue q).entered m.seq)).queues := by
  rw [enter, Chip.rcount_queues]; rfl
@[simp] theorem enter_mem (q : Nat) (m : Cmd) (c : Chip) : (enter q m c).mem = c.mem := by rw [enter, Chip.rcount_mem]; rfl
@[simp] theorem enter_sbd (q : Nat) (m : Cmd) (c : Chip) : (enter q m c).sbd = c.sbd := by rw [enter, Chip.rcount_sbd]; rfl

/-- The same bytes read the same. -/
theorem SameMemory.of_eq {a b : Chip} (hmem : b.mem = a.mem) (hsbd : b.sbd = a.sbd) : SameMemory a b :=
  ⟨fun x => by rw [Chip.rdByte, hmem, Chip.rdByte], fun h o => by rw [Chip.rdSbd, hsbd, Chip.rdSbd]⟩

/-- A command in the module, its queue's current half being `cur`, with its group's CSEQ and its runs counted. -/
def Chip.accept (c : Chip) (q cur : Nat) (m : Cmd) : Chip :=
  (acceptColl m (enter q m (c.setQueue q { c.queue q with curHalf := cur }))).rcount (XLT (q % 2)) XLT_RUNS m.runs

section
variable {c : Chip} {q : Nat} {m : Cmd} (cur : Nat)

theorem Chip.cmds_accept : (c.accept q cur m).cmds = c.cmds ++ [m] := by
  simp only [Chip.accept, Chip.rcount_cmds, acceptColl_cmds, enter_cmds, Chip.setQueue_cmds]

/-- A command of a name that no other has is found once it is in the module. -/
theorem Chip.findCmd_accept (hnew : c.findCmd m.car m.seq = none) : (c.accept q cur m).findCmd m.car m.seq = some m := by
  have hself : cmdIs m.car m.seq m = true := by rw [cmdIs, decide_eq_true rfl, beq_self_eq_true]; rfl
  have hnone : c.cmds.find? (cmdIs m.car m.seq) = none := hnew
  rw [Chip.findCmd, Chip.cmds_accept, List.find?_append, hnone, List.find?_cons_of_pos hself]
  rfl

/-- The queues once a command of queue q is in the module: q's has taken its SEQ (R40), the others are as they were. -/
theorem Chip.queue_accept (k : Nat) :
    (c.accept q cur m).queue k = if k = q then ({ c.queue q with curHalf := cur } : Queue).entered m.seq else c.queue k := by
  have hqueues : (c.accept q cur m).queues = ((c.setQueue q { c.queue q with curHalf := cur }).setQueue q
      (((c.setQueue q { c.queue q with curHalf := cur }).queue q).entered m.seq)).queues := by
    simp only [Chip.accept, Chip.rcount_queues, acceptColl_queues, enter_queues]
  rw [Chip.queue_congr hqueues, Chip.queue_setQueue, Chip.queue_setQueue, Chip.queue_setQueue, if_pos rfl]
  split <;> rfl

theorem Chip.mem_accept : (c.accept q cur m).mem = c.mem := by
  simp only [Chip.accept, Chip.rcount_mem, acceptColl_mem, enter_mem, Chip.setQueue_mem]

theorem Chip.sbd_accept : (c.accept q cur m).sbd = c.sbd := by
  simp only [Chip.accept, Chip.rcount_sbd, acceptColl_sbd, enter_sbd, Chip.setQueue_sbd]

end

/-- A command with the half that Surveyor chooses for it (R333). -/
def Cmd.placed (m : Cmd) (q : Nat) (c : Chip) : Cmd := { m with half := (chooseHalf c (c.queue q) m).1, both := (chooseHalf c (c.queue q) m).2.1 }

/-- A command with the extents that its half's scoreboard holds (R257). -/
def Cmd.withExtents (m : Cmd) (c : Chip) : Cmd := { m with sbExt := cmdSbExts c m }

/-- A command that will wait to issue enters, its faults are raised and its wait-list entry takes its place (R31, R346). -/
def enterWaiting (q cur : Nat) (m : Cmd) (c : Chip) : Chip :=
  let d := (earlyFaults m (acceptColl m (enter q m (c.setQueue q { c.queue q with curHalf := cur })))).rcount (XLT (q % 2)) XLT_RUNS m.runs
  match d.findCmd m.car m.seq with
  | some m => startPreWait q m d
  | none => d

/-- A newer command ends at once, or waits to issue. -/
theorem acceptCmd_eq (q : Nat) (m : Cmd) (c : Chip) : acceptCmd q m c =
    if (m.placed q c).runs > 2097152 || !paramsOk c (m.placed q c) then enterEnd q (m.placed q c) malformedRes c
    else if (c.queue q).chainBroken then enterEnd q (m.placed q c) (abortRes (m.placed q c) 4) c
    else match accessErr c (m.placed q c) with
    | some r => enterEnd q (m.placed q c) r c
    | none => enterWaiting q (chooseHalf c (c.queue q) m).2.2 ((m.placed q c).withExtents c) c := rfl

section
variable {c : Chip} {q : Nat} {m : Cmd}

theorem enterWaiting_of_good (cur : Nat) (hpages : ∀ p ∈ m.pages, p.bad = none) (hwait : m.preWaitField = 0)
    (hnew : c.findCmd m.car m.seq = none) : enterWaiting q cur m c = c.accept q cur m := by
  have hfound := Chip.findCmd_accept (q := q) cur hnew
  rw [Chip.accept] at hfound ⊢
  simp only [enterWaiting, earlyFaults_of_good hpages, hfound]
  exact if_pos hwait

/-- A whole command whose pages all translate, whose access is permitted and which names no wait-list entry waits to issue. -/
theorem acceptCmd_of_permitted (hruns : m.runs ≤ 2097152) (hparams : paramsOk c (m.placed q c) = true)
    (hchain : (c.queue q).chainBroken = false) (haccess : accessErr c (m.placed q c) = none) (hpages : ∀ p ∈ m.pages, p.bad = none)
    (hwait : m.preWaitField = 0) (hnew : c.findCmd m.car m.seq = none) :
    acceptCmd q m c = c.accept q (chooseHalf c (c.queue q) m).2.2 ((m.placed q c).withExtents c) := by
  have hfew : ¬ (m.placed q c).runs > 2097152 := Nat.not_lt.mpr hruns
  have hwaiting : acceptCmd q m c = enterWaiting q (chooseHalf c (c.queue q) m).2.2 ((m.placed q c).withExtents c) c := by
    rw [acceptCmd_eq, haccess, hparams, hchain, decide_eq_false hfew]
    rfl
  exact hwaiting.trans (enterWaiting_of_good _ hpages hwait hnew)

end

section
variable {c : Chip} {q : Nat} {bytes : List Byte}

/-- The pages of the command of some slots, walked for its queue's half (R342), and the module after the walk. -/
def fetchPages (q : Nat) (bytes : List Byte) (c : Chip) : List XPage × Chip :=
  xlatePages (q % 2) (newCmd q bytes c).ctx (c.ctxDesc (newCmd q bytes c).ctx).ptRoot (cmdNeeds (newCmd q bytes c)) c

/-- That command with its pages and runs. -/
def fetchCmd (q : Nat) (bytes : List Byte) (c : Chip) : Cmd :=
  { newCmd q bytes c with pages := (fetchPages q bytes c).1, runs := runCount (fetchPages q bytes c).1 }

/-- The module once the pages have been walked and HEAD has moved. -/
def fetchMoved (q head : Nat) (bytes : List Byte) (c : Chip) : Chip :=
  let d := (fetchPages q bytes c).2.rput (XLT (q % 2)) XLT_STATUS_STORE_WAIT 0
  d.setQueue q { d.queue q with head := head }

theorem fetchNew_of_room {head : Nat} (hparams : paramsOk c (newCmd q bytes c) = true)
    (hwait : preWaitOk c (c.queue q) (newCmd q bytes c) = true) (hroom : (fetchCmd q bytes c).runs ≤ storeFree c (q % 2)) :
    fetchNew q head false bytes c = acceptCmd q (fetchCmd q bytes c) (fetchMoved q head bytes c) := by
  have hstore : (decide ((fetchCmd q bytes c).runs ≤ 2097152) && decide ((fetchCmd q bytes c).runs > storeFree c (q % 2))) = false := by
    rw [decide_eq_false (Nat.not_lt.mpr hroom), Bool.and_false]
  have heq : fetchNew q head false bytes c =
      if false || !paramsOk c (newCmd q bytes c) || !preWaitOk c (c.queue q) (newCmd q bytes c) then
        enterEnd q (newCmd q bytes c) malformedRes (c.setQueue q { c.queue q with head := head })
      else if decide ((fetchCmd q bytes c).runs ≤ 2097152) && decide ((fetchCmd q bytes c).runs > storeFree c (q % 2)) then
        (fetchPages q bytes c).2.rput (XLT (q % 2)) XLT_STATUS_STORE_WAIT 1
      else acceptCmd q (fetchCmd q bytes c) (fetchMoved q head bytes c) := rfl
  rw [heq, hparams, hwait, hstore]
  rfl

end

/-- Settles O10: the command that stands in the ring is new (`commandFetchStep_of_new`), finds room in the run store and is permitted, so it
waits in the module (`Chip.accept`), which has changed its own queue alone and no memory. -/
theorem fetchAcceptsNewCommands : Obligations.FetchAcceptsNewCommands := by
  intro s q hwf c x h len m0 r m1 base y moved o m n hup hst hne hcmds hfree hheader hin hlen hnew hparams hplaced hwait hfield hruns hroom hchain
    haccess hpages hname
  have hqueue : moved.queue q = y := (base.queue_setQueue q q y).trans (if_pos rfl)
  have hcmds' : moved.cmds = r.2.cmds := (base.setQueue_cmds q y).trans (r.2.rput_cmds (XLT (q % 2)) XLT_STATUS_STORE_WAIT 0)
  have hname' : moved.findCmd n.car n.seq = none := by rw [Chip.findCmd, hcmds']; exact hname
  have ho : chooseHalf moved (moved.queue q) m1 = o := by rw [hqueue]
  have hm : m1.placed q moved = m := by rw [Cmd.placed, ho]
  have hpermitted : acceptCmd q m1 moved = moved.accept q o.2.2 n := by
    have h := acceptCmd_of_permitted (c := moved) (q := q) (m := m1) hruns (by rw [hm]; exact hplaced) (by rw [hqueue]; exact hchain)
      (by rw [hm]; exact haccess) hpages hfield hname'
    rw [ho, hm] at h
    exact h
  have haccept : commandFetchStep q c = moved.accept q o.2.2 n :=
    calc commandFetchStep q c = fetchNew q (c.headAfter q) false (c.slotsOf q) c :=
          commandFetchStep_of_new ⟨hup, hst, hne, hcmds, hfree⟩ hheader hin hlen hnew
      _ = acceptCmd q m1 moved := fetchNew_of_room (bytes := c.slotsOf q) hparams hwait hroom
      _ = moved.accept q o.2.2 n := hpermitted
  refine ⟨moved.accept q o.2.2 n, gives_of_run rfl hwf haccept, by rw [Chip.cmds_accept, hcmds'], Chip.findCmd_accept _ hname', ?queue,
    fun k hk => ?others, SameMemory.of_eq ((Chip.mem_accept _).trans ?mem) ((Chip.sbd_accept _).trans ?sbd)⟩
  case queue =>
    rw [Chip.queue_accept, if_pos rfl, hqueue, Queue.entered, windowPush_eq, ← hchain]
  case others =>
    rw [Chip.queue_accept, if_neg hk, Chip.queue_setQueue, if_neg hk]
    exact Chip.queue_congr (r.2.rput_queues (XLT (q % 2)) XLT_STATUS_STORE_WAIT 0) k
  case mem => exact (base.setQueue_mem q y).trans (r.2.rput_mem (XLT (q % 2)) XLT_STATUS_STORE_WAIT 0)
  case sbd => exact (base.setQueue_sbd q y).trans (r.2.rput_sbd (XLT (q % 2)) XLT_STATUS_STORE_WAIT 0)

end Sys2Proof.Machine

/-! COMMAND_ISSUE, PRIORITY_RAISE and COMMAND_RETIRE (R42, R50, R53, R54, R62, R487), and completion records in their ring (R43, R45). -/

namespace Sys2Proof.Machine

open Sys2Proof

/-! ### Commands by name -/

theorem cmdIs_iff {k : Carrier} {seq : Nat} {m : Cmd} : cmdIs k seq m = true ↔ m.car = k ∧ m.seq = seq := by
  rw [cmdIs, Bool.and_eq_true, decide_eq_true_eq, beq_iff_eq]

/-- A command that is found is one of the module's, and has the name it was sought by. -/
theorem of_findCmd {c : Chip} {k : Carrier} {seq : Nat} {m : Cmd} (h : c.findCmd k seq = some m) : m ∈ c.cmds ∧ m.car = k ∧ m.seq = seq :=
  ⟨List.mem_of_find?_eq_some h, cmdIs_iff.mp (List.find?_some h)⟩

/-! ### Issue: what leaves the commands of the module alone -/

/-- A choice between a value and one that agrees with it in g agrees in g. -/
theorem ite_keep {α β : Type} (g : α → β) {p : Prop} [Decidable p] {x y : α} (h : g x = g y) : g (if p then x else y) = g y := by
  split
  · exact h
  · rfl

@[simp] theorem setBallast_cmds (w : Nat) (c : Chip) : (setBallast w c).cmds = c.cmds := by
  rw [setBallast]
  exact ite_keep Chip.cmds (Chip.rput_cmds _ _ _ _)

@[simp] theorem wake_cmds (c : Chip) : (wake c).cmds = c.cmds := by
  rw [wake]
  split
  · rfl
  · simp only [Chip.rput_cmds]

@[simp] theorem waitStart_cmds (x : Start) (a : Nat) (c : Chip) : (waitStart x a c).cmds = c.cmds := by
  rw [waitStart]
  split <;> rfl

@[simp] theorem admission_cmds (x : Start) (a : Nat) (c : Chip) : (admission x a c).2.cmds = c.cmds := by
  rw [admission]
  split
  · rfl
  · dsimp only
    split
    · rw [waitStart_cmds, wake_cmds]
    · split
      · exact wake_cmds c
      · have hwait : (waitStart x a (wake c)).cmds = c.cmds := (waitStart_cmds x a _).trans (wake_cmds c)
        exact (ite_keep (fun r : Bool × Chip => r.2.cmds) ((wake_cmds c).trans hwait.symm)).trans hwait

@[simp] theorem startEngines_cmds (es : List Engine) (c : Chip) : (startEngines es c).cmds = c.cmds := by
  refine foldl_keep Chip.cmds _ (fun d e => ?_) es c
  dsimp only
  split
  · rfl
  · split
    · split
      · rw [Chip.setEngine_cmds, admission_cmds]
      · rw [admission_cmds]
    · rw [Chip.setEngine_cmds]

@[simp] theorem Chip.touch_cmds (c : Chip) (a : Nat) : (c.touch a).cmds = c.cmds := by
  rw [Chip.touch]
  split
  · rfl
  · dsimp only
    split <;> rfl

@[simp] theorem setSlotOk_cmds (u i v : Nat) (c : Chip) : (setSlotOk u i v c).cmds = c.cmds := Chip.rput_cmds _ _ _ _

/-- As it issues, a FW_STAGE may record that it is not refused; no other command changes. -/
theorem stageIssue_cases (m : Cmd) (c : Chip) :
    ((stageIssue m c).1 = m ∨ (stageIssue m c).1 = { m with prog := 1 }) ∧ (stageIssue m c).2.cmds = c.cmds := by
  rw [stageIssue]
  split
  · exact ⟨.inl rfl, rfl⟩
  · exact ⟨.inr rfl, setSlotOk_cmds _ _ _ _⟩

/-! ### Issue -/

/-- A command in execution on what a plan names. -/
def Cmd.onPlan (m : Cmd) (p : Plan) (prev : Bool) : Cmd :=
  { m with phase := .executing, issued := true, inst := p.inst, half := p.half, claims := p.claims, tandem := p.tandem, adm := p.adm,
           usesPrev := prev, needPlace := false }

/-- The devices that hold a command's pages are asked for (R285). -/
def touchPages (m : Cmd) (c : Chip) : Chip := m.pages.foldl (fun c p => if p.ok then c.touch (p.frame * 65536) else c) c

/-- A collective takes its staging place (R464). -/
def stagePlace (m : Cmd) (c : Chip) : Chip :=
  if m.cls = 7 && m.op ≤ 5 then
    { c with fab := { c.fab with colls := c.fab.colls.map (fun x => if x.cmd = some (m.car, m.seq) then { x with place := collPlace c m } else x) } }
  else c

/-- An issue that a queue processor interprets is counted (R74). -/
def countIssue (m : Cmd) (c : Chip) : Chip := if runsQp m then c.rcount (QPB m.half) QPR_INTERPRETED 1 else c

/-- The next turn among a command's engines is that after its queue (R53). -/
def takeTurn (m : Cmd) (c : Chip) : Chip :=
  match m.queue? with
  | some q => { c with rr := kset (fun _ => 2 ^ 20 - 1) c.rr (lane m) q }
  | none => c

theorem touchPages_cmds (m : Cmd) (c : Chip) : (touchPages m c).cmds = c.cmds := by
  refine foldl_keep Chip.cmds _ (fun d p => ?_) m.pages c
  split
  · rw [Chip.touch_cmds]
  · rfl

theorem stagePlace_cmds (m : Cmd) (c : Chip) : (stagePlace m c).cmds = c.cmds := by
  rw [stagePlace]
  split <;> rfl

theorem countIssue_cmds (m : Cmd) (c : Chip) : (countIssue m c).cmds = c.cmds :=
  ite_keep Chip.cmds (c.rcount_cmds (QPB m.half) QPR_INTERPRETED 1)

theorem takeTurn_cmds (m : Cmd) (c : Chip) : (takeTurn m c).cmds = c.cmds := by
  unfold takeTurn
  split <;> rfl

section
variable {c : Chip} {m : Cmd} {p : Plan} {prev : Bool}

/-- An issue that adopts no epoch, step by step. -/
theorem issueTo_of_no_epoch (es : List Engine) (hepoch : prev = true ∨ m.epoch = 0) :
    let n := (stageIssue (m.onPlan p prev) c).1
    let d := takeTurn n (countIssue n (stagePlace n (startEngines (p.claims.filter (fun e => e.cls == 1))
      (touchPages n ((stageIssue (m.onPlan p prev) c).2.putCmd n)))))
    issueTo m p prev es c = setBallast d.gov.bal d := by
  have hkeep : (prev || m.epoch == 0) = true := by
    rw [Bool.or_eq_true, beq_iff_eq]
    exact hepoch
  rw [issueTo, hkeep, if_pos rfl]
  rfl

/-- Where no epoch is adopted, only the command that issues changes. -/
theorem issueTo_cmds (es : List Engine) (hepoch : prev = true ∨ m.epoch = 0) :
    (issueTo m p prev es c).cmds = (c.putCmd (stageIssue (m.onPlan p prev) c).1).cmds := by
  rw [issueTo_of_no_epoch es hepoch, setBallast_cmds, takeTurn_cmds, countIssue_cmds, stagePlace_cmds, startEngines_cmds, touchPages_cmds,
    Chip.putCmd, (stageIssue_cases _ _).2, Chip.putCmd]

/-- A ready command that nothing fences, whose engines, epoch and power are settled, issues. -/
theorem issueReady_of_admitted {c1 c2 c3 : Chip} (hfence : fenceFails c m = none) (hchoose : choose m c = (.go p, c1))
    (hepoch : epochCheck m (epochEngines m p c1) c1 = .inl prev) (hparam : paramBad m c1 = (none, c2))
    (hpower : admission (.cmd m.car m.seq) p.adm c2 = (true, c3)) :
    issueReady m c = issueTo m p prev (epochEngines m p c1) c3 := by
  simp only [issueReady, hfence, hchoose, hepoch, hparam, hpower, if_true]

theorem commandIssueStep_of_ready {k : Carrier} {seq : Nat} (hfind : c.findCmd k seq = some m) (hup : c.up = true ∨ m.queue? = none)
    (hready : ready c m = true) (hfirst : outranked c m = false) : commandIssueStep k seq c = issueReady m c := by
  have hserves : (c.up || m.queue?.isNone) = true := by
    rw [Bool.or_eq_true, Option.isNone_iff_eq_none]
    exact hup
  simp only [commandIssueStep, hfind, hserves, hready, hfirst, Bool.not_false, Bool.and_self, if_true]

end

/-- Settles O12: the command issues (`issueReady_of_admitted`), and of the module's commands it alone changes (`issueTo_cmds`). -/
theorem readyCommandsIssue : Obligations.ReadyCommandsIssue := by
  intro s k seq m p prev c1 c2 c3 hwf c hfind hup hready hfirst hfence hchoose hepoch hparam hpower
  refine ⟨gives_of_run rfl hwf ((commandIssueStep_of_ready hfind hup hready hfirst).trans
    (issueReady_of_admitted hfence hchoose hepoch hparam hpower)), fun hkeep => ?_⟩
  obtain ⟨-, hcar, hseq⟩ := of_findCmd hfind
  have hcmds := issueTo_cmds (c := c3) (p := p) (epochEngines m p c1) hkeep
  rcases (stageIssue_cases (m.onPlan p prev) c3).1 with h | h <;> rw [h] at hcmds
  · exact ⟨m.onPlan p prev, by rw [hcmds, ← hcar, ← hseq]; rfl, hcar, hseq, rfl, rfl, rfl, rfl, rfl, rfl, rfl⟩
  · exact ⟨{ m.onPlan p prev with prog := 1 }, by rw [hcmds, ← hcar, ← hseq]; rfl, hcar, hseq, rfl, rfl, rfl, rfl, rfl, rfl, rfl⟩

/-! ### Retirement and priority (R27, R43, R53) -/

section
variable {c : Chip} {m : Cmd}

theorem mayRetire_of_finished (hphase : m.phase = .finished) (htxns : m.txns = [])
    (hruns : ¬ (m.cls = 6 ∧ (m.op = 5 ∨ m.op = 0xA) ∧ ∃ q, m.car = .queue q ∧ (c.queue q).st = .preempted)) : mayRetire c m = true := by
  have hfree : (m.cls == 6 && (m.op == 5 || m.op == 0xA) && (match m.car with
      | .queue q => decide ((c.queue q).st = .preempted)
      | _ => false)) = false := by
    rw [Bool.eq_false_iff]
    intro h
    rw [Bool.and_eq_true, Bool.and_eq_true, Bool.or_eq_true, beq_iff_eq, beq_iff_eq, beq_iff_eq] at h
    obtain ⟨⟨hcls, hop⟩, hqueue⟩ := h
    split at hqueue
    · exact hruns ⟨hcls, hop, _, ‹_›, of_decide_eq_true hqueue⟩
    · exact Bool.false_ne_true hqueue
  rw [mayRetire, hphase, htxns]
  exact congrArg (fun b => true && true && !b) hfree

theorem commandRetireStep_of_finished {k : Carrier} {seq : Nat} {r : Res} (hfind : c.findCmd k seq = some m) (hres : m.res = some r)
    (hmay : mayRetire c m = true) : commandRetireStep k seq c = retire m r c := by
  simp only [commandRetireStep, hfind, hres, hmay, if_true]

theorem priorityRaiseStep_of_ready {q seq : Nat} (hfind : c.findCmd (.queue q) seq = some m) (hready : ready c m = true) :
    priorityRaiseStep q seq c = c.putCmd { m with raised := true } := by
  simp only [priorityRaiseStep, hfind, hready, if_true]

end

/-! ### Writes while no host core holds a copy (R397) -/

section
variable {c : Chip} (hdir : c.host.dir = [])
include hdir

/-- A byte written then changes no more than memory and the devices' way out of rest. -/
theorem Chip.wrByte_eq_of_no_copy (a : Nat) (b : Byte) : c.wrByte a b = { c with mem := (c.wrByte a b).mem, srv := (c.wrByte a b).srv } := by
  have hrecall : c.recall (a / 64) = c := c.recall_of_none _ (by rw [hdir]; rfl)
  have htouch : c.touch a = { c with srv := (c.touch a).srv } := by
    rw [Chip.touch]
    split
    · rfl
    · dsimp only
      split <;> rfl
  rw [Chip.wrByte]
  split
  · rw [hrecall, htouch]
  · rfl

/-- Bytes written then change no more than memory and the devices' way out of rest. -/
theorem Chip.wrMem_eq_of_no_copy (l : List Byte) (a : Nat) : c.wrMem a l = { c with mem := (c.wrMem a l).mem, srv := (c.wrMem a l).srv } := by
  induction l generalizing c a with
  | nil => rfl
  | cons b l ih =>
    have hbyte := Chip.wrByte_eq_of_no_copy hdir a b
    have hdir' : (c.wrByte a b).host.dir = [] := by rw [hbyte]; exact hdir
    rw [Chip.wrMem, ih hdir']
    rw [hbyte]

theorem Chip.rdByte_wrMem_of_outside (l : List Byte) {a x : Nat} (hx : x < a ∨ a + l.length ≤ x) : (c.wrMem a l).rdByte x = c.rdByte x := by
  induction l generalizing c a with
  | nil => rfl
  | cons b l ih =>
    have hdir' : (c.wrByte a b).host.dir = [] := by rw [Chip.wrByte_eq_of_no_copy hdir]; exact hdir
    rw [List.length_cons] at hx
    calc ((c.wrByte a b).wrMem (a + 1) l).rdByte x = (c.wrByte a b).rdByte x := ih hdir' (by omega)
      _ = c.rdByte x := c.rdByte_wrByte_ne b (by rw [hdir]; rfl) (by omega)

theorem Chip.rdByte_wrMem_self (l : List Byte) {a i : Nat} (hi : i < l.length) (hbacked : backed a l.length = true) :
    (c.wrMem a l).rdByte (a + i) = nth l i 0 := by
  have hall : ∀ a n, backed a n = true ↔ a + n ≤ backedFrames * 65536 := fun a n => decide_eq_true_iff
  induction l generalizing c a i with
  | nil => exact absurd hi (Nat.not_lt_zero i)
  | cons b l ih =>
    have hdir' : (c.wrByte a b).host.dir = [] := by rw [Chip.wrByte_eq_of_no_copy hdir]; exact hdir
    rw [hall, List.length_cons] at hbacked
    cases i with
    | zero =>
      calc ((c.wrByte a b).wrMem (a + 1) l).rdByte (a + 0) = (c.wrByte a b).rdByte a :=
            Chip.rdByte_wrMem_of_outside hdir' l (.inl (by omega))
        _ = b := c.rdByte_wrByte_self a b ((hall a 1).mpr (by omega))
    | succ i =>
      have hplace : a + (i + 1) = a + 1 + i := by omega
      rw [Chip.wrMem, hplace]
      exact ih hdir' (Nat.lt_of_succ_lt_succ hi) ((hall _ _).mpr (by omega))

end

/-! ### Completion records (R43, R45) -/

/-- A record goes to the slot that CQ_COUNT names, where its page translates. -/
theorem writeCq_of_translated {c : Chip} {q a : Nat} (rec : List Byte)
    (hpage : pageAddr (c.queue q).cqPages (bits (c.queue q).cqBase 0 57 + 32 * ((c.queue q).cqCount % 2 ^ (c.queue q).cqLog2)) = some a) :
    writeCq q rec c = (c.wrMem a rec).setQueue q { c.queue q with cqCount := ((c.queue q).cqCount + 1) % 2 ^ 32 } := by
  simp only [writeCq, hpage]
  rfl

/-- Settles O13: a finished command may retire (`mayRetire_of_finished`), a raised one has priority 3, and a record's bytes are those written
to its slot (`Chip.rdByte_wrMem_self`). -/
theorem finishedCommandsRetire : Obligations.FinishedCommandsRetire := by
  refine ⟨fun s m => ⟨fun k seq r hwf hfind hres hphase htxns hruns => ?retire, fun q seq hwf hfind hready => ?raise⟩,
    fun c q a rec hlen hpage hbacked hdir => ?record⟩
  case retire => exact gives_of_run rfl hwf (commandRetireStep_of_finished hfind hres (mayRetire_of_finished hphase htxns hruns))
  case raise => exact ⟨gives_of_run rfl hwf (priorityRaiseStep_of_ready hfind hready), fun d => if_pos rfl⟩
  case record =>
    rw [writeCq_of_translated rec hpage]
    rw [← hlen] at hbacked ⊢
    have hqueues : (c.wrMem a rec).queues = c.queues := by rw [Chip.wrMem_eq_of_no_copy hdir]
    refine ⟨fun i hi => Chip.rdByte_wrMem_self hdir rec hi hbacked, fun b hb => Chip.rdByte_wrMem_of_outside hdir rec hb, ?_, fun k hk => ?_⟩
    · rw [Chip.queue_setQueue, if_pos rfl]
    · rw [Chip.queue_setQueue, if_neg hk, Chip.queue, hqueues, Chip.queue]

end Sys2Proof.Machine

/-! Queue-control commands (R25, R27, R28, R33, R55 to R57, R73, R75, R358, R359). -/

namespace Sys2Proof.Machine

open Sys2Proof

/-! ### Commands that are put back, by name -/

/-- Putting a command back changes no command's name. -/
theorem cmdIs_replace (k : Carrier) (seq : Nat) (m x : Cmd) : cmdIs k seq (if cmdIs m.car m.seq x then m else x) = cmdIs k seq x := by
  split
  next h =>
    obtain ⟨hcar, hseq⟩ := cmdIs_iff.mp h
    rw [cmdIs, cmdIs, hcar, hseq]
  next => rfl

theorem car_replace (m x : Cmd) : (if cmdIs m.car m.seq x then m else x).car = x.car := by
  split
  next h => exact (cmdIs_iff.mp h).1.symm
  next => rfl

theorem Chip.findCmd_putCmd (c : Chip) (k : Carrier) (seq : Nat) (m : Cmd) :
    (c.putCmd m).findCmd k seq = (c.findCmd k seq).map (fun x => if cmdIs m.car m.seq x then m else x) := by
  have hname : cmdIs k seq ∘ (fun x => if cmdIs m.car m.seq x then m else x) = cmdIs k seq := funext (cmdIs_replace k seq m)
  rw [Chip.findCmd, Chip.putCmd, List.find?_map, hname, Chip.findCmd]

theorem Chip.cmdsOf_putCmd (c : Chip) (k : Carrier) (m : Cmd) :
    (c.putCmd m).cmdsOf k = (c.cmdsOf k).map (fun x => if cmdIs m.car m.seq x then m else x) := by
  have hcar : (fun x : Cmd => decide (x.car = k)) ∘ (fun x => if cmdIs m.car m.seq x then m else x) = fun x => decide (x.car = k) :=
    funext (fun x => by rw [Function.comp_apply, car_replace])
  rw [Chip.cmdsOf, Chip.putCmd, List.filter_map, hcar, Chip.cmdsOf]

/-- Putting a command back gives a queue none. -/
theorem Chip.cmdsOf_putCmd_nil {c : Chip} {k : Carrier} (h : c.cmdsOf k = []) (m : Cmd) : (c.putCmd m).cmdsOf k = [] := by
  rw [Chip.cmdsOf_putCmd, h, List.map_nil]

/-- The command put back is found where one of its name was. -/
theorem Chip.findCmd_putCmd_same {c : Chip} {k : Carrier} {seq : Nat} {x m : Cmd} (h : c.findCmd k seq = some x) (hm : cmdIs k seq m = true) :
    (c.putCmd m).findCmd k seq = some m := by
  obtain ⟨-, hcar, hseq⟩ := of_findCmd h
  obtain ⟨hcar', hseq'⟩ := cmdIs_iff.mp hm
  rw [Chip.findCmd_putCmd, h, Option.map_some, if_pos (cmdIs_iff.mpr ⟨hcar.trans hcar'.symm, hseq.trans hseq'.symm⟩)]

/-- A command of another name, put back, is not the one found. -/
theorem Chip.findCmd_putCmd_other {c : Chip} {k : Carrier} {seq : Nat} {x m : Cmd} (h : c.findCmd k seq = some x) (hm : cmdIs k seq m ≠ true) :
    (c.putCmd m).findCmd k seq = some x := by
  obtain ⟨-, hcar, hseq⟩ := of_findCmd h
  have hother : ¬ cmdIs m.car m.seq x = true := fun hx =>
    have ⟨h1, h2⟩ := cmdIs_iff.mp hx
    hm (cmdIs_iff.mpr ⟨h1.symm.trans hcar, h2.symm.trans hseq⟩)
  rw [Chip.findCmd_putCmd, h, Option.map_some, if_neg hother]

/-- Once a command is put back, it is the only one of its name. -/
theorem Chip.eq_of_mem_putCmd {c : Chip} {m x : Cmd} (hx : x ∈ (c.putCmd m).cmds) (hname : cmdIs m.car m.seq x = true) : x = m := by
  obtain ⟨y, -, rfl⟩ := List.mem_map.mp hx
  rw [cmdIs_replace] at hname
  exact if_pos hname

/-! ### What settles when a wait ends -/

@[simp] theorem disabled_cmds (q : Nat) (c : Chip) : (disabled q c).cmds = c.cmds := by
  rw [disabled]
  dsimp only
  split
  · simp only [Chip.rput_cmds, Chip.setQueue_cmds]
  · exact Chip.setQueue_cmds _ _ _

/-- Disabling a queue clears its pages and changes no other queue. -/
theorem queue_disabled (q p : Nat) (c : Chip) :
    (disabled q c).queue p = if p = q then { c.queue q with st := .disabled, sqPages := [], cqPages := [], wlPages := [] } else c.queue p := by
  rw [disabled]
  dsimp only
  split
  · simp only [Chip.queue, Chip.rput_queues]
    exact Chip.queue_setQueue c q p _
  · exact Chip.queue_setQueue c q p _

@[simp] theorem settleDrain_cmds (q : Nat) (c : Chip) : (settleDrain q c).cmds = c.cmds := by
  rw [settleDrain]
  exact ite_keep Chip.cmds (disabled_cmds q c)

/-- A queue that does not drain is left as it is. -/
theorem queue_settleDrain {q : Nat} {c : Chip} (h : (c.queue q).st ≠ .draining) (p : Nat) : (settleDrain p c).queue q = c.queue q := by
  rw [settleDrain]
  split
  next hp =>
    have hne : q ≠ p := fun he => h (he ▸ hp.1)
    rw [queue_disabled, if_neg hne]
  next => rfl

/-- A wait of a command is over: it ends as the wait answers. -/
def endWait (c : Chip) (m : Cmd) : Chip := c.putCmd { m with phase := .finished, res := waitOver c m }

/-- The queue that a command's DISABLE waits for settles. -/
def drainFor (c : Chip) (m : Cmd) : Chip :=
  match m.wait with
  | .disable q => settleDrain q c
  | _ => c

/-- The commands whose wait is over. -/
def Chip.overWaits (c : Chip) : List Cmd := c.cmds.filter (fun m => decide (m.phase = .executing) && (waitOver c m).isSome)

theorem settleWaits_eq (c : Chip) : settleWaits c = c.overWaits.foldl drainFor (c.overWaits.foldl endWait c) := (rfl)

theorem drainFor_cmds (c : Chip) (m : Cmd) : (drainFor c m).cmds = c.cmds := by
  rw [drainFor]
  split
  · exact settleDrain_cmds _ c
  · rfl

theorem queue_drainFor {q : Nat} {c : Chip} (h : (c.queue q).st ≠ .draining) (m : Cmd) : (drainFor c m).queue q = c.queue q := by
  rw [drainFor]
  split
  · exact queue_settleDrain h _
  · rfl

theorem foldl_drainFor_queue {q : Nat} (l : List Cmd) {c : Chip} (h : (c.queue q).st ≠ .draining) : (l.foldl drainFor c).queue q = c.queue q := by
  induction l generalizing c with
  | nil => rfl
  | cons m l ih =>
    have hm := queue_drainFor h m
    exact (ih (hm ▸ h)).trans hm

/-- Ending waits leaves a queue that does not drain as it is. -/
theorem queue_settleWaits {q : Nat} {c : Chip} (h : (c.queue q).st ≠ .draining) : (settleWaits c).queue q = c.queue q := by
  have hends : (c.overWaits.foldl endWait c).queue q = c.queue q :=
    foldl_keep (fun d : Chip => d.queue q) endWait (fun d m => by rw [endWait, Chip.queue, Chip.putCmd_queues, Chip.queue]) _ c
  rw [settleWaits_eq, foldl_drainFor_queue _ (hends ▸ h), hends]

theorem findCmd_settleWaits (k : Carrier) (seq : Nat) (c : Chip) :
    (settleWaits c).findCmd k seq = (c.overWaits.foldl endWait c).findCmd k seq := by
  rw [settleWaits_eq, Chip.findCmd, foldl_keep Chip.cmds drainFor drainFor_cmds, Chip.findCmd]

/-! ### A DISABLE whose queue is empty -/

/-- A DISABLE whose queue holds no command is over. -/
theorem waitOver_disable {c : Chip} {q : Nat} {m : Cmd} (hwait : m.wait = .disable q) (hempty : c.cmdsOf (.queue q) = []) :
    waitOver c m = some doneRes := by
  have hnone : ¬ c.cmds.any (disableWaits m q) = true := fun h => by
    obtain ⟨x, hx, hwaits⟩ := List.any_eq_true.mp h
    rw [disableWaits, Bool.and_eq_true, Bool.and_eq_true] at hwaits
    exact List.filter_eq_nil_iff.mp hempty x hx hwaits.1.1
  rw [waitOver, hwait]
  exact if_neg hnone

section EmptyQueue

variable {q seq : Nat} {k : Carrier} {m : Cmd} (hname : cmdIs k seq m = true) (hwait : m.wait = .disable q)
include hname hwait

/-- Where the waits that end include one command of a name, a DISABLE of an empty queue, it is found to have ended with DONE. -/
theorem findCmd_foldl_endWait (l : List Cmd) (honly : ∀ x ∈ l, cmdIs k seq x = true → x = m) {c : Chip} (hempty : c.cmdsOf (.queue q) = [])
    (hfind : c.findCmd k seq = some { m with phase := .finished, res := some doneRes } ∨ (c.findCmd k seq = some m ∧ m ∈ l)) :
    (l.foldl endWait c).findCmd k seq = some { m with phase := .finished, res := some doneRes } := by
  induction l generalizing c with
  | nil => exact hfind.resolve_right (fun h => List.not_mem_nil h.2)
  | cons x l ih =>
    refine ih (fun y hy => honly y (List.mem_cons_of_mem x hy)) (Chip.cmdsOf_putCmd_nil hempty _) ?_
    by_cases hx : cmdIs k seq x = true
    · obtain rfl := honly x List.mem_cons_self hx
      rw [endWait, waitOver_disable hwait hempty]
      obtain h | ⟨h, -⟩ := hfind
      · exact .inl (Chip.findCmd_putCmd_same h hname)
      · exact .inl (Chip.findCmd_putCmd_same h hname)
    · refine hfind.imp (fun h => Chip.findCmd_putCmd_other h hx) (fun ⟨h, hmem⟩ => ⟨Chip.findCmd_putCmd_other h hx, ?_⟩)
      exact (List.mem_cons.mp hmem).resolve_left (fun he => hx (he ▸ hname))

/-- A DISABLE in execution, the only command of its name, ends with DONE where its queue is empty. -/
theorem findCmd_settleWaits_disable {c : Chip} (hphase : m.phase = .executing) (hfind : c.findCmd k seq = some m)
    (honly : ∀ x ∈ c.cmds, cmdIs k seq x = true → x = m) (hempty : c.cmdsOf (.queue q) = []) :
    (settleWaits c).findCmd k seq = some { m with phase := .finished, res := some doneRes } := by
  have hover : m ∈ c.overWaits := List.mem_filter.mpr ⟨(of_findCmd hfind).1, by
    rw [hphase, waitOver_disable hwait hempty]
    rfl⟩
  rw [findCmd_settleWaits]
  exact findCmd_foldl_endWait hname hwait _ (fun x hx => honly x (List.mem_filter.mp hx).1) hempty (.inr ⟨hfind, hover⟩)

end EmptyQueue

/-- A DISABLE of an empty queue that is not DISABLED: the queue drains, and nothing is aborted. -/
theorem startDisable_of_empty {q : Nat} {c : Chip} (hempty : c.cmdsOf (.queue q) = []) (stop : Bool) :
    startDisable q stop c = c.setQueue q { c.queue q with st := .draining } := by
  have hempty' : (c.setQueue q { c.queue q with st := .draining }).cmdsOf (.queue q) = [] := hempty
  rw [startDisable]
  dsimp only
  rw [hempty']
  exact ite_self _

/-- An empty queue without duplicates that begins to drain is DISABLED. -/
theorem settleDrain_startDisable {q : Nat} {c : Chip} (hempty : c.cmdsOf (.queue q) = []) (hdups : (c.queue q).dups = []) (stop : Bool) :
    settleDrain q (startDisable q stop c) = disabled q (c.setQueue q { c.queue q with st := .draining }) := by
  have hqueue : (c.setQueue q { c.queue q with st := .draining }).queue q = { c.queue q with st := .draining } := by
    rw [Chip.queue_setQueue, if_pos rfl]
  rw [startDisable_of_empty hempty, settleDrain, if_pos ⟨by rw [hqueue], hempty, by rw [hqueue]; exact hdups⟩]

/-! ### The rows of queue control -/

theorem qcRow_of_control {k : Carrier} {seq op : Nat} {f : Cmd → Chip → Chip} {c : Chip} {m : Cmd} (h : control k seq 0xE op c = some m) :
    qcRow k seq op f c = settleWaits (f m c) := by
  rw [qcRow, h]

/-- A control command is one of the module's, by its name, in execution. -/
theorem of_control {k : Carrier} {seq cls op : Nat} {c : Chip} {m : Cmd} (h : control k seq cls op c = some m) :
    c.findCmd k seq = some m ∧ m.phase = .executing := by
  obtain ⟨hfind, hm⟩ := Option.filter_eq_some_iff.mp h
  simp only [Bool.and_eq_true, decide_eq_true_eq] at hm
  exact ⟨hfind, hm.1.1.1⟩

/-- Settles O16: the drain finds the queue empty and disables it, and the command's own wait is then over. -/
theorem disablingAnEmptyQueueEnds : Obligations.DisablingAnEmptyQueueEnds := by
  intro s k seq m hwf c q hctl hst hempty hdups
  obtain ⟨hfind, hphase⟩ := of_control hctl
  obtain ⟨-, hcar, hseq⟩ := of_findCmd hfind
  let w : Cmd := { m with wait := .disable q }
  have hname : cmdIs k seq w = true := cmdIs_iff.mpr ⟨hcar, hseq⟩
  let b := c.putCmd w
  have hbempty : b.cmdsOf (.queue q) = [] := Chip.cmdsOf_putCmd_nil hempty w
  let d := disabled q (b.setQueue q { b.queue q with st := .draining })
  have hcmds : d.cmds = b.cmds := disabled_cmds q _
  have hdst : (d.queue q).st = .disabled := by rw [queue_disabled, if_pos rfl]
  have hruns : qDisableStep k seq c = settleWaits d := by
    rw [qDisableStep, qcRow_of_control hctl]
    dsimp only
    rw [if_neg hst, settleDrain_startDisable hbempty hdups]
  refine ⟨settleWaits d, gives_of_run rfl hwf hruns, ?_, ?_⟩
  · rw [queue_settleWaits (by rw [hdst]; decide), hdst]
  · refine findCmd_settleWaits_disable hname rfl hphase ?_ (fun x hx hx' => ?_) ?_
    · rw [Chip.findCmd, hcmds]
      exact Chip.findCmd_putCmd_same hfind hname
    · exact Chip.eq_of_mem_putCmd (hcmds ▸ hx) (by rw [show w.car = k from hcar, show w.seq = seq from hseq]; exact hx')
    · rw [Chip.cmdsOf, hcmds]
      exact hbempty

section Rows

variable {k : Carrier} {seq : Nat} {c : Chip} {m : Cmd}

theorem qEnableStep_of_control (h : control k seq 0xE 1 c = some m) :
    (m.par 26 1 = 0 → qEnableStep k seq c = settleWaits (finish m (enableFresh m.qField c).1 (enableFresh m.qField c).2)) ∧
    (m.par 26 1 ≠ 0 → qEnableStep k seq c = settleWaits (finish m (enableResume m.qField c).1 (enableResume m.qField c).2)) := by
  rw [qEnableStep, qcRow_of_control h]
  exact ⟨fun hmode => by simp only [if_pos hmode], fun hmode => by simp only [if_neg hmode]⟩

theorem enableResume_of_error {q : Nat} (h : (c.queue q).st = .error) :
    enableResume q c = (doneRes, c.setQueue q { c.queue q with
      st := if (c.ctx (c.queue q).ctx).st = .preempted then .preempted else .enabled }) := by
  rw [enableResume]
  exact if_pos h

theorem enableResume_of_not_error {q : Nat} (h : (c.queue q).st ≠ .error) : enableResume q c = (malformedRes, c) := by
  rw [enableResume]
  exact if_neg h

theorem qDisableStep_of_disabled (h : control k seq 0xE 2 c = some m) (hst : (c.queue m.qField).st = .disabled) :
    qDisableStep k seq c = settleWaits (finish m doneRes c) := by
  rw [qDisableStep, qcRow_of_control h]
  exact congrArg settleWaits (if_pos hst)

theorem abortSeqStep_of_found (h : control k seq 0xE 3 c = some m) {t : Cmd} (ht : c.findCmd (.queue m.qField) (m.par 20 4) = some t) :
    abortSeqStep k seq c = (let r := abortCmd 1 true t c
      settleWaits (finish m (mkRes sDone [(0, 1, b2n (!r.1)), (1, 1, (seenStatus m.qField (m.par 20 4) r.2).getD sAborted)]) r.2)) := by
  rw [abortSeqStep, qcRow_of_control h]
  dsimp only
  rw [ht]

theorem abortSeqStep_of_retired (h : control k seq 0xE 3 c = some m) (ht : c.findCmd (.queue m.qField) (m.par 20 4) = none)
    {st : Nat} (hst : seenStatus m.qField (m.par 20 4) c = some st) :
    abortSeqStep k seq c = settleWaits (finish m (mkRes sDone [(0, 1, 1), (1, 1, st)]) c) := by
  rw [abortSeqStep, qcRow_of_control h]
  dsimp only
  rw [ht, hst]

theorem abortSeqStep_of_unknown (h : control k seq 0xE 3 c = some m) (ht : c.findCmd (.queue m.qField) (m.par 20 4) = none)
    (hst : seenStatus m.qField (m.par 20 4) c = none) :
    abortSeqStep k seq c = settleWaits (finish m (mkRes sDone [(0, 1, 2)]) c) := by
  rw [abortSeqStep, qcRow_of_control h]
  dsimp only
  rw [ht, hst]

theorem abortQueueStep_of_alone (h : control k seq 0xE 4 c = some m)
    (halone : ∀ t ∈ c.cmdsOf (.queue m.qField), cmdIs m.car m.seq t = true) :
    abortQueueStep k seq c = settleWaits (finish m (mkRes sDone [(0, 1, 2)]) c) := by
  have hnone : (c.cmdsOf (.queue m.qField)).filter (fun t => !cmdIs m.car m.seq t) = [] :=
    List.filter_eq_nil_iff.mpr (fun t ht => by rw [halone t ht]; decide)
  rw [abortQueueStep, qcRow_of_control h]
  dsimp only
  rw [hnone, List.foldl_nil]

theorem ctxPreemptStep_of_active (h : control k seq 0xE 5 c = some m) (hst : (c.ctx (m.par 24 2)).st = .active) :
    ctxPreemptStep k seq c = (let n := m.par 24 2
      let d := ctxQueues n (fun x => if x.st = .enabled then { x with st := .preempted } else x) c
      settleWaits ((d.setCtx n { d.ctx n with st := .preempted }).putCmd { m with wait := .preempt n })) := by
  rw [ctxPreemptStep, qcRow_of_control h]
  exact congrArg settleWaits (if_neg (not_not.mpr hst))

theorem ctxPreemptStep_of_not_active (h : control k seq 0xE 5 c = some m) (hst : (c.ctx (m.par 24 2)).st ≠ .active) :
    ctxPreemptStep k seq c = settleWaits (finish m malformedRes c) := by
  rw [ctxPreemptStep, qcRow_of_control h]
  exact congrArg settleWaits (if_pos hst)

theorem ctxResumeStep_of_preempted (h : control k seq 0xE 6 c = some m) (hst : (c.ctx (m.par 24 2)).st = .preempted) {x : CtxDesc} {d : Chip}
    (hread : readCtx (m.par 24 2) c = (.inr x, d)) :
    ctxResumeStep k seq c = (let n := m.par 24 2
      settleWaits (finish m doneRes (ctxQueues n (fun y => if y.st = .preempted then { y with st := .enabled } else y)
        (d.setCtx n { d.ctx n with st := .active, held := some x })))) := by
  rw [ctxResumeStep, qcRow_of_control h]
  dsimp only
  rw [if_neg (not_not.mpr hst), hread]

theorem ctxResumeStep_of_not_preempted (h : control k seq 0xE 6 c = some m) (hst : (c.ctx (m.par 24 2)).st ≠ .preempted) :
    ctxResumeStep k seq c = settleWaits (finish m malformedRes c) := by
  rw [ctxResumeStep, qcRow_of_control h]
  exact congrArg settleWaits (if_pos hst)

theorem xltInvalidateStep_of_control (h : control k seq 0xE 8 c = some m) :
    xltInvalidateStep k seq c = (let n := m.par 24 2
      let lo := if m.par 40 8 = 0 then 0 else m.par 32 8 / 65536
      let hi := if m.par 40 8 = 0 then 2 ^ 41 else (m.par 32 8 + m.par 40 8) / 65536
      let users := c.cmds.filter (fun x => x.ctx == n && !cmdIs m.car m.seq x && x.pages.any (fun p => lo ≤ p.vp && p.vp < hi))
      settleWaits ((dropXlt n lo hi c).putCmd { m with wait := .invalidate n lo hi (users.map (fun x => x.gord)) })) := by
  rw [xltInvalidateStep, qcRow_of_control h]
  simp only [beq_iff_eq]

end Rows

/-- Settles O15, a row at a time. -/
theorem queueControlActs : Obligations.QueueControlActs := by
  intro s k seq m c q n
  refine ⟨?nop, ?enable, ?disable, ?abortSeq, ?abortQueue, ?preempt, ?resume, ?reset, ?invalidate⟩
  case nop => exact fun hwf h => gives_of_run rfl hwf (qcRow_of_control h)
  case enable =>
    intro hwf h
    obtain ⟨hfresh, hresume⟩ := qEnableStep_of_control h
    refine ⟨fun hmode => gives_of_run rfl hwf (hfresh hmode), fun hmode hst => ?_, fun hmode hst => ?_⟩
    · exact gives_of_run rfl hwf (by rw [hresume hmode, enableResume_of_error hst])
    · exact gives_of_run rfl hwf (by rw [hresume hmode, enableResume_of_not_error hst])
  case disable => exact fun hwf h hst => gives_of_run rfl hwf (qDisableStep_of_disabled h hst)
  case abortSeq =>
    intro hwf h
    refine ⟨fun t ht => gives_of_run rfl hwf (abortSeqStep_of_found h ht), fun ht => ⟨fun st hst => ?_, fun hst => ?_⟩⟩
    · exact gives_of_run rfl hwf (abortSeqStep_of_retired h ht hst)
    · exact gives_of_run rfl hwf (abortSeqStep_of_unknown h ht hst)
  case abortQueue => exact fun hwf h halone => gives_of_run rfl hwf (abortQueueStep_of_alone h halone)
  case preempt =>
    exact fun hwf h => ⟨fun hst => gives_of_run rfl hwf (ctxPreemptStep_of_active h hst),
      fun hst => gives_of_run rfl hwf (ctxPreemptStep_of_not_active h hst)⟩
  case resume =>
    exact fun hwf h => ⟨fun x d hst hread => gives_of_run rfl hwf (ctxResumeStep_of_preempted h hst hread),
      fun hst => gives_of_run rfl hwf (ctxResumeStep_of_not_preempted h hst)⟩
  case reset => exact fun hwf h => gives_of_run rfl hwf (qcRow_of_control h)
  case invalidate => exact fun hwf h => gives_of_run rfl hwf (xltInvalidateStep_of_control h)

end Sys2Proof.Machine
